-- ==== Sys2Proof/Word.lean ====
section
/-!
DEFINITION. The words, the byte lists, the finite-map type, the status codes and the records that travel
(flits, packets, messages) that every other file speaks of. Types and their plainest arithmetic only.
-/

namespace Sys2Proof

/-- One byte of memory, of a register or of a packet. -/
abbrev Byte := BitVec 8
abbrev W16 := BitVec 16
abbrev W32 := BitVec 32
abbrev W64 := BitVec 64

/-- A byte string, byte 0 first (R12). -/
abbrev Bytes := List Byte

/-- A finite map from numbers: keys strictly rising, no entry equal to what an unlisted key reads as.
The operations stand in Machine/FMap.lean. -/
abbrev FMap (α : Type) := List (Nat × α)

/-- The status codes of R558, each under its name. -/
inductive Status where
  | success | short | replayExcluded
  | cmdInvalid | opcodeUnknown | permissionDenied | seatState | moduleState | configInvalid
  | unsupported | tilesUnavailable | quotaExceeded | seatConflict | allotmentInUse
  | levelUnsupported | levelMismatch | turnAborted | admissionRequired
  | descInvalid | formatInvalid | addrInvalid | metaInvalid | tableStale | spillUnfollowed
  | triggerBusy | windowInvalid | hbmModeBusy
  | dataPoisoned | streamUncorrectable | checkFail | contextAborted | memberLost
  | descMismatch | lengthMismatch | spaceUnknown | spaceBusy | placementInvalid
  | placementMismatch | swapRejected | routeAborted
  | keyDenied | epochStale | timeout | noRoute | notReady
  | namespaceAbsent | flashUnavailable | flashFull | flashReadOnly | namespaceBusy
  | imageInvalid | unlockDenied
deriving DecidableEq, Repr

/-- The flit kinds of R322. -/
inductive FlitKind where
  | data | control | idle
deriving DecidableEq, Repr

/-- A flit of R322, its payload being the USED bytes; `bad` names the payload bytes that travel as poison (R264, R265),
`good` is false where its LCRC fails or it lies in a codeword that the FEC marks uncorrectable (R325); of a flit received, the
codewords that the FEC decoders of the port have corrected and found uncorrectable since the flit before (R320, R591). -/
structure Flit where
  kind : FlitKind
  tc : Nat
  vl : Nat
  lseq : Nat
  ack : Nat
  payload : Bytes
  bad : List Nat
  good : Bool
  corrected : Nat := 0
  uncorrectable : Nat := 0
deriving DecidableEq, Repr

/-- A control record of R328: its code and bytes 1 to 7. -/
structure Control where
  code : Nat
  body : Bytes
deriving DecidableEq, Repr

/-- A packet: the fields of the header of R335, the payload, the payload bytes that are poison (R264, R265), and the
EPOCH of the trailer (R336). -/
structure Packet where
  dst : Nat
  src : Nat
  type : Nat
  tc : Nat
  last : Bool
  empty : Bool
  reliable : Bool
  adaptive : Bool
  tree : Bool
  vl : Nat
  seq : Nat
  tag : Nat
  payload : Bytes
  bad : List Nat
  epoch : Nat
deriving DecidableEq, Repr

/-- The management transports of R537 (issuer M): MCTP over I2C with the sender's endpoint ID, MCTP over
PCIe vendor-defined messages with the requester ID and endpoint ID, or a fabric node with the port that the command came
by, 24 for none (R553 to R556, R612). -/
inductive Mgmt where
  | i2c (eid : Nat)
  | vdm (requester eid : Nat)
  | fabric (node port : Nat)
deriving DecidableEq, Repr

/-- One sample of a monitor (R571, R574): its ID and its reading, or none where it gives no valid one. -/
structure Sample where
  id : Nat
  reading : Option Int
deriving DecidableEq, Repr

/-- The failed parts that TILE_SELFTEST_FAIL names (R561), in the order of their codes 1 to 5. -/
inductive TestPart where
  | array | vector | store | copy | contexts
deriving DecidableEq, Repr

/-- The causes of a fence (R567), in the order of their codes 0x01 to 0x07. -/
inductive FenceCause where
  | uncorrectable | threshold | crossing | process | command | selfTest | cluster
deriving DecidableEq, Repr

/-- The units whose failure is a package failure (R568, R20). -/
inductive PackageUnit where
  | dieLink (n : Nat)
  | hub (n : Nat)
  | island (n : Nat)
deriving DecidableEq, Repr

/-- Why a port leaves UP (R332). -/
inductive LossCause where
  | signal | lock | codewords | resendLimit
deriving DecidableEq, Repr

/-- How a recovery step of a flash unit ends (R298): whether a step of page reads recovered it, the page reads that it made,
and, for a rebuild, the channels whose pages its own reads did not give. -/
structure Recovery where
  recovered : Bool
  reads : Nat := 1
  bad : List Nat := []
deriving DecidableEq, Repr

/-- Who makes an HBM access: its requester number at the controller (R251), and whether it is from outside the plan of the
seats on the stack (R258). -/
structure AccessSource where
  requester : Nat
  foreign : Bool
deriving DecidableEq, Repr

/-- What an HBM access does (R251, R256, R257). -/
inductive AccessKind where
  | read | write
deriving DecidableEq, Repr

/-- What an error-correcting decoder found (R261 to R265). -/
inductive EccOutcome where
  | clean | corrected | uncorrectable
deriving DecidableEq, Repr

end Sys2Proof
end

