-- ==== Sys2Proof/Syntax.lean ====
section
/-!
DEFINITION. The commands of the module: one constructor per row of spec/opcode_table.json, in its order.
The operands of a row say which unit, port, seat or context the event is at, or what arrives there; what the
state already holds (a packet released by a stream hub, a command accepted from a ring, a descriptor in
execution) is named by its place in the state. The effect of each is in Machine/Dispatch.lean.
-/

namespace Sys2Proof

/-- A command: an operation of the module or an event that reaches it. -/
inductive Instr where
  /-- INFO_IDENTITY (R550): Command that returns the ordering code, stepping, serial, arithmetic and protocol levels, firmware version and node number. -/
  | infoIdentity (id : Nat)
  /-- INFO_CAPS (R550): Command that returns logical tiles, healthy spares, degraded state, port split, seats, extents and feature bits. -/
  | infoCaps (id : Nat)
  /-- INFO_TILE_MAP (R550): Command that returns, for each physical tile, its module logical tile and its state. -/
  | infoTileMap (id : Nat)
  /-- INFO_REMAPS (R550): Command that returns the remap records from a given turn onward. -/
  | infoRemaps (id : Nat)
  /-- INFO_ALLOT (R550): Command that returns a port's allotment and the part of it that its seats leave free. -/
  | infoAllot (id : Nat)
  /-- SEAT_CREATE (R502): Command that checks a seat record and creates the seat in IDLE. -/
  | seatCreate (id : Nat)
  /-- SEAT_CHANGE (R505): Command that changes the seat-record fields that the seat's state allows. -/
  | seatChange (id : Nat)
  /-- SEAT_DESTROY (R613): Command that stops, disarms and drains a seat in DRAINING, then releases its resources and returns its final accounting record. -/
  | seatDestroy (id : Nat)
  /-- SEAT_QUERY (R550): Command that returns the seat record, state code, current turn number and epoch. -/
  | seatQuery (id : Nat)
  /-- SEAT_SEED (R71): Command that sets the Dice seed used by every turn that begins after it completes. -/
  | seatSeed (id : Nat)
  /-- SEAT_NEXT_TURN (R493): Command that sets the number of the seat's next turn while the seat is IDLE. -/
  | seatNextTurn (id : Nat)
  /-- SEAT_AREAS (R550): Command that checks and sets the fault area, flash event queue and manifest area, in force from the next turn boundary. -/
  | seatAreas (id : Nat)
  /-- SEAT_EXCLUDE (R494): Command that checks and installs an exclusion record for one turn. -/
  | seatExclude (id : Nat)
  /-- SEAT_TEARDOWN (R613): Command that stops, disarms and drains a seat, advances its epoch and clears its state. -/
  | seatTeardown (id : Nat)
  /-- SEAT_NI_CLEAR (R399): Command that clears a range of NI counters unless an armed trigger watches one of them. -/
  | seatNiClear (id : Nat)
  /-- PORT_ALLOT (R499): Management command that sets a host port's allotment, refusing changes that remove resources held by a seat. -/
  | portAllot (id : Nat)
  /-- MEM_WINDOW_SET (R362): Command that checks and writes one entry of the window table. -/
  | memWindowSet (id : Nat)
  /-- MEM_WINDOW_GET (R550): Command that returns one window entry, hiding the key of another seat's entry. -/
  | memWindowGet (id : Nat)
  /-- MEM_LAYER_WINDOW (R276): Command that checks and sets the seat's layer window record. -/
  | memLayerWindow (id : Nat)
  /-- MEM_HBM_MODE (R252): Command that sets a stack to scheduled or demand mode, refused while a kernel with quota on it runs. -/
  | memHbmMode (id : Nat)
  /-- KERNEL_LAUNCH (R547): Command that queues a kernel launch with its LAYER_END and TURN_END flags and completes when the kernel completes. -/
  | kernelLaunch (id : Nat)
  /-- PROGRAM_LOAD (R549): Command that checks a program image's header and tables and loads it while the seat is IDLE. -/
  | programLoad (id : Nat)
  /-- KERNEL_ABORT (R550): Command that stops every context of the seat, aborts the queued launches of the turn and fails the turn. -/
  | kernelAbort (id : Nat)
  /-- TURN_HALT (R550): Command that halts the seat at its next turn boundary. -/
  | turnHalt (id : Nat)
  /-- TURN_RESUME (R635): Command that returns a halted seat to RUNNING or IDLE, refused while HALT_N is asserted or a tile is unbacked. -/
  | turnResume (id : Nat)
  /-- SPACE_SET (R206): Command that checks and installs a space record, refused while a ROUTE of the space is in flight. -/
  | spaceSet (id : Nat)
  /-- PLACEMENT_SWAP (R211): Command that names spaces, a turn and digests for a placement swap and completes when the swap takes effect or is rejected. -/
  | placementSwap (id : Nat)
  /-- FAB_NODE (R341): Management command that sets the package's node number while every port is DISABLED. -/
  | fabNode (id : Nat)
  /-- FAB_ROUTES (R345): Management command that writes group or member route-table entries of a port or NI. -/
  | fabRoutes (id : Nat)
  /-- FAB_PORT (R334): Management command that disables, enables, releases from quarantine or sets the transmit polarity of a port. -/
  | fabPort (id : Nat)
  /-- FAB_PARAMS (R550): Management command that sets a hub's class weights, DIVERT, GAP, TC2 limit and resend time. -/
  | fabParams (id : Nat)
  /-- FAB_STATUS (R550): Command that returns each port's state, flaps and partner. -/
  | fabStatus (id : Nat)
  /-- GROUP_SET (R408): Command that checks and defines a collective group and returns its membership digest. -/
  | groupSet (id : Nat)
  /-- GROUP_SEQ (R493): Command that sets a group's last sequence number while no call is in progress. -/
  | groupSeq (id : Nat)
  /-- GROUP_DELETE (R550): Command that deletes a group while no call is in progress. -/
  | groupDelete (id : Nat)
  /-- NS_CREATE (R289): Command that creates a namespace of a number of extents, refused when extents are lacking. -/
  | nsCreate (id : Nat)
  /-- NS_DELETE (R292): Command that deletes an unattached namespace and unmaps its logical stripes. -/
  | nsDelete (id : Nat)
  /-- NS_ATTACH (R290): Command that attaches a namespace to a seat read-only or read-write. -/
  | nsAttach (id : Nat)
  /-- NS_DETACH (R550): Command that detaches the seat's namespace when no fill is outstanding. -/
  | nsDetach (id : Nat)
  /-- NS_WRITE (R292): Command that writes namespace stripes from the seat's HBM and completes when they are durable. -/
  | nsWrite (id : Nat)
  /-- NS_TRIM (R291): Command that unmaps a namespace range so that it reads as zeros. -/
  | nsTrim (id : Nat)
  /-- NS_LIST (R550): Command that lists namespaces with owner, extents and attached seats. -/
  | nsList (id : Nat)
  /-- FLASH_REBUILD (R318): Management command that scans every stripe, rebuilds the map and writes a new bank. -/
  | flashRebuild (id : Nat)
  /-- FLASH_HEALTH (R550): Command that returns wear, grown bad blocks, quarantine and reserve of the flash tier. -/
  | flashHealth (id : Nat)
  /-- ACCT_SNAPSHOT (R528): Command that returns the seat's accounting record as one snapshot. -/
  | acctSnapshot (id : Nat)
  /-- PMC_SELECT (R605): Command that sets snapshot area, permission, window, peak reset, selects and timed-snapshot time, all or none. -/
  | pmcSelect (id : Nat)
  /-- PMC_SNAPSHOT (R602): Command that takes or returns a seat or device counter snapshot at a beat start. -/
  | pmcSnapshot (id : Nat)
  /-- LOG_READ (R559): Command that returns log records from a given SEQ onward. -/
  | logRead (id : Nat)
  /-- LOG_CLEAR (R563): Management command that removes log records up to a given one and may release FAULT_N. -/
  | logClear (id : Nat)
  /-- TILE_FENCE (R565): Management command that fences a physical tile at once for remap at the turn boundary. -/
  | tileFence (id : Nat)
  /-- TILE_RETURN (R570): Management command that self-tests a fenced tile and returns it as a spare at a turn boundary. -/
  | tileReturn (id : Nat)
  /-- MONITORS (R572): Command that returns every monitor reading, threshold and state. -/
  | monitors (id : Nat)
  /-- THRESHOLDS (R573): Management command that sets warning and critical thresholds, all records or none. -/
  | thresholds (id : Nat)
  /-- POWER_CAP (R636): Management command that sets the commanded power cap. -/
  | powerCap (id : Nat)
  /-- SHUTDOWN (R550): Management command that destroys every seat, writes a flash bank and disables every port. -/
  | shutdown (id : Nat)
  /-- FW_QUERY (R550): Command that returns slot selection, versions and levels of both firmware slots. -/
  | fwQuery (id : Nat)
  /-- FW_WRITE (R577): Management command that writes image bytes into the inactive firmware slot. -/
  | fwWrite (id : Nat)
  /-- FW_ACTIVATE (R578): Management command that verifies a slot's image and selects it for the next reset. -/
  | fwActivate (id : Nat)
  /-- SEC_ADMIT (R551): Management command that admits the module or withdraws admission. -/
  | secAdmit (id : Nat)
  /-- SEC_MGMT_ACL (R555): Management command over I2C that sets the allowed PCIe requester IDs and fabric source filter. -/
  | secMgmtAcl (id : Nat)
  /-- SEC_UNLOCK_CHALLENGE (R584): Management command that returns a fresh nonce and the serial for a debug unlock. -/
  | secUnlockChallenge (id : Nat)
  /-- SEC_UNLOCK (R585): Management command that checks a signed unlock and, if valid, destroys seats, zeroes memory, withdraws admission and opens debug. -/
  | secUnlock (id : Nat)
  /-- COMMAND_ACCEPT (R532): The device accepts a taken command once a completion entry can be reserved and ordering allows it. -/
  | commandAccept (fn ring : Nat)
  /-- IRQ_TIME_THRESHOLD (R541): The ring's time threshold expires on an unsignalled IRQ completion and the ring's vector is raised. -/
  | irqTimeThreshold (fn ring : Nat)
  /-- DB_SQ_TAIL (R666): Doorbell write that hands submission slots to the device, or puts the ring in ERROR for a bad tail. -/
  | dbSqTail (fn ring : Nat) (value : W64)
  /-- DB_CQ_HEAD (R666): Doorbell write that reports read completion entries, or puts the ring in ERROR for a bad head. -/
  | dbCqHead (fn ring : Nat) (value : W64)
  /-- RING_ENABLE (R664): RQ_CTL ENABLE write that checks the ring configuration and enables the ring pair. -/
  | ringEnable (fn ring : Nat) (value : W64)
  /-- RING_RESET (R665): RQ_CTL RESET write, or ENABLE cleared, that puts the ring pair in RESETTING. -/
  | ringReset (fn ring : Nat) (value : W64)
  /-- RING_RESET_DONE (R665): The last running command of a resetting ring pair ends and the ring pair becomes DISABLED. -/
  | ringResetDone (fn ring : Nat)
  /-- ACCT_LATCH (R669): Register write that takes an accounting snapshot into the counter page. -/
  | acctLatch (fn : Nat) (value : W64)
  /-- EVT_STATUS_CLEAR (R662): W1C write that clears handled event bits of EVT_STATUS. -/
  | evtStatusClear (fn : Nat) (value : W64)
  /-- EVT_ENABLE_WRITE (R662): Write to EVT_ENABLE that raises the event vector once for each newly enabled set bit. -/
  | evtEnableWrite (fn : Nat) (value : W64)
  /-- BAR2_APERTURE_WRITE (R671): Write that sets the base of the BAR2 HBM aperture for later requests. -/
  | bar2ApertureWrite (fn : Nat) (value : W64)
  /-- PMC_SEL_WRITE (R599): Write to a counter select, refused with SEL_DENIED for a missing or forbidden event or instance. -/
  | pmcSelWrite (fn index : Nat) (value : W64)
  /-- PMC_CLEAR (R598): PMC_CTL CLEAR write that zeroes all 16 programmable counters at the next beat. -/
  | pmcClear (fn : Nat) (value : W64)
  /-- PMC_FREEZE (R598): PMC_CTL FREEZE write that stops or restarts the 16 programmable counters. -/
  | pmcFreeze (fn : Nat) (value : W64)
  /-- PMC_WRITE_APPLY (R600): At the next beat start, pending counter clears, value writes, freezes and selects take effect in order. -/
  | pmcWriteApply
  /-- REGISTER_WRITE (R658): Write to a BAR0 register without its own row, with the access-size and access-code rules. -/
  | registerWrite (fn offset size : Nat) (value : W64)
  /-- BAR2_READ (R673): Host read through BAR2 of the seat's HBM or stores, refused outside them. -/
  | bar2Read (fn offset len : Nat)
  /-- BAR2_WRITE (R673): Host write through BAR2 applied per line through the line cache, refused outside the seat's ranges. -/
  | bar2Write (fn offset : Nat) (data : Bytes)
  /-- BAR2_ATOMICOP (R394): A PCIe AtomicOp to BAR2 completes with Unsupported Request. -/
  | bar2Atomicop (fn offset : Nat)
  /-- MSIX_UNMASK (R670): Unmasking a vector with its pending bit set sends it once. -/
  | msixUnmask (fn vector : Nat)
  /-- PCIE_CONFIG_REQUEST (R610): A configuration request answered with retry status until the Referee configures the controller. -/
  | pcieConfigRequest (port : Nat)
  /-- FUNCTION_LEVEL_RESET (R500): A Function Level Reset destroys the function's seat and drops its rings' commands. -/
  | functionLevelReset (fn : Nat)
  /-- PCIE_LINK_DOWN (R500): Loss, hot reset or PERST_N of a host link destroys every seat of the port. -/
  | pcieLinkDown (port : Nat)
  /-- PERST_N (R645): A host port's PERST_N changes, holding or releasing its controller. -/
  | perstN (port : Nat) (level : Bool)
  /-- MCTP_SET_ENDPOINT_ID (R553): MCTP control message that assigns the module's endpoint ID. -/
  | mctpSetEndpointId (source eid : Nat)
  /-- MCTP_GET_ENDPOINT_ID (R553): MCTP control message that returns the endpoint ID. -/
  | mctpGetEndpointId (source : Nat)
  /-- GET_MCTP_VERSION_SUPPORT (R553): MCTP control message that returns supported MCTP versions. -/
  | getMctpVersionSupport (source msgType : Nat)
  /-- GET_MESSAGE_TYPE_SUPPORT (R553): MCTP control message that returns supported message types. -/
  | getMessageTypeSupport (source : Nat)
  /-- GET_VENDOR_DEFINED_MESSAGE_SUPPORT (R553): MCTP control message that returns vendor-defined message support. -/
  | getVendorDefinedMessageSupport (source selector : Nat)
  /-- MCTP_VENDOR_COMMAND (R554): An MCTP type 0x7E command message carrying a command packet, admitted by ACL and answered with a reply. -/
  | mctpVendorCommand (via : Mgmt) (message : Bytes)
  /-- SPDM_GET_VERSION (R581): SPDM request returning supported versions. -/
  | spdmGetVersion (source : Nat)
  /-- SPDM_GET_CAPABILITIES (R581): SPDM request returning responder capabilities. -/
  | spdmGetCapabilities (source version : Nat)
  /-- SPDM_NEGOTIATE_ALGORITHMS (R581): SPDM request negotiating P-384 and SHA-384. -/
  | spdmNegotiateAlgorithms (source : Nat) (asym hash : W32)
  /-- SPDM_GET_DIGESTS (R581): SPDM request returning certificate chain digests. -/
  | spdmGetDigests (source : Nat)
  /-- SPDM_GET_CERTIFICATE (R581): SPDM request returning the slot 0 certificate chain. -/
  | spdmGetCertificate (source slot offset len : Nat)
  /-- SPDM_CHALLENGE (R581): SPDM request answered with a signature by the device key. -/
  | spdmChallenge (source slot : Nat) (nonce : Bytes)
  /-- SPDM_GET_MEASUREMENTS (R582): SPDM request returning signed measurements of ROM, firmware, configuration and debug state. -/
  | spdmGetMeasurements (source index : Nat) (nonce : Bytes)
  /-- MODULE_RESET (R634): RST_N or PWR_OK goes low and the module enters RESET, ending every seat. -/
  | moduleReset (rstN pwrOk : Bool)
  /-- RESET_RELEASE (R607): RST_N and PWR_OK are both high (t0) and the boot ROM starts sequencing the regulators. -/
  | resetRelease
  /-- BOOT (R579): The boot ROM verifies the selected firmware slot, falls back to the other or enters FAILSAFE. -/
  | boot (addrSel : Nat)
  /-- REFEREE_START (R607): The Referee runs from a verified slot, enters INIT and brings the package up. -/
  | refereeStart
  /-- HBM_TRAINING (R607): Training, pattern test and zeroing of the HBM stacks complete, withdrawing any stack that fails. -/
  | hbmTraining (failed : List Nat)
  /-- STARTUP_SELF_TEST (R607): Every tile and cluster is self-tested and the tile map built. -/
  | startupSelfTest (failedTiles failedClusters : List Nat)
  /-- DAWN_SEQUENCE (R481): PLLs lock, islands release on the dawn beat, crossings calibrate, frames and arbiters start and lockstep begins. -/
  | dawnSequence (edges : List (Nat × Nat))
  /-- FLASH_MAP_LOAD (R317): ONFI channels train, a flash bank is selected and the journal replayed, or the tier is found unavailable. -/
  | flashMapLoad (fallback goodBanks : List Nat) (goodRecords : Nat)
  /-- REFEREE_PORT_ENABLE (R331): The Referee enables every port once it holds a node number and route tables. -/
  | refereePortEnable
  /-- READY (R609): The module becomes READY once all start conditions hold, sends READY records and raises event vectors. -/
  | ready
  /-- HALT_N_ASSERT (R635): HALT_N is asserted and every seat's halt latch is set. -/
  | haltNAssert
  /-- HALT_N_DEASSERT (R635): HALT_N is released and seats halted by it resume with their latches cleared. -/
  | haltNDeassert
  /-- THROTTLE_N (R636): THROTTLE_N is asserted and pins the cap at the floor from the next hold-ratio update. -/
  | throttleN
  /-- PPS_IN_EDGE (R646): A filtered PPS_IN rising edge is accepted or rejected and updates PPS validity. -/
  | ppsInEdge
  /-- PPS_TIMEOUT (R646): 1.2 s pass without an accepted PPS_IN edge and PPS_IN becomes invalid. -/
  | ppsTimeout
  /-- REFCLK_LOSS (R644): REFCLK is lost or out of tolerance, PLLs enter holdover and lockstep ends. -/
  | refclkLoss
  /-- REFCLK_RETURN (R644): REFCLK returns within tolerance, the PLLs relock and a realignment follows. -/
  | refclkReturn
  /-- INPUT_UNDERVOLTAGE (R641): The 48 V input falls below 38 V for over 50 µs and the module enters RESET. -/
  | inputUndervoltage (millivolts : Nat)
  /-- JTAG_RESET_HOLD (R656): EXTEST, CLAMP or HIGHZ comes into force and holds the module in RESET. -/
  | jtagResetHold
  /-- JTAG_RESET_RELEASE (R656): The chain leaves EXTEST, CLAMP and HIGHZ and the module leaves RESET with a new t0. -/
  | jtagResetRelease
  /-- I2C_STALL_RELEASE (R639): A transfer stalled by the controller for 35 ms makes the module release SDA and SCL. -/
  | i2cStallRelease
  /-- POWER_SAMPLE (R489): Every 10 µs the power controller measures input power and applies the peak protection step when needed. -/
  | powerSample (avg10ms : Nat)
  /-- HOLD_RATIO_UPDATE (R489): Every millisecond the power controller sets the hold ratio from the 1 s average and the cap. -/
  | holdRatioUpdate (avg1s ratio : Nat)
  /-- CLOCK_STEP_UNDO (R490): After 10 ms below the undo condition the protection clock step is undone on a beat boundary. -/
  | clockStepUndo
  /-- SUPPLY_DROOP (R485): A supply droop stretches an island's clock and ends lockstep. -/
  | supplyDroop (island cycles : Nat)
  /-- PLL_LOCK_LOSS (R485): A PLL loses lock and lockstep ends. -/
  | pllLockLoss (pll : Nat)
  /-- CROSSING_MARGIN_CHECK (R483): Every millisecond the Referee checks crossing margins and schedules a realignment where one is low. -/
  | crossingMarginCheck (low : List Nat)
  /-- CROSSING_ERROR (R482): A word not settled at its taking edge fences the units on both sides. -/
  | crossingError (crossing : Nat)
  /-- REALIGNMENT (R486): With every running seat held at a boundary, the package repeats the Dawn alignment and resumes the seats together. -/
  | realignment (edges : List (Nat × Nat))
  /-- MONITOR_READ (R574): Every millisecond each monitor is read and crossing a bound changes state, hold ratio, clocks, fences or trips. -/
  | monitorRead (samples : List Sample)
  /-- ENERGY_ATTRIBUTION (R526): Every millisecond the Referee attributes dynamic and static energy to seats. -/
  | energyAttribution (inputEnergy staticEnergy deviceActivity : Nat) (activity : List (Nat × Nat))
  /-- ISSUE_STEP (R80): Each tc the issue stage checks and issues one step from the chosen READY context, or idles. -/
  | issueStep (tile : Nat)
  /-- MATMUL (R136): Descriptor that runs matrix passes over output blocks in ascending order. -/
  | matmul (tile ctx : Nat)
  /-- GMM (R141): Descriptor that walks a group table, fetching operands and running a pass per token and column block. -/
  | gmm (tile ctx : Nat)
  /-- VEC (R146): Descriptor that applies a vector operation to rows of elements. -/
  | vec (tile ctx : Nat)
  /-- REDUCE (R149): Descriptor that sums or reduces one operand per member tile in ascending tile order, optionally handing the result to a group. -/
  | reduce (tile ctx : Nat)
  /-- COPY (R153): Descriptor that moves data as one remote access of contiguous, strided, gather or scatter transfers. -/
  | copy (tile ctx : Nat)
  /-- STREAM (R157): Descriptor that hands a flash-to-HBM fill request to the hub. -/
  | stream (tile ctx : Nat)
  /-- SYNC_SIGNAL (R130): SYNC SIGNAL that adds VALUE to a counter. -/
  | syncSignal (tile ctx : Nat)
  /-- SYNC_WAIT (R131): SYNC WAIT that parks the context until a local counter reaches VALUE. -/
  | syncWait (tile ctx : Nat)
  /-- SYNC_SET (R132): SYNC SET that writes VALUE into a counter. -/
  | syncSet (tile ctx : Nat)
  /-- BARRIER (R160): Descriptor that sends an arrival to the barrier's home cluster and waits. -/
  | barrier (tile ctx : Nat)
  /-- ROUTE (R163): Descriptor that hands a routing request to a Druind engine of the seat's share. -/
  | route (tile ctx : Nat)
  /-- NITRIG (R165): Descriptor that installs a triggered operation in the seat's trigger table. -/
  | nitrig (tile ctx : Nat)
  /-- DESCRIPTOR_FETCH_LAND (R117): A fetched descriptor or block of four enters the context's descriptor buffer. -/
  | descriptorFetchLand (tile ctx : Nat)
  /-- REMOTE_ACCESS_COMPLETE (R110): A remote access lands its last byte or is accepted and its context becomes READY. -/
  | remoteAccessComplete (tile ctx : Nat)
  /-- REMOTE_ACCESS_TIMEOUT (R114): A remote access gets no completion within its bound and its context goes to FAULTED with TIMEOUT. -/
  | remoteAccessTimeout (tile ctx : Nat)
  /-- DESCRIPTOR_COMPLETE (R78): A descriptor writes its last result and completes, freeing its context for the next descriptor. -/
  | descriptorComplete (tile ctx : Nat)
  /-- SIGNAL_APPLY (R131): A counter signal or SET reaches its counter and is applied in SET-then-add order. -/
  | signalApply (index : Nat)
  /-- SYNC_WAIT_LIMIT (R158): A WAIT's LIMIT passes and the SYNC ends with TIMEOUT. -/
  | syncWaitLimit (tile ctx : Nat)
  /-- BARRIER_ARRIVAL (R160): A barrier arrival reaches its home, is counted and releases the generation when the count is met. -/
  | barrierArrival (index : Nat)
  /-- BARRIER_RELEASE (R160): The release reaches each counted context, which becomes READY. -/
  | barrierRelease (index : Nat)
  /-- BARRIER_LIMIT (R159): A BARRIER's LIMIT passes and the waiting context ends with TIMEOUT. -/
  | barrierLimit (tile ctx : Nat)
  /-- STEAL_REQUEST (R191): A thief's steal requests reaching a tile's queue are granted in arbiter order. -/
  | stealRequest (tile : Nat)
  /-- STOLEN_SLOT_ARRIVAL (R193): A thief's segment sums land in the owner's slot and the owner merges slots in ascending order. -/
  | stolenSlotArrival (index : Nat)
  /-- TILE_FENCED (R565): A tile is fenced on an uncorrectable error, correction threshold or self-test failure and its contexts stop. -/
  | tileFenced (ptile : Nat) (cause : FenceCause)
  /-- CLUSTER_FENCED (R566): A physical cluster is fenced with its tiles and its logical cluster is displaced. -/
  | clusterFenced (pcluster : Nat) (cause : FenceCause)
  /-- REGION_WITHDRAWN (R568): A router or Druind failure withdraws its region, clusters and stacks. -/
  | regionWithdrawn (region : Nat)
  /-- STACK_WITHDRAWN (R568): An HBM controller or stack failure withdraws the stack and halts seats with quota in its region. -/
  | stackWithdrawn (stack : Nat)
  /-- PACKAGE_FAILED (R568): A die-to-die link or hub die failure destroys every seat and disables every port. -/
  | packageFailed (unit : PackageUnit)
  /-- SELFTEST_START (R569): Ten minutes after a qualifying fence the Referee starts the tile's self-test. -/
  | selftestStart (ptile : Nat)
  /-- SELFTEST_END (R570): A self-test ends; a passing tile is set to return as a spare, a failing one stays fenced. -/
  | selftestEnd (ptile : Nat) (failed : Option TestPart)
  /-- KERNEL_BIND (R511): A queued kernel binds its streams to contexts, which enter FETCHING. -/
  | kernelBind (seat : Nat)
  /-- KERNEL_COMPLETE (R510): Every context of a kernel is FREE or FAULTED, its completion is written and later launches may be discarded. -/
  | kernelComplete (seat : Nat)
  /-- TURN_BOUNDARY (R33): The seat's turn counter advances and the boundary changes apply in order before the next turn. -/
  | turnBoundary (seat : Nat)
  /-- QUANTUM_EXPIRY (R514): A SHARED seat's quantum passes while a seat of equal priority waits and it is marked for pre-emption. -/
  | quantumExpiry (seat : Nat)
  /-- SAVE_COMPLETE (R515): A seat's save completes, it becomes PREEMPTED and the waiting seat's restore begins. -/
  | saveComplete (seat : Nat)
  /-- RESTORE_COMPLETE (R515): A seat's restore completes, held actions and signals are applied and it becomes RUNNING. -/
  | restoreComplete (seat : Nat)
  /-- ROUTE_ACCEPT (R201): A lead engine with a free working slot accepts a ROUTE and divides its tokens among the share. -/
  | routeAccept (route : Nat)
  /-- GRANT_COUNT (R221): A count message of a grant round arrives at a home and is checked for digests. -/
  | grantCount (index : Nat)
  /-- GRANT_REPLY (R224): A grant message arrives and the source grants its lowest tokens and applies the policy to refusals. -/
  | grantReply (index : Nat)
  /-- GRANT_HORIZON (R229): A round's GRANT_HORIZON passes and missing members or homes are treated as empty and marked SHORT. -/
  | grantHorizon (route : Nat)
  /-- ROUTE_TABLES_WRITTEN (R241): After the last round the lead writes choice list, counters, runs, dispatch and group tables and signals. -/
  | routeTablesWritten (route : Nat)
  /-- DRUIND_ENGINE_FAILURE (R242): A Druind engine of the share fails, ending ROUTEs with ROUTE_ABORTED. -/
  | druindEngineFailure (region : Nat)
  /-- TRIGGER_FIRE (R401): An armed trigger entry whose counter meets its threshold fires and starts its action in slot order. -/
  | triggerFire (seat hub slot : Nat)
  /-- ACTION_END (R402): An action ends, its result record is written and NEXT is signalled. -/
  | actionEnd (action : Nat)
  /-- ACTION_SIGNAL (R404): SIGNAL action that adds VALUE to a tile, cluster or NI counter. -/
  | actionSignal (action : Nat)
  /-- ACTION_READ (R370): Memory action that issues a READ to a global address. -/
  | actionRead (action : Nat)
  /-- ACTION_WRITE (R370): Memory action that issues a WRITE to a global address. -/
  | actionWrite (action : Nat)
  /-- ACTION_ATOMIC (R370): Memory action that issues an atomic operation. -/
  | actionAtomic (action : Nat)
  /-- ACTION_TXN (R386): Memory action that issues a transaction group from its record. -/
  | actionTxn (action : Nat)
  /-- ACTION_BROADCAST (R427): Collective action that broadcasts bytes from the root down the Overcast tree. -/
  | actionBroadcast (action : Nat)
  /-- ACTION_ALL_GATHER (R428): Collective action in which each member broadcasts its block to all. -/
  | actionAllGather (action : Nat)
  /-- ACTION_SHIFT (R429): Collective action that sends bytes to member r plus d. -/
  | actionShift (action : Nat)
  /-- ACTION_PERMUTE (R429): Collective action that exchanges messages per a permutation table. -/
  | actionPermute (action : Nat)
  /-- ACTION_BARRIER (R430): Collective action consisting of the agreement round alone. -/
  | actionBarrier (action : Nat)
  /-- EXCHANGE (R450): Action that checks the route output and sends token rows to their homes as a permutation. -/
  | exchange (action : Nat)
  /-- RETURN (R460): Action that sends results of one part back to sources after the exchange ends. -/
  | returnAction (action : Nat)
  /-- CALL_BEGIN (R417): A member's collective call begins and a leaf sends its OPEN. -/
  | callBegin (group : Nat)
  /-- OPEN_RECORD (R417): A child's OPEN arrives; when all children are in, the member sends its OPEN or the root forms the FINAL. -/
  | openRecord (index : Nat)
  /-- AGREEMENT_DEADLINE (R417): A member's horizon plus slack passes and missing children are made absent. -/
  | agreementDeadline (group : Nat)
  /-- FINAL_RECORD (R418): A FINAL arrives, is forwarded, and starts the data phase or ends the call. -/
  | finalRecord (index : Nat)
  /-- COLL_DATA (R420): A partial, result or broadcast chunk arrives and is checked, added or written. -/
  | collData (index : Nat)
  /-- CLOSE_RECORD (R426): A child's CLOSE arrives and is merged toward rank 0. -/
  | closeRecord (index : Nat)
  /-- FINAL_CLOSE_RECORD (R426): A FINAL_CLOSE arrives, is forwarded and ends the member's call. -/
  | finalCloseRecord (index : Nat)
  /-- STALL_EXPIRY (R425): A member waits STALL µs without progress and sends MEMBER_LOST. -/
  | stallExpiry (group : Nat)
  /-- ABSENT_RESULT_TIMEOUT (R423): An absent member gets no FINAL or result within STALL and ends with TIMEOUT. -/
  | absentResultTimeout (group : Nat)
  /-- PERM_DATA (R453): An exchange or return packet is matched to its action and its rows written. -/
  | permData (index : Nat)
  /-- EXCHANGE_HORIZON (R455): An action's horizon passes and incomplete messages are abandoned and zeroed. -/
  | exchangeHorizon (action : Nat)
  /-- RETURN_PART_END (R462): A RETURN's part completes; after the last part, the combine is handed to vector engines. -/
  | returnPartEnd (action : Nat)
  /-- COMBINE_END (R464): Every token is combined and written, and the last RETURN writes its record and signals NEXT. -/
  | combineEnd (action : Nat)
  /-- FLIT_RECEIVE (R325): A flit arrives; bad or out-of-order flits are discarded with REPLAY, good ones accepted and packets forwarded when whole. -/
  | flitReceive (port : Nat) (flit : Flit)
  /-- FLIT_SEND (R349): A port sends its next flit by class priority and credits. -/
  | flitSend (port : Nat)
  /-- CREDIT (R327): A CREDIT record returns credits for a stream. -/
  | credit (port : Nat)
  /-- REPLAY (R325): A REPLAY record makes the sender resend from the named LSEQ. -/
  | replay (port : Nat)
  /-- REPLAY_REPEAT (R325): Every 4 µs a receiver awaiting a flit repeats its REPLAY record. -/
  | replayRepeat (port : Nat)
  /-- ACK_STALL_RESEND (R325): A sender without ACK progress for 4 µs resends from its oldest unacknowledged flit. -/
  | ackStallResend (port : Nat)
  /-- LINK_INFO (R333): A LINK_INFO record in HANDSHAKE is checked for loopback and level and brings the port UP. -/
  | linkInfo (port : Nat)
  /-- HANDSHAKE_RETRY (R333): A port stuck in HANDSHAKE repeats the handshake every second. -/
  | handshakeRetry (port : Nat)
  /-- NOT_READY (R356): A NOT_READY record makes the port hold TC1 to TC3 routes with doubled backoff. -/
  | notReady (port : Nat)
  /-- READY_RECORD (R356): A READY record lifts the port hold and resets the backoff. -/
  | readyRecord (port : Nat)
  /-- BACKOFF_END (R356): A NOT_READY backoff time ends and the hold is lifted. -/
  | backoffEnd (port : Nat)
  /-- PORT_TRAINING_DONE (R330): Training, FEC lock and deskew complete and the port enters HANDSHAKE. -/
  | portTrainingDone (port : Nat)
  /-- PORT_LOSS (R332): A port leaves UP on signal, lock or codeword loss or resend limit, counting a flap and rerouting. -/
  | portLoss (port : Nat) (cause : LossCause)
  /-- QUARANTINE_HOLD_EXPIRY (R334): The quarantine hold time ends and the port trains for its soak. -/
  | quarantineHoldExpiry (port : Nat)
  /-- SOAK_END (R334): The 1 s soak ends and the port carries traffic or returns to quarantine. -/
  | soakEnd (port : Nat) (passed : Bool)
  /-- GAP_EXPIRY (R376): A non-reliable stream holds an early packet for GAP µs and skips the missing SEQs. -/
  | gapExpiry (stream : Nat)
  /-- READ (R364): A READ packet is window-checked and the bytes returned in READ_DATA. -/
  | read (index : Nat)
  /-- READ_DATA (R369): Read data lands at the source and completes the read. -/
  | readData (index : Nat)
  /-- WRITE (R372): A WRITE packet is window-checked and applied line by line at the home. -/
  | write (index : Nat)
  /-- WRITE_ACK (R373): A WRITE_ACK arrives and completes the acknowledged writes. -/
  | writeAck (index : Nat)
  /-- WRITE_ACK_TIMER (R373): 1 µs after an applied WRITE the home sends a WRITE_ACK. -/
  | writeAckTimer (stream : Nat)
  /-- ATOMIC (R368): An ATOMIC packet is window-checked and queued or combined at its line. -/
  | atomic (index : Nat)
  /-- ATOMIC_DATA (R370): An atomic response arrives and its result record is written. -/
  | atomicData (index : Nat)
  /-- TXN_PART (R385): A transaction part arrives and is held until all parts have come. -/
  | txnPart (index : Nat)
  /-- TXN_DONE (R385): A transaction group's completion arrives at its source. -/
  | txnDone (index : Nat)
  /-- STATUS (R366): A STATUS packet reports a refused request to its source. -/
  | status (index : Nat)
  /-- LINE_APPLY (R378): A home applies the next waiting line operation of a line. -/
  | lineApply (index : Nat)
  /-- TC2_TIMEOUT (R377): A TC2 operation gets no response within the limit and ends with TIMEOUT. -/
  | tc2Timeout (request : Nat)
  /-- E2E_ACK (R438): An end-to-end acknowledgement frees acknowledged reliable packets. -/
  | e2eAck (index : Nat)
  /-- E2E_ACK_TIMER (R438): 2 µs after applying a reliable packet the destination sends an E2E_ACK. -/
  | e2eAckTimer (stream : Nat)
  /-- E2E_RESEND (R439): A reliable stream without acknowledgement progress for the resend time is resent, and given up after 16 runs. -/
  | e2eResend (stream : Nat)
  /-- MGMT (R556): A fabric MGMT packet carrying a command is admitted by filter and answered. -/
  | mgmt (index : Nat)
  /-- ANNOUNCE (R622): A TIME ANNOUNCE arrives and may change the parent port. -/
  | announce (index : Nat)
  /-- TIME_SYNC (R622): A TIME SYNC arrives and its receive stamp is kept. -/
  | timeSync (index : Nat)
  /-- FOLLOW_UP (R623): A FOLLOW_UP arrives and the servo updates the time offset. -/
  | followUp (index : Nat)
  /-- PDELAY_REQ (R622): A peer-delay request arrives and is answered. -/
  | pdelayReq (index : Nat)
  /-- PDELAY_RESP (R622): A peer-delay response arrives. -/
  | pdelayResp (index : Nat)
  /-- PDELAY_FOLLOW_UP (R622): A peer-delay follow-up arrives and the link delay is computed. -/
  | pdelayFollowUp (index : Nat)
  /-- PTP_FRAME (R620): An IEEE 1588 frame arrives on the management lane for the slave clock. -/
  | ptpFrame (frame : Bytes) (masterTime : Nat)
  /-- ANNOUNCE_SEND (R622): Once per second each UP port sends ANNOUNCE and a peer-delay request. -/
  | announceSend (port : Nat)
  /-- SYNC_SEND (R622): Sixteen times per second SYNC and FOLLOW_UP are sent on downstream ports. -/
  | syncSend (port : Nat)
  /-- PARENT_ANNOUNCE_TIMEOUT (R623): No ANNOUNCE on the parent port for 3 s and the module chooses again. -/
  | parentAnnounceTimeout
  /-- HOLDOVER_EXPIRY (R623): 600 s of holdover pass and the module stops holding time. -/
  | holdoverExpiry
  /-- HBM_FRAME (R253): A scheduled-mode frame begins with refresh, fill slot, data slots and guard. -/
  | hbmFrame (stack : Nat)
  /-- HBM_ACCESS (R256): An HBM access is served in its data slot with correction or poisoning. -/
  | hbmAccess (address len : Nat) (kind : AccessKind) (source : AccessSource) (outcome : EccOutcome)
  /-- HBM_SCRUB (R267): The scrubber reads and writes back corrected bursts over each 24 hours. -/
  | hbmScrub (stack : Nat) (outcome : EccOutcome)
  /-- SRAM_SCRUB (R267): Each region scrubs its cluster stores and Druind table store once an hour. -/
  | sramScrub (region : Nat) (errors : List (Nat × EccOutcome))
  /-- FILL_ACCEPT (R295): A STREAM is accepted by its hub once fill limits allow. -/
  | fillAccept (tile ctx : Nat)
  /-- FILL_STRIPE (R296): A fill's turn reads one logical stripe and writes its units to HBM. -/
  | fillStripe (hub : Nat) (failedUnits : List Nat)
  /-- UNIT_RECOVERY (R298): A unit's recovery step completes and the unit is recovered or passes to the next step. -/
  | unitRecovery (unit : Nat) (recovered : Recovery)
  /-- MIRROR_FETCH_DONE (R302): A mirror fetch completes and lands the unit or leaves it unrecovered. -/
  | mirrorFetchDone (unit : Nat)
  /-- MIRROR_FETCH_TIMEOUT (R302): A mirror fetch passes 100 ms and fails. -/
  | mirrorFetchTimeout (unit : Nat)
  /-- FILL_END (R297): Every unit of a fill is written and the hub makes its completion signal. -/
  | fillEnd (fill : Nat)
  /-- MIRROR_REPAIR_WRITE (R303): After a fill, mirrored units are written back and leave quarantine. -/
  | mirrorRepairWrite (repair : Nat)
  /-- BACKGROUND_WORK (R307): The translation layer runs garbage collection and relocation within its share of channel time. -/
  | backgroundWork (channel block : Nat)
  /-- READ_DISTURB_RELOCATE (R309): A block reaching its read count is relocated within 10 minutes. -/
  | readDisturbRelocate (channel block : Nat)
  /-- PATROL_READ (R310): Every programmed page is read once per 7 days and weak blocks moved. -/
  | patrolRead (channel block : Nat) (weak : Bool)
  /-- BLOCK_PROGRAM_FAIL (R311): A block failing program or erase is retired and its stripe rewritten. -/
  | blockProgramFail (channel block : Nat)
  /-- CHANNEL_FAILURE (R312): A whole channel or NAND package fails and its pages become erasures. -/
  | channelFailure (channel : Nat) (package : Option Nat)
  /-- BANK_WRITE (R316): A new flash bank is written when the journal passes 256 MiB or every 10 minutes. -/
  | bankWrite
  /-- TIMED_SNAPSHOT (R602): A timed snapshot is taken at the first beat at or after SNAP_TIME. -/
  | timedSnapshot (seat : Nat)
  /-- BANDWIDTH_WINDOW_END (R595): A bandwidth window ends and LAST and PEAK are updated. -/
  | bandwidthWindowEnd
  /-- DRAIN_END (R614): A seat's drain conditions hold and the teardown advances the epoch and clears, or destroy releases. -/
  | drainEnd (seat : Nat)
  /-- DRAIN_LIMIT (R614): A drain limit passes; outstanding work ends with TIMEOUT and the drain ends. -/
  | drainLimit (seat : Nat)
  /-- THROTTLE_N_RELEASE (R636): THROTTLE_N is deasserted, so that the commanded cap applies again from the first hold-ratio update after the release. -/
  | throttleNRelease
  /-- INPUT_POWER_RISE (R641): The 48 V input rises above 39 V, the auxiliary 3.3 V rail comes into regulation and the module goes from unpowered to RESET. -/
  | inputPowerRise
deriving DecidableEq, Repr

end Sys2Proof
end

