-- ==== Sys2Proof/Config.lean ====
section
/-!
DEFINITION. What one module fixes and what the spec leaves open: the free values, which have no body, so that a
claim holds whatever they are, and the constants of the module.
-/

namespace Sys2Proof.Config

/-- The binary32 result of function `op` (0x10 to 0x18) of the vector engine on an operand's bits. The bits
stand in the file CS-CONF-VFN (R95), which the spec does not include: a free value (log 1). -/
opaque vecFn : Nat → W32 → W32

/-- The word that SHL (0x23) or SHR (0x24) writes for a shift of 32 or more from SRC1: the spec states shifts by
IMM[4:0] only (R146). A free value (log 2). -/
opaque wideShift : Nat → W32 → W32 → W32

/-- Whether a signature verifies over a digest under an authority's key: 0 the firmware authority (R577), 1 the
Calnen debug key of the given identifier (R584). A free value (log 1). -/
opaque signatureValid : Nat → Nat → Bytes → Bytes → Bool

/-- The device key's signature over a transcript, fresh for each use (R581): a free value (log 1). -/
opaque deviceSignature : Nat → Bytes → Bytes

/-- The root certificate of the Calnen production authority (true) or sample authority (R9): a free value (log 1). -/
opaque rootCertificate : Bool → Bytes

/-- The certificates of slot 0 below the root (R581): a free value (log 1). -/
opaque deviceCertificates : Bytes

/-- The CRC-32C of a journal record by its number, and the length and CRC-32C of a flash bank's body by SEQ and JNEXT (R314,
R315): the bytes of records and bodies have no layout, so these are free values (log 1). -/
opaque journalCrc : W64 → W32
opaque bankLength : W32 → W64 → W64
opaque bankCrc : W32 → W64 → W32

/-- The part numbers of the dies with a test access port, in the order of the chain, and the manufacturer's JEP106 code: the
spec leaves them to the file CS-BSDL-RARAN (R654), free values (log 1). -/
opaque diePart : Nat → BitVec 16
opaque jepCode : BitVec 11

/-- A fresh 256-bit nonce (R584): a free value of the free counter (log 1). -/
opaque nonce : Nat → Bytes

/-- A fresh 64-bit value where the spec states no result (log 2). -/
opaque freeValue : Nat → W64

/-- Activity coefficients of R526, in nanojoules a count, calibrated for each module (log 1): per activity. -/
opaque activityCoef : Nat → Nat

/-- Replacement blocks of each flash channel at manufacture beyond the first (R311): the spec gives no number, a free value (log 1). -/
opaque moreReserveBlocks : Nat

/-- The version that Get MCTP Version Support reports for a message type (R553), which the spec does not give (log 1). -/
opaque mctpVersion : Nat → W32

/-- The command-set word of Get Vendor Defined Message Support (R553), which the spec does not give (log 1). -/
opaque vendorCommandSet : W16

/-- The boot ROM's contents, measured at index 1 (R582): a free value (log 1). -/
opaque bootRom : Bytes

/-- By how many ns the time servo steps the counter for an offset estimate (R619): the spec states none, a free value of the
free counter (log 22). -/
opaque servoStep : Nat → Int → Int

/-- The rate word in ppb that the servo sets for an offset estimate, before its limit (R619): a free value (log 22). -/
opaque servoRate : Nat → Int → Int

end Sys2Proof.Config
end

