-- ==== Sys2Proof/Machine/FMap.lean ====
section
/-!
DEFINITION. Finite maps from numbers as sorted lists of pairs, in one canonical form: keys strictly rising, and,
for a map that has a default value, no entry equal to it. Memory, counters and every sparse table use them.
-/

namespace Sys2Proof.FMap

variable {α : Type}

/-- The entry at a key, or none. -/
def find? : FMap α → Nat → Option α
  | [], _ => none
  | (k, v) :: t, i => if k = i then some v else find? t i

/-- The map with the entry at a key removed. -/
def erase : FMap α → Nat → FMap α
  | [], _ => []
  | (k, v) :: t, i => if k = i then erase t i else (k, v) :: erase t i

/-- The map with a value at a key, its place kept in rising order. -/
def insert : FMap α → Nat → α → FMap α
  | [], i, v => [(i, v)]
  | (k, w) :: t, i, v =>
    if i < k then (i, v) :: (k, w) :: t
    else if k = i then (i, v) :: t
    else (k, w) :: insert t i v

/-- The value at a key of a map whose unlisted keys read as d. -/
def get (d : α) (m : FMap α) (i : Nat) : α := (find? m i).getD d

/-- A write to a map whose unlisted keys read as d: writing d removes the entry. -/
def put [DecidableEq α] (d : α) (m : FMap α) (i : Nat) (v : α) : FMap α :=
  if v = d then erase m i else insert m i v

/-- The entry at a key changed where there is one. -/
def upd (m : FMap α) (i : Nat) (f : α → α) : FMap α :=
  m.map (fun kv => if kv.1 = i then (kv.1, f kv.2) else kv)

/-- Keys strictly rising, all of them above a bound. -/
def risingFrom : FMap α → Nat → Bool
  | [], _ => true
  | (k, _) :: t, b => decide (b ≤ k) && risingFrom t (k + 1)

/-- The canonical form of a map with a default value. -/
def wf [DecidableEq α] (d : α) (m : FMap α) : Bool :=
  risingFrom m 0 && m.all (fun p => decide (p.2 ≠ d))

end Sys2Proof.FMap
end

