-- ==== Sys2Proof/Machine/Numeric.lean ====
section
/-!
DEFINITION. Number formats, rounding, conversion, block scales and the exact arithmetic of chapter 02
(R46 to R69). A value is an exact dyadic number, an infinity or NaN; every unit of the device rounds with the
functions of this file.
-/

namespace Sys2Proof.Machine

/-- A decoded number: NaN, an infinity, or (-1)^neg × m × 2^e exactly; a zero keeps its sign (R48). -/
inductive Val where
  | nan
  | inf (neg : Bool)
  | num (neg : Bool) (m : Nat) (e : Int)
deriving DecidableEq, Repr

/-- How a result is narrowed (R55): to nearest even, toward zero, or stochastically with the draw of R58. -/
inductive Rounding where
  | rne
  | rtz
  | sr (draw : Nat)
deriving DecidableEq, Repr

/-- The events of R68 that an operation raises, counted. -/
structure FpEvents where
  invalid : Nat := 0
  overflow : Nat := 0
  nanNarrowed : Nat := 0
  mxNanBlock : Nat := 0
deriving DecidableEq, Repr

def FpEvents.add (a b : FpEvents) : FpEvents :=
  { invalid := a.invalid + b.invalid, overflow := a.overflow + b.overflow,
    nanNarrowed := a.nanNarrowed + b.nanNarrowed, mxNanBlock := a.mxNanBlock + b.mxNanBlock }

def FpEvents.none : FpEvents := {}
def FpEvents.oneInvalid : FpEvents := { invalid := 1 }
def FpEvents.oneOverflow : FpEvents := { overflow := 1 }
def FpEvents.oneNarrowed : FpEvents := { nanNarrowed := 1 }
def FpEvents.oneMxNan : FpEvents := { mxNanBlock := 1 }

/-- 2 to an integer power that is known not to be negative. -/
def pow2 (k : Int) : Nat := 2 ^ k.toNat

/-! ### The formats of R46 -/

/-- Bits of an element of a format code [3:0] (R46). -/
def fmtBits (code : Nat) : Nat :=
  match code % 16 with
  | 0 => 64 | 1 => 32 | 2 => 16 | 3 => 16 | 4 => 8 | 5 => 8 | 6 => 6 | 7 => 6 | 8 => 4 | 9 => 8 | 10 => 4
  | _ => 8

/-- Exponent bits of a floating-point format code. -/
def fmtExpBits (code : Nat) : Nat :=
  match code % 16 with
  | 0 => 11 | 1 => 8 | 2 => 5 | 3 => 8 | 4 => 4 | 5 => 5 | 6 => 3 | 7 => 2 | 8 => 2
  | _ => 0

/-- Mantissa bits of a floating-point format code. -/
def fmtManBits (code : Nat) : Nat :=
  match code % 16 with
  | 0 => 52 | 1 => 23 | 2 => 10 | 3 => 7 | 4 => 3 | 5 => 2 | 6 => 2 | 7 => 3 | 8 => 1
  | _ => 0

/-- Exponent bias of a floating-point format code (R46). -/
def fmtBias (code : Nat) : Nat :=
  match code % 16 with
  | 0 => 1023 | 1 => 127 | 2 => 15 | 3 => 127 | 4 => 7 | 5 => 15 | 6 => 3 | 7 => 1 | 8 => 1
  | _ => 0

/-- A defined format code of R46: elements 0x0 to 0xA, and MX only with 0x4 to 0x9 (R50). -/
def fmtValid (code : Nat) : Bool :=
  code < 32 && code % 16 ≤ 10 && (code < 16 || (4 ≤ code % 16 && code % 16 ≤ 9))

/-- The code names MX block scaling (bit [4], R46). -/
def fmtMx (code : Nat) : Bool := 16 ≤ code % 32

/-- INT8 or INT4. -/
def fmtInt (code : Nat) : Bool := code % 16 == 9 || code % 16 == 10

/-- The format has infinities (R46): the four IEEE formats and E5M2. -/
def fmtHasInf (code : Nat) : Bool := code % 16 ≤ 3 || code % 16 == 5

/-- The format has NaN (R46). -/
def fmtHasNan (code : Nat) : Bool := code % 16 ≤ 5

/-- Exponent of the smallest normal. -/
def fmtEmin (code : Nat) : Int := 1 - (fmtBias code : Int)

/-- The largest finite magnitude of a format, as bits without sign (R46). -/
def fmtMaxBits (code : Nat) : Nat :=
  match code % 16 with
  | 0 => 0x7FEFFFFFFFFFFFFF | 1 => 0x7F7FFFFF | 2 => 0x7BFF | 3 => 0x7F7F | 4 => 0x7E | 5 => 0x7B
  | 6 => 0x1F | 7 => 0x1F | 8 => 0x7 | 9 => 0x7F | 10 => 0x7
  | _ => 0

/-- The canonical NaN of a format that has NaN (R49). -/
def fmtNan (code : Nat) : Nat :=
  match code % 16 with
  | 0 => 0x7FF8000000000000 | 1 => 0x7FC00000 | 2 => 0x7E00 | 3 => 0x7FC0 | 4 => 0x7F | 5 => 0x7E
  | _ => 0

/-- Bits of the infinity of a format that has one, without sign. -/
def fmtInf (code : Nat) : Nat :=
  match code % 16 with
  | 0 => 0x7FF0000000000000 | 1 => 0x7F800000 | 2 => 0x7C00 | 3 => 0x7F80 | 5 => 0x7C
  | _ => 0

/-- Bytes of n packed elements (R47): FP6 is padded to the next group of four. -/
def packedLen (code n : Nat) : Nat :=
  if fmtBits code = 6 then (n + 3) / 4 * 3 else (n * fmtBits code + 7) / 8

/-- Two's-complement value of a w-bit field. -/
def signedOf (w x : Nat) : Int :=
  if x % 2 ^ w < 2 ^ (w - 1) then (x % 2 ^ w : Nat) else (x % 2 ^ w : Nat) - (2 ^ w : Nat)

/-- A number from an integer and an exponent; zero is +0. -/
def Val.ofInt (i : Int) (e : Int) : Val := .num (decide (i < 0)) i.natAbs e

/-- The value of an element (R46). An MX INT8 element is its integer times 2^-6 (R53). -/
def decodeElem (code bits : Nat) : Val :=
  let w := fmtBits code
  let x := bits % 2 ^ w
  if fmtInt code then Val.ofInt (signedOf w x) (if fmtMx code then -6 else 0)
  else
    let mb := fmtManBits code
    let neg := x / 2 ^ (w - 1) == 1
    let ex := x / 2 ^ mb % 2 ^ fmtExpBits code
    let man := x % 2 ^ mb
    let top := 2 ^ fmtExpBits code - 1
    if fmtHasInf code && ex == top then (if man == 0 then .inf neg else .nan)
    else if code % 16 == 4 && ex == top && man == 7 then .nan
    else if ex == 0 then .num neg man (fmtEmin code - mb)
    else .num neg (2 ^ mb + man) ((ex : Int) - fmtBias code - mb)

/-- An E8M0 scale byte as a value (R51). -/
def decodeScale (b : Nat) : Val := if b % 256 == 255 then .nan else .num false 1 ((b % 256 : Nat) - 127)

/-! ### Exact arithmetic -/

/-- Is the value a NaN. -/
def Val.isNan : Val → Bool
  | .nan => true
  | _ => false

def Val.isInf : Val → Bool
  | .inf _ => true
  | _ => false

def Val.isZero : Val → Bool
  | .num _ m _ => m == 0
  | _ => false

def Val.isNeg : Val → Bool
  | .nan => false
  | .inf n => n
  | .num n _ _ => n

def Val.neg : Val → Val
  | .nan => .nan
  | .inf n => .inf (!n)
  | .num n m e => .num (!n) m e

def Val.abs : Val → Val
  | .nan => .nan
  | .inf _ => .inf false
  | .num _ m e => .num false m e

/-- The signed integer of a finite value at exponent e, which must not exceed its own. -/
def Val.scaled (neg : Bool) (m : Nat) (e at_ : Int) : Int :=
  let k := (m * pow2 (e - at_) : Nat)
  if neg then - (k : Int) else k

/-- Exact product; ∞ × 0 is NaN and invalid (R65). -/
def Val.mul : Val → Val → Val × FpEvents
  | .nan, _ => (.nan, .none)
  | _, .nan => (.nan, .none)
  | .inf a, .inf b => (.inf (a != b), .none)
  | .inf a, .num b m _ => if m == 0 then (.nan, .oneInvalid) else (.inf (a != b), .none)
  | .num a m _, .inf b => if m == 0 then (.nan, .oneInvalid) else (.inf (a != b), .none)
  | .num a m e, .num b n f => (.num (a != b) (m * n) (e + f), .none)

/-- Exact sum of two values; +∞ + -∞ is NaN and invalid; zeros of one sign keep it, any other exact zero
is +0 (R48, R65). -/
def Val.add : Val → Val → Val × FpEvents
  | .nan, _ => (.nan, .none)
  | _, .nan => (.nan, .none)
  | .inf a, .inf b => if a == b then (.inf a, .none) else (.nan, .oneInvalid)
  | .inf a, .num _ _ _ => (.inf a, .none)
  | .num _ _ _, .inf b => (.inf b, .none)
  | .num a m e, .num b n f =>
    if m == 0 && n == 0 then (.num (a && b) 0 0, .none)
    else
      let at_ := min e f
      (Val.ofInt (Val.scaled a m e at_ + Val.scaled b n f at_) at_, .none)

/-- Exact sum of a group of values, whose zero is +0 (R48, R60). -/
def Val.sumGroup (vs : List Val) : Val × FpEvents :=
  if vs.any Val.isNan then (.nan, .none)
  else if vs.any (fun v => v.isInf && v.isNeg) && vs.any (fun v => v.isInf && !v.isNeg) then (.nan, .oneInvalid)
  else if vs.any Val.isInf then (.inf (vs.any (fun v => v.isInf && v.isNeg)), .none)
  else
    let at_ : Int := vs.foldl (fun a v => match v with | .num _ m e => if m == 0 then a else min a e | _ => a) 0
    let t : Int := vs.foldl (fun a v => match v with
      | .num n m e => if m == 0 then a else a + Val.scaled n m e at_
      | _ => a) 0
    (Val.ofInt t at_, .none)

/-- Comparison of two values that are no NaN: negative, zero or positive as a is below, equal or above b. The
zeros are equal. -/
def Val.cmp (a b : Val) : Int :=
  match a, b with
  | .inf x, .inf y => (if x then -1 else 1) - (if y then -1 else 1)
  | .inf x, _ => if x then -1 else 1
  | _, .inf y => if y then 1 else -1
  | .num n m e, .num p q f =>
    let at_ := min e f
    let d := Val.scaled n m e at_ - Val.scaled p q f at_
    if d < 0 then -1 else if d = 0 then 0 else 1
  | _, _ => 0

/-- IEEE 754-2019 minimum, with -0 below +0 and NaN kept (R66). -/
def Val.min (a b : Val) : Val :=
  if a.isNan || b.isNan then .nan
  else if a.cmp b < 0 then a
  else if a.cmp b = 0 then (if a.isNeg then a else b)
  else b

/-- IEEE 754-2019 maximum (R66). -/
def Val.max (a b : Val) : Val :=
  if a.isNan || b.isNan then .nan
  else if a.cmp b > 0 then a
  else if a.cmp b = 0 then (if a.isNeg then b else a)
  else b

/-! ### Rounding and encoding -/

/-- Magnitude m × 2^e rounded to a multiple of 2^q: the multiple (R57). -/
def roundGrid (mode : Rounding) (m : Nat) (e q : Int) : Nat :=
  if q ≤ e then m * pow2 (e - q)
  else
    let u := pow2 (q - e)
    let lo := m / u
    let rem := m % u
    match mode with
    | .rtz => lo
    | .rne => if 2 * rem < u then lo else if u < 2 * rem then lo + 1 else lo + lo % 2
    | .sr draw => if draw < rem * 2 ^ 32 / u then lo + 1 else lo

/-- The exponent of the grid of a floating-point format at magnitude m × 2^e, the exponent range unbounded
above (R57). -/
def gridExp (code : Nat) (m : Nat) (e : Int) : Int :=
  max ((Nat.log2 m : Int) + e) (fmtEmin code) - fmtManBits code

/-- The bits of a finite magnitude that lies on the format's grid and within its range (R46). -/
def encodeMag (code : Nat) (m : Nat) (e : Int) : Nat :=
  if m = 0 then 0
  else
    let mb := fmtManBits code
    let top := (Nat.log2 m : Int) + e
    let q := max top (fmtEmin code) - mb
    let k := if q ≤ e then m * pow2 (e - q) else m / pow2 (q - e)
    if top < fmtEmin code then k
    else (top + fmtBias code).toNat * 2 ^ mb + (k - 2 ^ mb)

def signBit (code : Nat) (neg : Bool) : Nat := if neg then 2 ^ (fmtBits code - 1) else 0

/-- Is magnitude m × 2^e beyond the format's largest finite value. -/
def beyondMax (code : Nat) (m : Nat) (e : Int) : Bool :=
  Val.cmp (.num false m e) (decodeElem (code % 16) (fmtMaxBits code)) > 0

/-- Conversion to INT8 or INT4, or to an MX INT8 element with its grid 2^-6 (R57, R64); an infinity becomes the largest element
of its sign in MXINT8, +1.984375 or -1.984375 (R54), and the end of the range in INT8 and INT4 (R64). -/
def convertInt (code : Nat) (mode : Rounding) (v : Val) : Nat × FpEvents :=
  let w := fmtBits code
  let lim : Nat := 2 ^ (w - 1)
  let q : Int := if fmtMx code then -6 else 0
  match v with
  | .nan => (0, .oneNarrowed)
  | .inf neg => (if neg then (if fmtMx code then lim + 1 else lim) else lim - 1, .none)
  | .num neg m e =>
    let k := roundGrid mode m e q
    if neg then (if lim < k then (lim, .oneOverflow) else ((2 ^ w - k) % 2 ^ w, .none))
    else if lim - 1 < k then (lim - 1, .oneOverflow) else (k, .none)

/-- Conversion of a value to a format with a mode and SAT, by R57 and R64, with the events of R68; an infinity becomes the
largest element of an MX format (R54). -/
def convert (code : Nat) (mode : Rounding) (sat : Bool) (v : Val) : Nat × FpEvents :=
  if fmtInt code then convertInt code mode v
  else
    match v with
    | .nan => if fmtHasNan code then (fmtNan code, .none) else (0, .oneNarrowed)
    | .inf neg =>
      if fmtMx code then (signBit code neg + fmtMaxBits code, .none)
      else if code % 16 ≤ 3 || code % 16 == 5 then (signBit code neg + fmtInf code, .none)
      else if code % 16 == 4 && !sat then (fmtNan code, .oneInvalid)
      else (signBit code neg + fmtMaxBits code, .none)
    | .num neg m e =>
      if m = 0 then (signBit code neg, .none)
      else
        let q := gridExp code m e
        let k := roundGrid mode m e q
        if beyondMax code k q then
          let keep := sat || mode == .rtz || !fmtHasNan code
          if keep then (signBit code neg + fmtMaxBits code, .oneOverflow)
          else if code % 16 == 4 then (fmtNan code, .oneOverflow)
          else (signBit code neg + fmtInf code, .oneOverflow)
        else (signBit code neg + encodeMag code k q, .none)

/-- A value rounded to binary32 or binary64 (format code c) with overflow to infinity (R61) or, toward zero, to
the largest finite value. -/
def roundTo (c : Nat) (mode : Rounding) (v : Val) : Val × FpEvents :=
  let r := convert c mode false v
  (decodeElem c r.1, r.2)

/-- acc + x with one RNE rounding to binary32 (R60, R61). -/
def accumulate (acc x : Val) : Val × FpEvents :=
  let s := acc.add x
  let r := roundTo 1 .rne s.1
  (r.1, s.2.add r.2)

/-! ### Division and square root, correctly rounded (R69, R94) -/

/-- Integer square root by bits, from bit `fuel` down. -/
def isqrtAux (n : Nat) : Nat → Nat → Nat
  | 0, r => r
  | fuel + 1, r => isqrtAux n fuel (if (r + 2 ^ fuel) * (r + 2 ^ fuel) ≤ n then r + 2 ^ fuel else r)

/-- a / b with enough bits and a sticky bit for any rounding to binary32 or binary64. A finite non-zero number over zero is an
infinity (R69); R68 names no event for it, and the model counts none (log 24). -/
def Val.div (a b : Val) : Val × FpEvents :=
  match a, b with
  | .nan, _ => (.nan, .none)
  | _, .nan => (.nan, .none)
  | .inf _, .inf _ => (.nan, .oneInvalid)
  | .inf x, .num y _ _ => (.inf (x != y), .none)
  | .num x _ _, .inf y => (.num (x != y) 0 0, .none)
  | .num x m e, .num y n f =>
    if n == 0 then (if m == 0 then (.nan, .oneInvalid) else (.inf (x != y), .none))
    else
      let k := 130 + Nat.log2 n
      let q := m * 2 ^ k / n
      let st := if m * 2 ^ k % n == 0 then 0 else 1
      (.num (x != y) (2 * q + st) (e - f - k - 1), .none)

/-- Square root with a sticky bit; of a negative number NaN, of -0 itself. -/
def Val.sqrt (a : Val) : Val × FpEvents :=
  match a with
  | .nan => (.nan, .none)
  | .inf neg => if neg then (.nan, .oneInvalid) else (.inf false, .none)
  | .num neg m e =>
    if m == 0 then (.num neg 0 0, .none)
    else if neg then (.nan, .oneInvalid)
    else
      let odd := (e % 2).toNat
      let n := m * 2 ^ (128 + odd)
      let r := isqrtAux n 128 0
      let st := if r * r == n then 0 else 1
      (.num false (2 * r + st) ((e - odd - 128) / 2 - 1), .none)

/-! ### MX blocks (R54) -/

/-- emax of an MX element code (R54). -/
def mxEmax (code : Nat) : Int :=
  match code % 16 with
  | 4 => 8 | 5 => 15 | 6 => 4 | 7 => 2 | 8 => 2
  | _ => 0

/-- The value scaled by a power of two. -/
def Val.scale (v : Val) (k : Int) : Val :=
  match v with
  | .num n m e => .num n m (e + k)
  | w => w

/-- floor(log2) of the largest finite magnitude, or none where every one is zero or infinite. -/
def mxTop (vs : List Val) : Option Int :=
  vs.foldl (fun a v => match v with
    | .num _ m e => if m == 0 then a else
        let t := (Nat.log2 m : Int) + e
        match a with
        | none => some t
        | some b => some (max b t)
    | _ => a) none

/-- One MX block from wider values, each with its rounding: the scale byte, the elements and the events (R54). -/
def mxQuantise (code : Nat) (vs : List (Val × Rounding)) : Nat × List Nat × FpEvents :=
  if vs.any (fun p => p.1.isNan) then (255, vs.map (fun _ => 0), .oneMxNan)
  else
    let x : Int := match mxTop (vs.map (·.1)) with
      | none => 0
      | some t => min (max (t - mxEmax code) (-127)) 127
    ((x + 127).toNat, vs.map (fun p => (convert (16 + code % 16) p.2 true (p.1.scale (-x))).1), .none)

/-! ### Packed elements (R47) -/

/-- A byte string as a little-endian number (R12). -/
def leNat (bs : Bytes) : Nat := bs.foldr (fun b a => b.toNat + 256 * a) 0

/-- The n low bytes of a number, least significant first. -/
def natLe : Nat → Nat → Bytes
  | 0, _ => []
  | n + 1, x => BitVec.ofNat 8 x :: natLe n (x / 256)

/-- Element i of a packed row, as bits. -/
def elemBits (code : Nat) (row : Nat) (i : Nat) : Nat := row / 2 ^ (i * fmtBits code) % 2 ^ fmtBits code

/-- Packed elements as a number, element 0 lowest. -/
def packElems (code : Nat) (es : List Nat) : Nat :=
  es.foldr (fun b a => b % 2 ^ fmtBits code + a * 2 ^ fmtBits code) 0

/-! ### Ordered grouped sums (R60, R93) -/

/-- The number of reduction indices in one R60 group for two operand format codes. -/
def groupSize (a b : Nat) : Nat := if (1 ≤ a % 16 && a % 16 ≤ 3) || (1 ≤ b % 16 && b % 16 ≤ 3) then 1 else 32

/-- The products of one group, exactly summed, with the invalid products counted. -/
def groupSum (ps : List (Val × Val)) : Val × FpEvents :=
  let qs := ps.map (fun p => p.1.mul p.2)
  let s := Val.sumGroup (qs.map (·.1))
  (s.1, qs.foldl (fun a q => a.add q.2) s.2)

/-- One R60 accumulation over the groups given in ascending order. -/
def accumGroups (acc : Val × FpEvents) (groups : List (List (Val × Val))) : Val × FpEvents :=
  groups.foldl (fun a g =>
    let s := groupSum g
    let r := accumulate a.1 s.1
    (r.1, a.2.add (s.2.add r.2))) acc

/-- Pairs that stand at ascending reduction indices, cut into the groups of index / gs. -/
def cutGroups (gs : Nat) : List (Nat × Val × Val) → List (Nat × List (Val × Val))
  | [] => []
  | (i, p) :: rest =>
    match cutGroups gs rest with
    | [] => [(i / gs, [p])]
    | (g, l) :: t => if g = i / gs then (g, p :: l) :: t else (i / gs, [p]) :: (g, l) :: t

/-- A pass over one output element (R60, R93): pairs at ascending indices below k, from an initial value; where
some group has no product at all, +0 is added once at the end. -/
def dotPass (gs k : Nat) (acc : Val × FpEvents) (ps : List (Nat × Val × Val)) : Val × FpEvents :=
  let gsl := cutGroups gs ps
  let r := accumGroups acc (gsl.map (·.2))
  if gsl.length < (k + gs - 1) / gs then
    let z := accumulate r.1 (.num false 0 0)
    (z.1, r.2.add z.2)
  else r

end Sys2Proof.Machine
end

