-- ==== Sys2Proof/Machine/State.lean ====
section
/-!
DEFINITION. The state of the module as plain data: everything the spec gives it, grouped by chapter, the queue of
waiting commands, the outcomes, and the state right after reset. INVENTORY.md lists every field with its rule.
Every field has the value of the reset state as its default.
-/

namespace Sys2Proof.Machine

/-! ### Identity, module, pins, clocks and power (00, 13, 18, 19) -/

/-- The ordering codes of R1. -/
inductive OrderCode where
  | a960x32 | a960x64 | a896x32
deriving DecidableEq, Repr

/-- What is fixed at manufacture or held in the configuration store's port setting (R1, R2, R8, R497). -/
structure Ident where
  code : OrderCode := .a960x64
  b1 : Bool := true
  serial : Bytes := List.replicate 16 0
  vendorId : Nat := 0
  mac : Nat := 0
  splitA : Bool := false
  splitB : Bool := false
deriving DecidableEq, Repr

/-- The module states of R606. -/
inductive ModState where
  | reset | boot | init | ready | failsafe | hold
deriving DecidableEq, Repr

/-- Why the module is held in HOLD (R575). -/
structure HoldInfo where
  trip : Bool := false
  monitors : List Nat := []
  okSince : Option Nat := none
deriving DecidableEq, Repr

/-- The module state and how far a start has come (R606 to R609), with what the configuration store holds of
admission (R551); a SHUTDOWN in progress by its command, with whether a drain limit has passed. -/
structure Mod where
  state : ModState := .reset
  powered : Bool := true
  t0 : Nat := 0
  verified : Bool := false
  refereeRuns : Bool := false
  hbmTrained : Bool := false
  mapBuilt : Bool := false
  dawnDone : Bool := false
  flashDone : Bool := false
  portsEnabled : Bool := false
  failedPackage : Bool := false
  admitted : Bool := false
  degraded : Bool := false
  hold : Option HoldInfo := none
  jtagHold : Bool := false
  shutdown : Option (Nat × Bool) := none
deriving DecidableEq, Repr

/-- The sideband pins of R630, as filtered levels, and the management bus (R638, R639). -/
structure Pins where
  rstN : Bool := false
  pwrOk : Bool := false
  haltN : Bool := true
  throttleN : Bool := true
  perstN : List Bool := [false, false, false, false]
  faultN : Bool := true
  thermN : Bool := true
  i2cAddr : Nat := 0x5A
  i2cIdle : Bool := true
  sclHeld : Bool := false
  sdaHeld : Bool := false
  refclkOk : Bool := true
  refclkGoodSince : Nat := 0
  txIdle : Bool := true
deriving DecidableEq, Repr

/-- The dies with a test access port (R654). -/
inductive TapDie where
  | hd0 | fd0 | fd1 | fd2 | fd3 | hd1
deriving DecidableEq, Repr

/-- A test access port (R654): its die, whether it is in Test-Logic-Reset, and what its 8-bit instruction register captures. -/
structure Tap where
  die : TapDie
  logicReset : Bool := true
  ir : BitVec 8 := 0x01
deriving DecidableEq, Repr

/-- The pins of J3 and the PERST_N pins in boundary registers (R627, R630, R655). -/
inductive BoundaryPin where
  | rstN | pwrOk | haltN | throttleN | faultN | thermN | ppsIn | i2cScl | i2cSda | addrSel0 | addrSel1
  | pcieA0PerstN | pcieA1PerstN | pcieB0PerstN | pcieB1PerstN
deriving DecidableEq, Repr

/-- The boundary-scan side (R654 to R656): TRST_N, low by the board's pull-down; the chain from TDI to TDO; the cells of the
boundary registers of HD0 and HD1. -/
structure Jtag where
  trstN : Bool := false
  chain : List Tap := [{ die := .hd0 }, { die := .fd0 }, { die := .fd1 }, { die := .fd2 }, { die := .fd3 }, { die := .hd1 }]
  boundaryHd0 : List (BoundaryPin × Bool) :=
    [(.rstN, false), (.pwrOk, false), (.haltN, false), (.throttleN, false), (.faultN, false), (.thermN, false), (.ppsIn, false),
     (.i2cScl, false), (.i2cSda, false), (.addrSel0, false), (.addrSel1, false), (.pcieA0PerstN, false), (.pcieA1PerstN, false)]
  boundaryHd1 : List (BoundaryPin × Bool) := [(.pcieB0PerstN, false), (.pcieB1PerstN, false)]
deriving DecidableEq, Repr

/-- Clocks, the dawn beat, lockstep and crossings (R480 to R490, R644). -/
structure Clocks where
  dawnTime : Nat := 0
  lockstep : Bool := false
  tcHalf : Bool := false
  ncHalf : Bool := false
  powerStep : Bool := false
  nominalSince : Nat := 0
  pllLocked : Bool := false
  holdover : Bool := false
  realignWanted : Bool := false
  realignCrossings : List Nat := []
  crossings : FMap Nat := []
  lossTime : Nat := 0
deriving DecidableEq, Repr

/-- Power control (R489, R490, R526, R574, R636). -/
structure Power where
  cap : Nat := 2000
  throttleSeen : Bool := false
  rho : Nat := 0
  rhoFloor : Nat := 0
  avg1s : Nat := 0
  avg10ms : Nat := 0
  capInForce : Nat := 2000
  unattributed : Nat := 0
  kLimitCount : Nat := 0
deriving DecidableEq, Repr

/-! ### Physical units (01, 07, 16) -/

/-- A physical tile: fence, counts kept in the configuration store, test (R565 to R570). -/
structure PTile where
  fence : Option FenceCause := none
  fenceTime : Nat := 0
  fences : Nat := 0
  retired : Bool := false
  testing : Bool := false
  passed : Bool := false
deriving DecidableEq, Repr

/-- A physical cluster: its fence (R566, R570). -/
structure PCluster where
  fence : Option FenceCause := none
  fenceTime : Nat := 0
deriving DecidableEq, Repr

/-- The data slots of a controller's channels: the last direction of each, its changes in the frame, and the data slots
taken from the frame on (R253, R254). -/
structure Slots where
  direction : FMap Bool := []
  changes : FMap Nat := []
  used : FMap Nat := []
deriving DecidableEq, Repr

/-- An access that reached a controller: its requester (R251), its bursts on each channel, and whether it writes. -/
structure HbmWant where
  req : Nat
  need : FMap Nat
  write : Bool
deriving DecidableEq, Repr

/-- An HBM stack and its controller (R251 to R260, R267, R568): mode, withdrawal, training, switched by heat (R260), cooled
since; when its frame began and which pseudo-channel it refreshes; its data slots; the rotating pointer of R105, the
accesses that reached it in one mc, and the data slots before them; the burst that the scrubber comes to next. -/
structure Stack where
  demand : Bool := false
  withdrawn : Bool := false
  trained : Bool := false
  hot : Bool := false
  cooled : Bool := false
  frameStart : Nat := 0
  refreshOdd : Bool := false
  slots : Slots := {}
  arbPtr : Nat := 0
  arrivedMc : Nat := 0
  arrived : List HbmWant := []
  mcSlots : Slots := {}
  scrubAt : Nat := 0
deriving DecidableEq, Repr

/-- A remap record of INFO_REMAPS (R550). -/
structure Remap where
  turn : Nat
  ltile : Nat
  old : Nat
  new : Nat
deriving DecidableEq, Repr

/-- The maps from logical to physical units and the health of the units (R25 to R32, R566, R568): logical tiles and
logical clusters that are backed, displaced clusters with the physical cluster that each had, the last physical tile of
unbacked logical tiles. -/
structure Units where
  tileMap : FMap Nat := []
  clusterMap : FMap Nat := []
  displaced : FMap Nat := []
  lastTile : FMap Nat := []
  ptiles : FMap PTile := []
  pclusters : FMap PCluster := []
  withdrawnRegions : List Nat := []
  lostDruinds : List Nat := []
  hbmStacks : FMap Stack := []
  remaps : List Remap := []
deriving DecidableEq, Repr

/-! ### Tiles, contexts and synchronisation (03, 04, 05) -/

/-- The context states of R79. -/
inductive CtxState where
  | free | fetching | ready | issuing | stalled | parked | waiting | faulted
deriving DecidableEq, Repr

/-- The counts of metadata faults that a pass has met (R182). -/
structure MetaCounts where
  range : Nat := 0
  order : Nat := 0
  dup : Nat := 0
  scale : Nat := 0
  overfull : Nat := 0
deriving DecidableEq, Repr

/-- An entry of the group table, with its place in the table (R138). -/
structure GtEntry where
  index : Nat
  expert : Nat
  wslot : Bool
  count : Nat
  xPtr : Nat
  wPtr : Nat
  yPtr : Nat
  xsPtr : Nat
  wsPtr : Nat
  cont : Nat
  xLive : Nat
deriving DecidableEq, Repr

/-- A work unit of a GMM: entry, column block and token block, by number (R188). -/
structure WorkUnit where
  entry : Nat
  cb : Nat
  tb : Nat
deriving DecidableEq, Repr

/-- What a step of a GMM does: an access of R676 (metadata, weights or stored blocks, weight scales, rows at X_PTR, rows at
CONT, row scales), the reading of an empty table, a whole pass, a pass over one segment (R76, R141, R186, R676). -/
inductive GOp where
  | table | record | weights | wscales | rows | cont | xscales | pass | seg (k : Nat)
deriving DecidableEq, Repr

/-- A step of a GMM, of one of its begun units. -/
structure GStep where
  run : Nat
  op : GOp
deriving DecidableEq, Repr

/-- The binary32 sums of a segment with the poison that each depends on (R113, R186, R192). -/
abbrev SegSums := List (Nat × Option Nat)

/-- The weights of a column block: the tile whose descriptor names them, the entry, the block; for a block-sparse operand the kept
blocks of the block row with, for each, the rows whose scale differs from its partner's as bits, and the blocks dropped (R177,
R178, R181, R182). -/
structure Weights where
  owner : Nat
  entry : Nat
  cb : Nat
  kept : List (Nat × Nat) := []
  keptScale : List Nat := []
  faults : MetaCounts := {}
deriving DecidableEq, Repr

/-- A begun unit of a GMM, numbered within it: the descriptor that lists it, of the tile that its weights name, and the entry
as read; the segment to which it is limited where another GMM lends it, with that GMM's tile, context and unit; its weights;
the halves of STAGE that its operands use; segments not started, segment sums at hand, segments given out with their thieves,
the next to merge and the sums merged so far; the rows with the +0 of R93 (R93, R181 to R193, R676). -/
structure UnitRun where
  id : Nat
  unit : WorkUnit
  desc : Bytes
  entry : GtEntry
  weights : Weights
  lent : Option (Nat × Nat × Nat × Nat) := none
  wHalf : Bool := false
  xHalf : Bool := false
  nseg : Nat := 1
  unstarted : List Nat := []
  sums : FMap SegSums := []
  given : List (Nat × Nat) := []
  merged : Nat := 0
  acc : SegSums := []
  short : List Bool := []
deriving DecidableEq, Repr

/-- The GMM of a context (R141, R188, R676): its unstarted units with the error that ends it after them; the steps of begun
units that have not issued, and those that have issued with their effect not made; the begun units, the current one last; the
weights that STAGE holds; the halves of STAGE used last; the number of the next unit; the stolen segments not yet landed
(R194). -/
structure GmmRun where
  units : List WorkUnit
  ending : Option (Status × Nat) := none
  todo : List GStep := []
  flight : List GStep := []
  runs : List UnitRun := []
  held : Option Weights := none
  wHalf : Bool := false
  xHalf : Bool := false
  nextId : Nat := 0
  stolen : Nat := 0
deriving DecidableEq, Repr

/-- The descriptor in execution of a context (R78): where it was fetched, its bytes, how many of its steps have
issued, whether its own row has had its effect, when it issued, whether a REDUCE has joined its run, and the place of its
outstanding remote access in the tile's order of issue with the directions in which a COPY uses the tile's port (R103). -/
structure Exec where
  addr : Nat
  desc : Bytes
  total : Nat
  issued : Nat
  done : Bool
  since : Nat
  gmm : Option GmmRun
  joined : Bool := false
  order : Nat := 0
  inbound : Bool := false
  outbound : Bool := false
deriving DecidableEq, Repr

/-- A descriptor context (R75, R79, R116, R117). A context that can issue, or whose engine is busy, stands as READY or
STALLED here and `State.ctxState` gives its state in a tc; `held` is the state that it still has in one tc (R79, R82). -/
structure Ctx where
  state : CtxState := .free
  seat : Nat := 0
  inCluster : Bool := false
  next : Nat := 0
  ended : Bool := false
  buffer : List (Nat × Bytes) := []
  cur : Option Exec := none
  pending : Nat := 0
  held : Option (Nat × CtxState) := none
deriving DecidableEq, Repr

/-- An access that an arbiter of R105 has not granted whole: its requester, the bank of its next line, the lines (at a router
port the 128-byte parts) left, and how many it takes in one cycle (R99, R100, R107, R111). -/
structure Want where
  req : Nat
  bank : Nat
  left : Nat
  width : Nat
deriving DecidableEq, Repr

/-- A tile by module logical number: contexts; the context that issued last, the tc in which it did and the tc of the last
choice (R80, R106); the arbiter pointers of its banks and its steal queue, the accesses its banks have not granted and the tc
that they have come to (R105, R107, R191); the tc from which its array and its vector engine accept a step (R83, R86, R94);
the order of the next remote access (R103); the accumulator bank that the next pass uses, the banks and the segment registers,
of cell (i, j) at place 16 i + j (R75, R86, R187). -/
structure Tile where
  ctxs : List Ctx := List.replicate 8 {}
  last : Nat := 7
  lastTc : Option Nat := none
  stepTc : Option Nat := none
  bankPtr : Nat := 0
  queuePtr : Nat := 0
  wants : List Want := []
  wantTc : Nat := 0
  arrayFree : Nat := 0
  vecFree : Nat := 0
  nextOrder : Nat := 0
  bank : Bool := false
  acc0 : List W32 := List.replicate 256 0
  acc1 : List W32 := List.replicate 256 0
  seg : List W32 := List.replicate 256 0
deriving DecidableEq, Repr

/-- A cluster by module logical number: the arbiters of its banks and of its port to the region router (R105, R107, R111): the
pointers, the accesses not granted, the tc and the nc that they have come to. -/
structure Cluster where
  bankPtr : Nat := 0
  routerPtr : Nat := 0
  wants : List Want := []
  wantTc : Nat := 0
  portWants : List Want := []
  portNc : Nat := 0
deriving DecidableEq, Repr

/-- What a counter reference names for a seat (R129). -/
inductive Target where
  | tile (t i : Nat)
  | cluster (c i : Nat)
  | ni (n : Nat)
deriving DecidableEq, Repr

/-- A signal or SET on its way (R130 to R132). -/
structure Signal where
  seat : Nat
  target : Target
  isSet : Bool
  value : W32
  tile : Nat
  ctx : Nat
  parks : Bool
deriving DecidableEq, Repr

/-- The updates that a counter has taken in one tc, for the order of R131 and R132. -/
structure CtrTc where
  tc : Nat
  adds : W32
  setBy : Option Nat
deriving DecidableEq, Repr

/-- A counted arrival at a barrier: the seat-view tile, the context, when its wait began and the tc in which it was counted
(R160). -/
structure Counted where
  tile : Nat
  ctx : Nat
  since : Nat
  tc : Nat
deriving DecidableEq, Repr

/-- A barrier's current generation (R160, R161). -/
structure BarrierGen where
  members : Nat
  arrived : List Counted
deriving DecidableEq, Repr

/-- A barrier arrival on its way (R159, R160). -/
structure Arrival where
  seat : Nat
  bid : Nat
  home : Nat
  members : Nat
  tile : Nat
  ctx : Nat
  since : Nat
deriving DecidableEq, Repr

/-- A barrier release on its way: the barrier, the counted arrival, its MEMBERS, and the tc of the release (R160). -/
structure Release where
  seat : Nat
  bid : Nat
  home : Nat
  members : Nat
  who : Counted
  tc : Nat
deriving DecidableEq, Repr

/-- A stolen segment's sums on their way to the owner's slot (R193). -/
structure SlotWrite where
  owner : Nat
  ownerCtx : Nat
  run : Nat
  seg : Nat
  sums : SegSums
  thief : Nat
  thiefCtx : Nat
deriving DecidableEq, Repr

/-- The members of a REDUCE that have arrived; once it has failed, the status and DETAIL with which it ends and the seat-view
tiles whose members have not met that end yet (R148, R151). -/
structure ReduceRun where
  seat : Nat
  arrived : List (Nat × Nat)
  ended : Option (Status × Nat) := none
  left : List Nat := []
deriving DecidableEq, Repr

/-- Counters and what is on its way to them (R128 to R132, R148, R159 to R161, R193). -/
structure Sync where
  tileCtr : FMap W32 := []
  cluCtr : FMap W32 := []
  ctrTc : FMap CtrTc := []
  signals : List Signal := []
  barriers : FMap BarrierGen := []
  arrivals : List Arrival := []
  releases : List Release := []
  reduces : List ReduceRun := []
  slotWrites : List SlotWrite := []
deriving DecidableEq, Repr


/-! ### Seats (01, 04, 13, 14, 17) -/

/-- The seat states of R506 but ABSENT, which is a seat that is not there. -/
inductive SeatState where
  | idle | running | preempted | halted | draining
deriving DecidableEq, Repr

/-- The areas of SEAT_AREAS: fault area, flash event queue, manifest area with its N; 0 is none (R550). -/
structure Areas where
  fault : Nat := 0
  event : Nat := 0
  manifest : Nat := 0
  n : Nat := 0
deriving DecidableEq, Repr

/-- A binding of a program's kernel (R548). -/
structure Binding where
  ltile : Nat
  ctx : Nat
  inCluster : Bool
  offset : Nat
deriving DecidableEq, Repr

/-- A loaded program (R509, R548): level, tile count, kernels as first binding and count, bindings, hash. -/
structure Program where
  level : Nat
  ltiles : Nat
  kernels : List (Nat × Nat)
  bindings : List Binding
  hash : Bytes
deriving DecidableEq, Repr

/-- A queued launch: its command, its kernel and its flags (R509, R544, R547). -/
structure Launch where
  cmd : Nat
  kernel : Nat
  layerEnd : Bool
  turnEnd : Bool
deriving DecidableEq, Repr

/-- The kernel in progress (R510, R511): its launch, its bound contexts by seat-view tile, when its first
descriptor issued, the first error status of its contexts, and whether it stole. -/
structure Running where
  launch : Launch
  bound : List (Nat × Nat)
  first : Option Nat
  status : Option Status
  exact : Bool
deriving DecidableEq, Repr

/-- A saved image of a SHARED seat's stores (R515). -/
structure SaveImage where
  bytes : FMap Byte
  poison : FMap Nat
  lastCtx : FMap Nat
  bankPtr : FMap Nat
deriving DecidableEq, Repr

/-- Where a seat stands in pre-emption (R513 to R518). -/
inductive PreemptPhase where
  | none | saving | saved | restoring
deriving DecidableEq, Repr

/-- A SHARED seat's place in time-sharing (R513 to R518): marked for pre-emption, whether its last kernel left it at a
pre-emption point, since when it waits and since when it has run, its phase, when its save began, its image. -/
structure Preempt where
  marked : Bool := false
  point : Bool := true
  waitingSince : Option Nat := none
  beganAt : Nat := 0
  phase : PreemptPhase := .none
  phaseAt : Nat := 0
  image : Option SaveImage := none
deriving DecidableEq, Repr

/-- Why a seat drains (R585, R611, R613). -/
inductive DrainKind where
  | destroy | teardown
deriving DecidableEq, Repr

/-- A drain in progress: its kind, the limit in µs, the command that asked for it, and whether it was HALTED. -/
structure Drain where
  kind : DrainKind
  limit : Nat
  cmd : Option Nat
  halted : Bool
deriving DecidableEq, Repr

/-- The layer window of a seat (R274, R275). -/
structure LayerWindow where
  slots : Nat
  partSize : Nat
  pbase : Nat
  regions : List Nat
deriving DecidableEq, Repr

/-- One programmable counter's count within its instance's cycle: the cycle, the value so far, the value of the
cycle before (R587). -/
structure PmcRun where
  cycle : Nat
  v : Nat
  prev : Nat
deriving DecidableEq, Repr

/-- The counter block of a seat (R596 to R600): registers, the writes that wait for the next beat, the hc in which
SEL_DENIED and SNAP_LATE were last set (R15), and the running values per counter and instance. -/
structure Pmc where
  sel : List W64 := List.replicate 16 0
  ctr : List W64 := List.replicate 16 0
  shadow : List W64 := List.replicate 16 0
  freeze : Bool := false
  snapFreeze : Bool := false
  selDenied : Bool := false
  snapLate : Bool := false
  deniedAt : Option Nat := none
  lateAt : Option Nat := none
  deniedIdx : Nat := 0
  snapSeq : W32 := 0
  snapBeat : W64 := 0
  waitClear : Bool := false
  waitFreeze : Option Bool := none
  waitSnapFreeze : Option Bool := none
  waitSel : FMap W64 := []
  waitCtr : FMap W64 := []
  runs : FMap PmcRun := []
deriving DecidableEq, Repr

/-- Snapshots of a seat (R602 to R605): area, its length, permission, the armed time, the last timed snapshot. -/
structure Snap where
  area : Nat := 0
  len : Nat := 0
  perm : Nat := 0
  time : Nat := 0
  late : Bool := false
  last : Bytes := []
deriving DecidableEq, Repr

/-- What the running turn has gathered for its manifest (R491). -/
structure TurnFacts where
  failed : Bool := false
  short : Bool := false
  fpAtomic : Bool := false
  steal : Bool := false
  remap : Bool := false
  replay : Bool := false
  check : Bool := false
  firstStatus : Option Status := none
  holdFrames : Nat := 0
  start : Option Nat := none
  foreignBase : Nat := 0
  shortCalls : Nat := 0
deriving DecidableEq, Repr

/-- A placement swap that waits for its turn (R211): its command, the turn, spaces with digests. -/
structure Swap where
  cmd : Nat
  turn : Nat
  spaces : List (Nat × Nat)
deriving DecidableEq, Repr

/-- A seat's expert space (R204 to R211): its record and the bank in force. -/
structure SpaceRec where
  record : Bytes
  bankB : Bool
deriving DecidableEq, Repr

/-- A seat (R501 to R528). `hcRecords` are the fault records made in one hc, with that hc and the rank of each in R167's order. -/
structure Seat where
  state : SeatState := .idle
  haltCause : Nat := 0
  record : Bytes := List.replicate 64 0
  nextRecord : Option Bytes := none
  level : Nat := 0
  seed : W64 := 0
  seedTurn : W64 := 0
  turn : W64 := 0
  turnBegun : Bool := false
  turnAborted : Bool := false
  turnEnded : Bool := false
  epoch : W32 := 0
  share : List Nat := []
  home : FMap Nat := []
  areas : Areas := {}
  nextAreas : Option Areas := none
  program : Option Program := none
  launches : List Launch := []
  running : Option Running := none
  spaces : FMap SpaceRec := []
  swaps : List Swap := []
  routed : List Nat := []
  window : Option LayerWindow := none
  fillCtrs : List Target := []
  ns : Option (Nat × Bool) := none
  exclusions : List Bytes := []
  haltLatch : Bool := false
  haltHeld : Bool := false
  haltAsked : Bool := false
  acct : FMap Nat := []
  acctSnap : List Nat := List.replicate 64 0
  acctSeq : W32 := 0
  energyDyn : Nat := 0
  energyStatic : Nat := 0
  pmc : Pmc := {}
  snap : Snap := {}
  drain : Option Drain := none
  preempt : Preempt := {}
  tc0Bucket : Nat := 0
  tc0At : Nat := 0
  turnLockstep : Bool := true
  lastLockstep : Bool := false
  lossBeat : W64 := 0
  facts : TurnFacts := {}
  heldSignals : List Signal := []
  hcRecords : Nat × List (Nat × Bytes) := (0, [])
deriving DecidableEq, Repr

/-! ### Hosts, rings and commands (14, 15, 20) -/

/-- The ring states of R663. -/
inductive RingState where
  | disabled | enabled | error | resetting
deriving DecidableEq, Repr

/-- A ring pair's registers and the device's view of it (R529 to R534, R541, R663). -/
structure Ring where
  sqBase : W64 := 0
  cqBase : W64 := 0
  cfg : W64 := 0
  enable : Bool := false
  state : RingState := .disabled
  cfgInvalid : Bool := false
  badTail : Bool := false
  badHeader : Bool := false
  badHead : Bool := false
  outstanding : Nat := 0
  sqHead : Nat := 0
  sqTail : Nat := 0
  cqHead : Nat := 0
  cqTail : Nat := 0
  phase : Bool := true
  unsignalled : Nat := 0
  firstIrq : Nat := 0
deriving DecidableEq, Repr

/-- An MSI-X table entry (R670). -/
structure MsixEntry where
  addr : W64 := 0
  data : W32 := 0
  masked : Bool := true
deriving DecidableEq, Repr

/-- A PCIe function: ring pairs, event registers, MSI-X, BAR2 (R657 to R673); for the W1C bits of EVT_STATUS by number and
PPS_REJECT at 8, the hc in which the hardware last set each (R15). -/
structure Func where
  rings : List Ring := [{}, {}, {}, {}]
  evtStatus : BitVec 7 := 0
  evtEnable : BitVec 7 := 0x7F
  aperture : BitVec 9 := 0
  ppsReject : Bool := false
  setAt : FMap Nat := []
  msix : FMap MsixEntry := []
  msixPending : List Nat := []
  msixMasked : Bool := false
  bar2Log2 : Nat := 33
deriving DecidableEq, Repr

/-- What a PCIe completion says (R507, R610, R671 to R673). -/
inductive PcieReply where
  | data (bytes : Bytes) (ep : Bool)
  | unsupported
  | abort
  | retry
deriving DecidableEq, Repr

/-- A port's allotment: bytes 16 to 47 of the seat-record layout, and its flash extents (R499). -/
structure Allot where
  clusters : Nat := 0
  regions : Nat := 0
  qbase : Nat := 0
  qsize : Nat := 0
  nictr0 : Nat := 0
  nictr1 : Nat := 0
  trig0 : Nat := 0
  trig1 : Nat := 0
  windows : Nat := 0
  groups : Nat := 0
  tc0cap : Nat := 0
  extents : Nat := 0
deriving DecidableEq, Repr

/-- A command that has been accepted: its issuer, packet, the slot after it, whether it runs, and whether its
completion is discarded (R532, R543, R545). -/
inductive Issuer where
  | ring (fn ring : Nat)
  | mgmt (via : Mgmt)
deriving DecidableEq, Repr

structure Cmd where
  id : Nat
  issuer : Issuer
  packet : Bytes
  sqHead : Nat
  begun : Bool
  discard : Bool
  acceptedAt : Nat
deriving DecidableEq, Repr

/-- What leaves through the host ports (R533, R540, R610, R670 to R673). -/
structure HostSide where
  functions : FMap Func := []
  allots : List Allot := []
  hostMem : FMap Byte := []
  msixSent : List (Nat × Nat) := []
  pcieOut : List (Nat × PcieReply) := []
  configured : List Bool := [false, false]
  cmds : List Cmd := []
  nextCmd : Nat := 0
deriving DecidableEq, Repr

/-! ### Management, identity and debug (15, 16, 18) -/

/-- An MCTP message sent: to whom, type, body (R553, R554, R581, R618). -/
structure MctpOut where
  dest : Nat
  type : Nat
  body : Bytes
deriving DecidableEq, Repr

/-- A reply kept for a repeated command (R557). -/
structure KeptReply where
  fabric : Bool
  source : Nat
  tag : Nat
  crc : Nat
  reply : Bytes
deriving DecidableEq, Repr

/-- The management transports (R553 to R557, R618). -/
structure MgmtSide where
  eid : Nat := 0
  busOwner : Option Nat := none
  kept : List KeptReply := []
  aclRequesters : List Nat := []
  aclMatch : Nat := 0xFFFF
  aclMask : Nat := 0
  mctpOut : List MctpOut := []
  notified : List Nat := []
  spdmVersion : Nat := 0
  spdmAlgorithms : Bool := false
  spdmTranscript : Bytes := []
deriving DecidableEq, Repr

/-- The debug lock (R584, R585). -/
structure Security where
  nonce : Option Bytes := none
  nonceAt : Nat := 0
  scope : Nat := 0
deriving DecidableEq, Repr

/-- A log record (R559). -/
structure LogRec where
  seq : W32
  sev : Nat
  prior : Bool
  synced : Bool
  predawn : Bool
  seat : Option Nat
  event : Nat
  time : Nat
  kind : Nat
  index : Nat
  sub : Nat
  count : Nat
  detail : W64
  madeAt : Nat
deriving DecidableEq, Repr

/-- The log and the persistent log (R559 to R564). -/
structure LogSide where
  records : List LogRec := []
  nextSeq : W32 := 0
  persistent : List LogRec := []
deriving DecidableEq, Repr

/-- A monitor's reading, bounds (none: no bound) and state 0 normal, 1 warning, 2 critical (R571 to R574). -/
structure Monitor where
  reading : Int
  warnLo : Option Int
  warnHi : Option Int
  critLo : Option Int
  critHi : Option Int
  state : Nat
  failed : Bool
deriving DecidableEq, Repr

/-- The firmware slots and the boot state in NOR (R576 to R579): the images, the slot that runs and the one selected, starts of
the selected slot that have not reached READY in time, starts of the running image that have, the fused minimum, whether slot A
still holds the image of manufacture. -/
structure Firmware where
  slotA : FMap Byte := []
  slotB : FMap Byte := []
  runningB : Bool := false
  selectedB : Bool := false
  failedStarts : Nat := 0
  readyStarts : Nat := 0
  minSvn : Nat := 0
  factoryA : Bool := true
deriving DecidableEq, Repr

/-! ### Counters and bandwidth (17) -/

/-- A bandwidth resource's counts in one direction (R595). -/
structure Bw where
  cur : Nat := 0
  last : Nat := 0
  peak : Nat := 0
deriving DecidableEq, Repr

structure Counters where
  fixed : FMap W64 := []
  window : Nat := 10
  nextWindow : Option Nat := none
  bw : FMap Bw := []
  deviceSeq : W32 := 0
deriving DecidableEq, Repr

/-! ### Fabric ports (09) -/

/-- The port states of R330. -/
inductive PortState where
  | disabled | training | handshake | up | quarantined
deriving DecidableEq, Repr

/-- A packet queued for a port: its requester (arrival port, or 24 for the NI), the hub of the NI that started it, the
bytes already sent, and the arrival flits that hold its bytes (R327, R349). -/
structure OutPkt where
  req : Nat
  hub : Nat
  seat : Option Nat
  pkt : Packet
  sent : Nat
  origin : List (Nat × Nat)
deriving DecidableEq, Repr

/-- A fabric port (R319 to R334, R342, R349, R356). Times are State.time; `condition` is the event logged in
HANDSHAKE with the partner's NODE and LEVEL (R333); `backoff` is in ns, 0 while no NOT_READY record has come since the
last READY, and `refused` names the own reliable packets that wait for the hold to lift (R357). `vlOpen` holds by class whether
the lane granted last is still in its turn (R349); `depths` holds by class the flits queued at the start of the hc `depthHc`, in
which the queue last changed (R344). -/
structure Port where
  state : PortState := .disabled
  polarity : Nat := 0
  partner : Option (Nat × Nat × Nat) := none
  level : Nat := 0
  condition : Option (Nat × Nat × Nat) := none
  nextLseq : Nat := 0
  expected : Nat := 0
  accepted : Option Nat := none
  awaiting : Bool := false
  replay : List Flit := []
  resend : Option Nat := none
  resendTimes : List Nat := []
  flits : FMap (Nat × Nat) := []
  nextFlit : Nat := 0
  partials : FMap (List (Nat × List (Byte × Bool))) := []
  credits : FMap Nat := []
  shared : Nat := 0
  queue : List OutPkt := []
  controlOut : List Control := []
  controlIn : List Control := []
  held : Bool := false
  backoff : Nat := 0
  refused : List (Nat × Nat) := []
  flaps : List Nat := []
  quarantineHold : Nat := 60
  soaking : Bool := false
  soakBad : Bool := false
  wrrClass : Nat := 3
  wrrLeft : Nat := 0
  vlLast : FMap Nat := []
  vlOpen : FMap Bool := []
  reqLast : FMap Nat := []
  groupTable : FMap W64 := []
  memberTable : FMap W64 := []
  depthHc : Nat := 0
  depths : List Nat := []
  upSince : Nat := 0
  trainingSince : Nat := 0
deriving DecidableEq, Repr

/-- What FAB_PARAMS sets for a hub, at its defaults (R344, R349, R376, R377, R439): times in µs. -/
structure HubParams where
  w1 : Nat := 4
  w2 : Nat := 2
  w3 : Nat := 1
  divert : Nat := 64
  gap : Nat := 500
  tc2Limit : Nat := 1000
  resend : Nat := 100
deriving DecidableEq, Repr

/-- What a route-table entry held before it was written in an hc (R345): holders are ports 0 to 23, 24 and 25 the NIs. -/
structure RouteOld where
  holder : Nat
  member : Bool
  entry : Nat
  hc : Nat
  old : W64
deriving DecidableEq, Repr

/-- The fabric side (R341, R342): the node number (0xFFFF: none set), ports, hub parameters, the NIs' route tables with what
the entries written in the present hc held before it (R345), and the flits that have left, port and flit. -/
structure FabSide where
  node : Nat := 0xFFFF
  ports : FMap Port := []
  params : FMap HubParams := []
  niGroup : FMap W64 := []
  niMember : FMap W64 := []
  routesWritten : List Nat := []
  routesOld : List RouteOld := []
  sent : List (Nat × Flit) := []
deriving DecidableEq, Repr

/-! ### Memory across the fabric (10) -/

/-- A window entry (R361). -/
structure Window where
  v : Bool
  rd : Bool
  wr : Bool
  at_ : Bool
  tx : Bool
  seat : Nat
  key : Nat
  srcMatch : Nat
  srcMask : Nat
  base : Nat
  size : Nat
deriving DecidableEq, Repr

/-- Who waits for a request or a line operation: a COPY's context, an action, a flash mirror fetch. -/
inductive Owner where
  | ctx (tile ctx : Nat)
  | action (id : Nat)
  | mirror (unit : Nat)
deriving DecidableEq, Repr

/-- What an outstanding request does when its response comes: a READ lands at the pieces given, physical address and
bytes (R369, R370). -/
inductive ReqKind where
  | read (land : List (Nat × Nat))
  | write
  | atomic
  | txn
deriving DecidableEq, Repr

/-- A request packet without its response (R373, R377): by destination stream and SEQ; with the global address of its first
byte. -/
structure Request where
  dst : Nat
  tc : Nat
  vl : Nat
  epoch : Nat
  seq : Nat
  seat : Nat
  hub : Nat
  kind : ReqKind
  owner : Owner
  addr : Nat := 0
deriving DecidableEq, Repr

/-- The packet that a line operation answers (R373), or none for a local action (R370). -/
structure OpFrom where
  src : Nat
  tc : Nat
  vl : Nat
  epoch : Nat
  seq : Nat
  seat : Nat
  hub : Nat
  reliable : Bool
  adaptive : Bool
  last : Bool
  owner : Option Owner
deriving DecidableEq, Repr

/-- A member of a combined group (R381): byte offset in the line, operand, width in bytes, FETCH, the hc of its arrival. -/
structure AddMember where
  from_ : OpFrom
  offset : Nat
  operand : Nat
  width : Nat
  fetch : Bool
  hc : Nat
deriving DecidableEq, Repr

/-- A line operation's work (R378); `bad` names the bytes of a WRITE that came as poison (R264). -/
inductive LineWork where
  | write (data : Bytes) (bad : List Nat)
  | adds (members : List AddMember)
  | atomic (aop offset operand compare : Nat) (fetch : Bool)
  | txn (group : Nat)
deriving DecidableEq, Repr

/-- A line operation that waits at its home (R378 to R381): the line's HBM address and the hc of its arrival. -/
structure LineOp where
  line : Nat
  from_ : OpFrom
  work : LineWork
  hc : Nat
deriving DecidableEq, Repr

/-- A part of a transaction group at its stream hub (R385, R387). -/
structure TxnPart where
  part : Nat
  line : Nat
  data : Bytes
  bad : List (Nat × Nat)
  seq : Nat
  status : Option Status
deriving DecidableEq, Repr

/-- A transaction group: the stream it came by (or the local owner), its PARTS and the parts that have come. -/
structure TxnGroup where
  from_ : OpFrom
  parts : Nat
  have_ : List TxnPart
deriving DecidableEq, Repr

/-! ### Network interfaces (11) -/

/-- A packet in the package: its arrival port (24 for none), the arrival flits that hold it, the receive stamp. -/
structure Inbound where
  pkt : Packet
  port : Nat
  origin : List (Nat × Nat)
  at_ : Nat
deriving DecidableEq, Repr

/-- A receiving stream at its hub (R352, R353, R371 to R376, R438). -/
structure RxStream where
  next : Nat := 0
  early : List Inbound := []
  skipped : List Nat := []
  writes : Nat := 0
  lastWrite : Nat := 0
  reliables : Nat := 0
  duplicate : Bool := false
  lastHome : Option Nat := none
deriving DecidableEq, Repr

/-- A reliable packet kept until it is acknowledged (R439): the packet with the part of its payload that is kept, the
pieces of memory that hold the rest, and its owner. -/
structure TxPkt where
  pkt : Packet
  pieces : List (Nat × Nat)
  hub : Nat
  seat : Nat
  owner : Option Owner
deriving DecidableEq, Repr

/-- A sending stream (R352, R439, R441). -/
structure TxStream where
  next : Nat := 0
  unacked : List TxPkt := []
  runs : Nat := 0
deriving DecidableEq, Repr

/-- A trigger entry that is not FREE (R164, R400). -/
structure Trigger where
  running : Bool
  action : Nat
  tclass : Nat
  ctr : Nat
  thresh : Nat
  next : Option Nat
  len : Nat
  args : Bytes
deriving DecidableEq, Repr

/-- One sender's message to an EXCHANGE or RETURN (R453 to R455): bytes received, and how it ended: 0 open, 1 whole,
2 short, 3 abandoned, 4 of another length. -/
structure PermMsg where
  got : Nat := 0
  end_ : Nat := 0
deriving DecidableEq, Repr

/-- The progress of an EXCHANGE or RETURN (R443 to R465): the space record and combine record read when it fired, whether it waits
for its EXCHANGE, whether receiving has ended, whether its own part is over and the combine is awaited, when it began, and
NO_ROUTE or TIMEOUT where a packet found no route or a stream was given up (R359, R441). -/
structure PermRun where
  record : Bytes
  cb : Bytes
  turn : Nat
  space : Nat
  group : Nat
  part : Nat
  msgs : List PermMsg
  begunTo : List Nat
  rowsOut : Nat
  rowsIn : Nat
  rowsZero : Nat
  emptyIn : Nat
  received : Bool
  waiting : Bool
  partOver : Bool
  began : Nat
  lost : Option Status
deriving DecidableEq, Repr

/-- A fired action (R401, R402): where its entry is, its fields, the hc in which it fired, whether an engine has it, what it waits
for, its final status, its exchange. -/
structure Action where
  seat : Nat
  hub : Nat
  slot : Nat
  trig : Trigger
  fired : Nat
  engine : Bool
  begun : Bool
  outstanding : Nat
  first : Option Status
  status : Option Status
  old : Nat
  perm : Option PermRun
deriving DecidableEq, Repr

/-- An EXCHANGE or RETURN of the turn that has ended, with the rows of each member's message that came whole (R460, R462,
R463, R466). -/
structure PermDone where
  seat : Nat
  turn : Nat
  space : Nat
  kind : Nat
  part : Nat
  status : Status
  wholeRows : List Nat
deriving DecidableEq, Repr

/-- A member that has sent the return message for every part (R466). -/
structure AllParts where
  seat : Nat
  turn : Nat
  space : Nat
  rank : Nat
deriving DecidableEq, Repr

/-- A stand-in for a space and turn (R466). -/
structure StandIn where
  seat : Nat
  turn : Nat
  space : Nat
  group : Nat
  began : Nat
deriving DecidableEq, Repr

/-- An OPEN or FINAL record (R416); runs are (first, count). -/
structure OpenRec where
  digest : Nat
  contrib : Nat
  mismatch : Bool
  abort : Bool
  badRank : Nat
  runs : List (Nat × Nat)
deriving DecidableEq, Repr

/-- A CLOSE or FINAL_CLOSE record (R416). -/
structure CloseRec where
  status : Nat
  elem : Nat
  rank : Nat
deriving DecidableEq, Repr

/-- A member's call (R411 to R430). `kind` is the KIND of R412; `contrib` the package contribution with its poison;
`landed` the bytes that have landed from each rank. -/
structure Call where
  seq : Nat
  kind : Nat
  tc : Nat
  action : Option Nat
  members : List (Nat × Nat)
  desc : Bytes
  begun : Option Nat
  horizon : Nat
  arg : Nat
  fmt : Nat
  len : Nat
  src : Nat
  dst : Nat
  digest : Nat
  abort : Option Status
  contrib : List (Nat × Option Nat)
  opens : FMap OpenRec
  gone : List Nat
  openSent : Bool
  final : Option OpenRec
  landed : FMap Nat
  whole : List Nat
  formed : Nat
  result : List (Nat × Option Nat)
  resultSent : Bool
  closes : FMap CloseRec
  closeSent : Bool
  finalClose : Option CloseRec
  poisoned : Bool
  checked : Bool
  lengthBad : Bool
  sentTo : FMap Nat
deriving DecidableEq, Repr

/-- A collective group (R406, R407): its record, its nodes by rank, the owner, the last SEQ, the call in progress, the
calls that wait, and messages of more than one packet being gathered. -/
structure Group where
  seat : Nat
  record : Bytes
  nodes : List Nat
  lastSeq : Nat
  call : Option Call
  waiting : List Call
  gather : FMap Bytes
deriving DecidableEq, Repr

/-- The network interfaces of both hubs, their counters and tables (R397 to R442), the window table (R361) and the
homes' queues (R378). -/
structure NiSide where
  ctr : FMap W32 := []
  triggers : FMap Trigger := []
  actions : FMap Action := []
  nextAction : Nat := 0
  waiting : List Nat := []
  rx : FMap RxStream := []
  tx : FMap TxStream := []
  inbox : List Inbound := []
  tc0 : FMap (List Packet) := []
  requests : FMap Request := []
  nextRequest : Nat := 0
  windowsOld : FMap (Nat × Option Window) := []
  windows : FMap Window := []
  lineOps : List LineOp := []
  txns : FMap TxnGroup := []
  nextTxn : Nat := 0
  txnParts : FMap (List TxnPart) := []
  groups : FMap Group := []
  permDone : List PermDone := []
  allParts : List AllParts := []
  standIns : List StandIn := []
  directory : FMap (List (Nat × Nat)) := []
  caches : FMap (List Nat) := []
deriving DecidableEq, Repr

/-! ### Druind (06) -/

/-- A choice of a token (R213 to R227): expert, state (0 GRANTED, 1 DROPPED, 2 SHARED, 3 requesting), the round of
its grant or last refusal, the weight in binary32, the next draw of the hash sequence. -/
structure Choice where
  expert : Nat
  state : Nat
  round : Nat
  weight : Nat
  nextDraw : Nat
deriving DecidableEq, Repr

/-- A token's choices, its reserve, and the experts that have refused it. -/
structure Token where
  choices : List Choice
  reserve : List Nat
  refused : List Nat
deriving DecidableEq, Repr

/-- A count or grant message (R221, R222): its header and its entries. -/
structure GrantMsg where
  abort : Bool
  mismatch : Nat
  rdigest : Nat
  pdigest : Nat
  entries : List (Nat × Nat)
deriving DecidableEq, Repr

/-- A ROUTE that a lead engine holds (R200 to R242). Messages are kept under round × 65,536 + rank. -/
structure RouteRun where
  seat : Nat
  tile : Nat
  ctx : Nat
  addr : Nat
  desc : Bytes
  turn : Nat
  lead : Nat
  share : List Nat
  record : Bytes
  bankB : Bool
  bank : Bytes
  group : Option Nat
  members : List Nat
  rank : Nat
  status : Option Status
  round : Nat
  tokens : List Token
  counts : FMap GrantMsg
  replies : FMap GrantMsg
  decided : Nat
  rem : FMap Nat
  room : FMap Nat
  received : FMap Nat
  granted : FMap Nat
  overflowed : FMap Nat
  dropped : FMap Nat
  grants : List (Nat × Nat × Nat × Nat)
  short : List Nat
  finished : Bool
deriving DecidableEq, Repr

/-- A ROUTE handed over to its lead engine and not accepted (R163, R201). -/
structure RouteAsk where
  tile : Nat
  ctx : Nat
  lead : Nat
  nc : Nat
deriving DecidableEq, Repr

/-- A count or grant message that came before its ROUTE (R220 to R222): whether it is a grant message, group, rank of its
sender. -/
structure EarlyMsg where
  reply : Bool
  group : Nat
  rank : Nat
  bytes : Bytes
deriving DecidableEq, Repr

/-- The Druind engines: ROUTEs handed over, ROUTEs held, messages of more than one packet being gathered, messages that
came early. The spaces routed in each seat's turn stand in the seat. -/
structure DruindSide where
  asks : List RouteAsk := []
  runs : FMap RouteRun := []
  nextRun : Nat := 0
  gather : FMap Bytes := []
  early : List EarlyMsg := []
deriving DecidableEq, Repr

/-! ### The flash tier (08) -/

/-- A namespace (R289): owning port, size in extents. -/
structure Namespace where
  port : Nat
  extents : Nat
deriving DecidableEq, Repr

/-- A programmed stripe (R284, R285, R310, R312, R318): namespace, logical stripe and write sequence number of its spare
area; its units by number 0 to 55, of which one that is not listed was never written or has been trimmed, and reads as zeros
(R291); when it was programmed; the channels whose page positions were left empty. -/
structure NandStripe where
  ns : Nat
  ls : Nat
  wseq : Nat
  units : FMap Bytes
  at_ : Nat := 0
  absent : List Nat := []
deriving DecidableEq, Repr

/-- The map and the configuration (R286, R314): namespaces; the place of each logical stripe; lost-unit masks; grown bad
blocks; the blocks that replace them in a superblock; erase and page-read counts of blocks. A place is superblock ×
1,152 + page, a block is numbered channel × 2^20 + block. -/
structure FlashMap where
  nss : FMap Namespace := []
  map : FMap Nat := []
  lost : FMap Nat := []
  bad : List Nat := []
  members : FMap Nat := []
  erases : FMap Nat := []
  reads : FMap Nat := []
deriving DecidableEq, Repr

/-- A journal record (R315): one change to the map or the configuration. -/
inductive JournalRec where
  | ns (n : Nat) (v : Option Namespace)
  | map (key : Nat) (place : Option Nat)
  | lost (key mask : Nat)
  | bad (block : Nat)
  | member (key block : Nat)
  | erased (block count : Nat)
  | reads (block count : Nat)
deriving DecidableEq, Repr

/-- A journal record as it stands (R315): its sequence number, its CRC-32C, the change. -/
structure JournalEntry where
  seq : W64
  crc : W32
  change : JournalRec
deriving DecidableEq, Repr

/-- A bank of the power-loss store (R314): the fields of its header and its body. -/
structure FlashBank where
  format : W32 := 1
  seq : W32 := 0
  length : W64 := 0
  jnext : W64 := 0
  bcrc : W32 := 0
  hcrc : W32 := 0x55dc4c5d
  body : FlashMap := {}
deriving DecidableEq, Repr

/-- A fill (R294 to R297, R300): who issued it and its hub; the STREAM; the places of its units; the namespace and the turn
at acceptance; the unit that its next turn starts with; the units done; the outcome of units that were not read, as an
event code and a mirror status (R305); the signal that its end makes; stopped, so that it reads no further stripe. -/
structure Fill where
  seat : Nat
  hub : Nat
  desc : Bytes
  places : List Nat
  ns : Nat
  rw : Bool
  turn : Nat
  next : Nat
  done : Nat
  outcomes : FMap (Nat × Nat)
  repairs : List (Nat × Bytes)
  view : Nat
  ctx : Nat
  stopped : Bool := false
deriving DecidableEq, Repr

/-- A unit in recovery (R298): its fill, its number in the fill, the step that it is at, and whether it was in quarantine
before; the place of the stripe that the fill reads and the unit's bytes in it, which a later change of the map leaves
(R293, R299). -/
structure UnitWork where
  fill : Nat
  index : Nat
  step : Nat
  quarantined : Bool
  place : Nat := 0
  data : Bytes := []
deriving DecidableEq, Repr

/-- A unit taken from a mirror that is to be written back (R303). -/
structure Repair where
  hub : Nat
  ns : Nat
  unit : Nat
  data : Bytes
deriving DecidableEq, Repr

/-- The flash tier (R281 to R318): whether it is available; the NAND; the map in force; the two banks and the current one;
journal records not folded in, the next number; the next write sequence number; where writes and relocations go on;
the time of the last bank; channels at the fallback rate, failed channels and packages; blocks that wait to be
moved and those of them that are to be retired; namespace bytes written; per channel the page operations of fills that
background work has not yet had its share of, and since when free superblocks have been few (R307); fills, their turns,
STREAMs handed over, units in recovery, mirror fetches, repairs. -/
structure FlashSide where
  available : Bool := false
  nand : FMap NandStripe := []
  live : FlashMap := {}
  banks : FMap FlashBank := [(0, {})]
  current : Nat := 0
  journal : List JournalEntry := []
  jseq : W64 := 0
  wseq : Nat := 0
  openWrite : Option Nat := none
  openMove : Option Nat := none
  bankAt : Nat := 0
  fallback : List Nat := []
  failedChannels : List Nat := []
  failedPackages : List Nat := []
  moves : List Nat := []
  retire : List Nat := []
  written : Nat := 0
  share : FMap Nat := []
  pressure : Option Nat := none
  fills : FMap Fill := []
  nextFill : Nat := 0
  lastSeat : FMap Nat := []
  lastFill : FMap Nat := []
  asks : List (Nat × Nat) := []
  units : FMap UnitWork := []
  nextUnit : Nat := 0
  mirrorBytes : FMap Bytes := []
  mirrorFailed : FMap Status := []
  repairs : FMap Repair := []
  nextRepair : Nat := 0
deriving DecidableEq, Repr

/-! ### System time (18) -/

/-- What a port's partner has announced (R621, R622): class, source, steps, when. -/
structure Announce where
  cls : Nat
  source : Nat
  steps : Nat
  at_ : Nat
deriving DecidableEq, Repr

/-- A peer-delay exchange on a port (R622): its ID, the transmit stamp of the request, the response's stamps. -/
structure Pdelay where
  id : Nat
  t1 : Nat
  t2 : Option Nat
  t4 : Nat
deriving DecidableEq, Repr

/-- System time (R619 to R623): the hub counter's base and rate, the source in force, the servo. -/
structure TimeKeeping where
  held : Bool := false
  base : Nat := 0
  baseAt : Nat := 0
  ratePpb : Int := 0
  ownMaster : Bool := false
  parent : Option Nat := none
  announces : FMap Announce := []
  good : Nat := 0
  holdover : Bool := false
  syncs : FMap (Nat × Nat) := []
  pdelays : FMap Pdelay := []
  linkDelay : FMap Int := []
  nextId : Nat := 0
  ppsValid : Bool := false
  ppsLast : Option Nat := none
  ppsGood : Nat := 0
deriving DecidableEq, Repr

/-! ### The whole machine -/

/-- The state of the module. `time` counts 1/14.4 GHz: tc 8, hc 9, nc 12, mc 18 units, a beat 2,304 (R23, R480);
`free` numbers the free values drawn so far (log 2); `pending` is the queue of waiting commands. -/
structure State where
  time : Nat := 0
  free : Nat := 0
  pending : List Instr := []
  ident : Ident := {}
  mod : Mod := {}
  pins : Pins := {}
  jtag : Jtag := {}
  clk : Clocks := {}
  pwr : Power := {}
  mem : FMap Byte := []
  poison : FMap Nat := []
  units : Units := {}
  tiles : FMap Tile := []
  clusters : FMap Cluster := []
  sync : Sync := {}
  seats : FMap Seat := []
  host : HostSide := {}
  mgmt : MgmtSide := {}
  sec : Security := {}
  log : LogSide := {}
  mons : FMap Monitor := []
  fw : Firmware := {}
  ctrs : Counters := {}
  druind : DruindSide := {}
  ni : NiSide := {}
  fab : FabSide := {}
  flash : FlashSide := {}
  tk : TimeKeeping := {}
deriving DecidableEq, Repr

/-- The faults of a step. -/
inductive Fault where
  /-- Raised by no command: the spec gives every command an effect in every state, or says that the event cannot
  occur there, and then nothing changes (log 4). Safe: the machine never stops. -/
  | unreachable
deriving DecidableEq, Repr

/-- The refusals of a step. -/
inductive Refusal where
  /-- Raised by an arm of exec for a command that has no meaning yet, under its mnemonic. Safe: the machine stops. -/
  | notModelled (mnemonic : String)
deriving DecidableEq, Repr

/-- The header bytes of the image that slot A holds after manufacture: FORMAT 1, VERSION 1, SVN 0, arithmetic
levels 1 to 1, CPL 1 (log 17). -/
def releaseOne : FMap Byte := [(0, 1), (4, 1), (12, 1), (14, 1), (16, 1)]

/-- The allotment of port 0 at first start: everything (R499). -/
def allotAll : Allot :=
  { clusters := 2 ^ 120 - 1, regions := 0xFFFF, qbase := 0, qsize := 383, nictr0 := 32, nictr1 := 32,
    trig0 := 32, trig1 := 32, windows := 4096, groups := 1024, extents := 3269632 }

/-- The module right after reset: in RESET with its input powered, RST_N and PWR_OK low, nothing begun (R606,
R630), no seat, memory that reads as zero (R608), every register at the value its table gives. -/
def State.reset : State :=
  { host := { allots := [allotAll, {}, {}, {}] }, fw := { slotA := releaseOne } }

end Sys2Proof.Machine
end

