-- ==== Sys2Proof/Machine/Flags.lean ====
section
/-!
DEFINITION. Clocks and times, the fixed and programmable counters (17), the log and the persistent log (16), the
event registers and MSI-X vectors (20), notifications (18) and the accounting fields (14): every flag and count that
a command can move beside its own effect.
-/

namespace Sys2Proof.Machine

/-! ### Times (R23, R480, R559, R619) -/

/-- Units of State.time in one cycle of a domain. -/
def tcUnits : Nat := 8
def hcUnits : Nat := 9
def ncUnits : Nat := 12
def mcUnits : Nat := 18
/-- A beat is 160 ns (R480). -/
def beatUnits : Nat := 2304
/-- A frame is 1,024 mc (R253). -/
def frameUnits : Nat := 18432
def usUnits : Nat := 14400
def secondUnits : Nat := 14400000000

/-- Nanoseconds in a span of time units. -/
def nsOf (u : Nat) : Nat := u * 5 / 72

/-- The beat number: beats since the dawn beat, 0 before it (R660). -/
def State.beat (s : State) : Nat := if s.mod.dawnDone then (s.time - s.clk.dawnTime) / beatUnits else 0

/-- System time in ns by the hub's counter and its rate word (R619). -/
def State.sysTime (s : State) : Nat :=
  s.tk.base + (nsOf (s.time - s.tk.baseAt) * (1000000000 + s.tk.ratePpb).toNat) / 1000000000

/-! ### The 64-bit fixed counters and the programmable counters (R586 to R600) -/

/-- The slot of a seat in a counter's key: 64 where the event is of no seat. -/
def seatSlot : Option Nat → Nat
  | some n => n % 64
  | none => 64

/-- The key of the fixed counter of an event code, seat and instance (R588). -/
def ctrKey (code : Nat) (seat : Option Nat) (inst : Nat) : Nat :=
  (code * 128 + seatSlot seat) * 2048 + inst % 2048

/-- Time units in a cycle of an event's domain (R586, R591). -/
def domainUnits (code : Nat) : Nat :=
  match code / 4096 with
  | 1 => tcUnits
  | 2 => if code = 0x2003 then ncUnits else tcUnits
  | 3 => ncUnits
  | 4 => mcUnits
  | 5 => if code ≤ 0x5002 then ncUnits else if code = 0x5005 then mcUnits else hcUnits
  | _ => hcUnits

/-- n added to a programmable counter: VALUE wraps modulo 2^48 and a carry sets OVF (R598). -/
def pmcAdd (c : W64) (n : Nat) : W64 :=
  let v := c.toNat % 2 ^ 48 + n
  let ovf := 2 ^ 63 ≤ c.toNat || 2 ^ 48 ≤ v
  BitVec.ofNat 64 (v % 2 ^ 48 + (if ovf then 2 ^ 63 else 0))

/-- What the cycles from a run's cycle up to `cycle` add in LEVEL, EDGE or THRESH mode (R587). -/
def pmcClosed (mode : Nat) (inv : Bool) (t : Nat) (r : PmcRun) (cycle : Nat) : Nat :=
  if cycle ≤ r.cycle then 0
  else
    let gap := cycle - r.cycle - 1
    match mode, inv with
    | 1, false => if 0 < r.v then 1 else 0
    | 1, true => (if r.v = 0 then 1 else 0) + gap
    | 2, false => if 0 < r.v && r.prev = 0 then 1 else 0
    | 2, true => (if r.v = 0 && 0 < r.prev then 1 else 0) + (if 0 < gap && 0 < r.v then 1 else 0)
    | 3, false => (if t ≤ r.v then 1 else 0) + (if t = 0 then gap else 0)
    | 3, true => (if r.v < t then 1 else 0) + (if 0 < t then gap else 0)
    | _, _ => 0

/-- A run moved on to a later cycle. -/
def pmcMove (r : PmcRun) (cycle : Nat) : PmcRun :=
  if cycle ≤ r.cycle then r
  else { cycle := cycle, v := 0, prev := if cycle = r.cycle + 1 then r.v else 0 }

/-- Fields of PMC_SEL (R597). -/
def selEvent (x : W64) : Nat := x.toNat % 65536
def selMode (x : W64) : Nat := x.toNat / 2 ^ 16 % 4
def selInv (x : W64) : Bool := x.toNat / 2 ^ 18 % 2 == 1
def selEn (x : W64) : Bool := x.toNat / 2 ^ 19 % 2 == 1
def selTcMask (x : W64) : Nat := x.toNat / 2 ^ 20 % 16
def selInst (x : W64) : Nat := x.toNat / 2 ^ 32 % 65536
def selThresh (x : W64) : Nat := x.toNat / 2 ^ 48 % 65536

/-- Does a select count an event of a code, instance and class (R597, R599). -/
def selCounts (x : W64) (code inst cls : Nat) : Bool :=
  selEn x && selEvent x == code && (selInst x == 0xFFFF || selInst x == inst)
    && (selTcMask x == 0 || selTcMask x / 2 ^ cls % 2 == 1)

/-- The programmable counters of one seat take v of an event at a time (R587, R598). -/
def Pmc.take (p : Pmc) (now code inst cls v : Nat) : Pmc :=
  (List.range 16).foldl (fun p i =>
    let x := p.sel.getD i 0
    if selCounts x code inst cls then
      let cyc := now / domainUnits code
      let key := i * 2048 + inst % 2048
      let r0 : PmcRun := FMap.get { cycle := cyc, v := 0, prev := 0 } p.runs key
      let closed := pmcClosed (selMode x) (selInv x) (selThresh x) r0 cyc
      let r := pmcMove r0 cyc
      let add := if p.freeze then 0 else closed + (if selMode x = 0 then v else 0)
      { p with ctr := p.ctr.set i (pmcAdd (p.ctr.getD i 0) add),
               runs := FMap.insert p.runs key { r with v := r.v + v } }
    else p) p

/-- The programmable counters brought up to a time: every cycle that has ended is counted (R601). -/
def Pmc.settle (p : Pmc) (now : Nat) : Pmc :=
  p.runs.foldl (fun p kr =>
    let i := kr.1 / 2048
    let x := p.sel.getD i 0
    let cyc := now / domainUnits (selEvent x)
    let add := if p.freeze then 0 else pmcClosed (selMode x) (selInv x) (selThresh x) kr.2 cyc
    { p with ctr := p.ctr.set i (pmcAdd (p.ctr.getD i 0) add),
             runs := FMap.insert p.runs kr.1 (pmcMove kr.2 cyc) }) p

/-- The kinds of instance of the Per columns (R591). -/
inductive EvKind where
  | tile | cluster | region | stack | link | hub | port | channel | seatHub | seatRegion | seat | module
deriving DecidableEq, Repr

/-- The kind of an event of block 5 to 9, none where the INDEX is not listed (R591). -/
def evKindHigh (block i : Nat) : Option EvKind :=
  match block with
  | 5 => if i < 2 then some .seatRegion else if i = 2 then some .link else if i < 5 then some .hub else if i = 5 then some .stack else none
  | 6 => if i < 2 then some .hub else if i = 2 then some .seatHub else none
  | 7 => if i < 3 then some .hub else if i = 3 then some .seat else if i < 8 then some .channel else if i = 8 then some .module else none
  | 8 => if i ≤ 0x12 then some .port else none
  | 9 => if i ≤ 0xC then some .hub else if i ≤ 0x15 then some .seatHub else none
  | _ => none

/-- The kind of an event code, none where it names no event (R586, R591). -/
def evKind (code : Nat) : Option EvKind :=
  let i := code % 4096
  match code / 4096 with
  | 1 => if i ≤ 0xE || (0x10 ≤ i && i ≤ 0x20) then some .tile else none
  | 2 => if i ≤ 5 then some .cluster else none
  | 3 => if i ≤ 0xA then some .region else none
  | 4 => if i ≤ 0xB then some .stack else none
  | 10 => if i < 3 then some .seat else none
  | 11 => if i < 3 then some .module else none
  | 12 => if i < 2 then some .module else none
  | b => evKindHigh b i

/-- A seat of permission PERM and Druind share may count an instance of a kind: its own units and per-seat events always (R603). -/
def permits (perm : Nat) (share : List Nat) (k : EvKind) (inst : Nat) : Bool :=
  match k with
  | .tile | .cluster | .seat | .seatHub | .seatRegion => true
  | .region => 2 ≤ perm || (perm == 1 && share.contains inst)
  | .stack => 2 ≤ perm || (perm == 1 && share.contains (inst / 2))
  | .hub | .port | .channel => 1 ≤ perm
  | .link | .module => 2 ≤ perm

/-- Every seat's programmable counters that may count the event take v: of a seat's own event only that seat's, of a shared
block's those that its PERM admits (R507, R603). -/
def takeAll (s : State) (code : Nat) (seat : Option Nat) (inst cls v : Nat) : FMap Seat :=
  let may (n : Nat) (x : Seat) : Bool :=
    match seat, evKind code with
    | some m, _ => m == n
    | none, some k => permits x.snap.perm x.share k inst
    | none, none => false
  s.seats.map (fun ks =>
    if may ks.1 ks.2 then (ks.1, { ks.2 with pmc := ks.2.pmc.take s.time code inst cls v }) else ks)

/-- An event of value v: its fixed counter and the programmable counters that select it (R586 to R588). -/
def State.countCls (s : State) (code : Nat) (seat : Option Nat) (inst cls v : Nat) : State :=
  let k := ctrKey code seat inst
  if v = 0 then s
  else
    { s with
      ctrs := { s.ctrs with fixed := FMap.put 0 s.ctrs.fixed k (FMap.get 0 s.ctrs.fixed k + BitVec.ofNat 64 v) }
      seats := takeAll s code seat inst cls v }

/-- An event of no traffic class: a select with a TCMASK does not count it (log 18). -/
def State.count (s : State) (code : Nat) (seat : Option Nat) (inst v : Nat) : State :=
  s.countCls code seat inst 4 v

/-- An SFL event of a port in a traffic class (R597). -/
def State.countTc (s : State) (code port tc v : Nat) : State := s.countCls code none port (tc % 4) v

/-- A gauge takes a new value (R588). -/
def State.gauge (s : State) (code : Nat) (seat : Option Nat) (inst v : Nat) : State :=
  let fixed := FMap.put 0 s.ctrs.fixed (ctrKey code seat inst) (BitVec.ofNat 64 v)
  { s with ctrs := { s.ctrs with fixed := fixed } }

/-- The value of a fixed counter. -/
def State.counter (s : State) (code : Nat) (seat : Option Nat) (inst : Nat) : W64 :=
  FMap.get 0 s.ctrs.fixed (ctrKey code seat inst)

/-! ### Bandwidth (R595) -/

/-- The resource numbers: ports 0 to 23, stacks 24 to 55, host ports 56 to 59, flash channels 60 to 75; direction
TX (into the resource's far side) first. -/
def bwKey (resource : Nat) (rx : Bool) : Nat := 2 * resource + (if rx then 1 else 0)

/-- Bytes moved through a resource in one direction. -/
def State.moved (s : State) (resource : Nat) (rx : Bool) (bytes : Nat) : State :=
  let k := bwKey resource rx
  let b := FMap.get {} s.ctrs.bw k
  { s with ctrs := { s.ctrs with bw := FMap.put {} s.ctrs.bw k { b with cur := b.cur + bytes } } }

/-! ### Accounting fields (R524, R546) -/

def acctTileBusy : Nat := 0
def acctMatrixBusy : Nat := 1
def acctVectorBusy : Nat := 2
def acctDruindBusy : Nat := 3
def acctCluBytes : Nat := 4
def acctHbmRd : Nat := 5
def acctHbmWr : Nat := 6
def acctPreemptBytes : Nat := 7
def acctFlashRd : Nat := 8
def acctFlashWr : Nat := 9
def acctFabTx (p : Nat) : Nat := 10 + p
def acctFabRx (p : Nat) : Nat := 34 + p
def acctPcieRd : Nat := 58
def acctPcieWr : Nat := 59
def acctHoldFrames : Nat := 60
def acctPreemptTime : Nat := 61
def acctEnergyDyn : Nat := 62
def acctEnergyStatic : Nat := 63

/-- The seat of a number changed where there is one. -/
def State.onSeat (s : State) (n : Nat) (f : Seat → Seat) : State := { s with seats := FMap.upd s.seats n f }

/-- v added to a field of a seat's accounting, modulo 2^64 (R524). -/
def State.charge (s : State) (seat field v : Nat) : State :=
  s.onSeat seat (fun x => { x with acct := FMap.put 0 x.acct field ((FMap.get 0 x.acct field + v) % 2 ^ 64) })

/-! ### MSI-X and the event registers (R540, R660 to R662, R670) -/

/-- The function of a number; a function that nothing has written is as reset leaves it. -/
def State.fn (s : State) (n : Nat) : Func := FMap.get {} s.host.functions n

def State.setFn (s : State) (n : Nat) (f : Func) : State :=
  { s with host := { s.host with functions := FMap.put {} s.host.functions n f } }

/-- A host port is present: the second of a controller only when it is split (R497). -/
def State.portPresent (s : State) (p : Nat) : Bool :=
  match p with
  | 0 => true
  | 1 => s.ident.splitA
  | 2 => true
  | 3 => s.ident.splitB
  | _ => false

/-- A function is there: 16 to a present host port (R498). -/
def State.fnPresent (s : State) (n : Nat) : Bool := s.portPresent (n / 16)

/-- A vector of a function is raised: sent, or its pending bit set while it is masked (R670). -/
def State.raiseVector (s : State) (n v : Nat) : State :=
  let f := s.fn n
  if f.msixMasked || (FMap.get {} f.msix v).masked then
    if f.msixPending.contains v then s else s.setFn n { f with msixPending := f.msixPending ++ [v] }
  else { s with host := { s.host with msixSent := s.host.msixSent ++ [(n, v)] } }

/-- The hc that runs: a clear of a W1C bit that the hardware set in it leaves the bit set (R15). -/
def State.hcNow (s : State) : Nat := s.time / hcUnits

/-- An event sets a bit of a function's EVT_STATUS; the event vector is raised where the bit was 0 and its ENABLE
bit is 1 (R662). -/
def State.event (s : State) (n bit : Nat) : State :=
  let f := s.fn n
  let f := { f with setAt := FMap.insert f.setAt bit s.hcNow }
  if f.evtStatus.getLsbD bit then s.setFn n f
  else
    let s := s.setFn n { f with evtStatus := f.evtStatus ||| (BitVec.ofNat 7 (2 ^ bit)) }
    if f.evtEnable.getLsbD bit then s.raiseVector n 0 else s

def evtRingError : Nat := 0
def evtFaultRecord : Nat := 1
def evtFlashEvent : Nat := 2
def evtLockstepLost : Nat := 3
def evtSeatChange : Nat := 4
def evtReady : Nat := 5
def evtBadAccess : Nat := 6

/-- A seat changes state other than by its own command (R540, R661). -/
def State.seatChanged (s : State) (n : Nat) : State := s.event n evtSeatChange

/-! ### The log (R559 to R564) and notifications (R618) -/

/-- The severity of an event code (R561); codes not listed are never logged. -/
def logSev (event : Nat) : Nat :=
  if [0x0101].contains event then 1
  else if [0x0105, 0x0107, 0x010B, 0x0301, 0x0401, 0x0403, 0x0404, 0x0501, 0x0503, 0x0601, 0x0606, 0x0705,
    0x0707].contains event then 2
  else if [0x0102, 0x0103, 0x0108, 0x0109, 0x010A, 0x010D, 0x0201, 0x0405, 0x0502, 0x0602, 0x0702,
    0x0706].contains event then 3
  else if [0x010C, 0x0604, 0x0605].contains event then 4
  else 0

/-- A record's 32 bytes (R559). -/
def LogRec.bytes (r : LogRec) : Bytes :=
  natLe 4 r.seq.toNat ++
  [BitVec.ofNat 8 (r.sev + (if r.prior then 8 else 0) + (if r.synced then 16 else 0) + (if r.predawn then 32 else 0)),
   BitVec.ofNat 8 (match r.seat with | some n => n + 64 | none => 0)] ++
  natLe 2 r.event ++ natLe 8 r.time ++ natLe 4 (r.kind + r.index * 256 + r.sub * 2 ^ 20) ++
  natLe 4 r.count ++ natLe 8 r.detail.toNat

/-- The MCTP message body of R554: vendor ID, most significant byte first, a kind byte and the rest. -/
def State.vendorMessage (s : State) (kind : Nat) (rest : Bytes) : Bytes :=
  [BitVec.ofNat 8 (s.ident.vendorId / 256), BitVec.ofNat 8 s.ident.vendorId, BitVec.ofNat 8 kind] ++ rest

/-- A notification to the bus owner, at most 100 a second, once an endpoint ID is assigned (R618). -/
def State.notify (s : State) (kind : Nat) (rest : Bytes) : State :=
  match s.mgmt.busOwner with
  | none => s
  | some dest =>
    let recent := s.mgmt.notified.filter (fun t => s.time < t + secondUnits)
    if recent.length < 100 then
      { s with mgmt := { s.mgmt with
          notified := recent ++ [s.time]
          mctpOut := s.mgmt.mctpOut ++ [{ dest := dest, type := 0x7E, body := s.vendorMessage kind rest }] } }
    else s

/-- The first record of the lowest severity below `sev`, removed (R563), or none. -/
def dropLowest (records : List LogRec) (sev : Nat) : Option (List LogRec) :=
  (List.range sev).foldl (fun a v => match a with
    | some r => some r
    | none => if records.any (fun r => r.sev == v) then some (records.eraseP (fun r => r.sev == v)) else none) none

/-- The records after one more is made, and how many were overwritten or discarded (R563). -/
def logAppend (records : List LogRec) (r : LogRec) : List LogRec × Nat :=
  if records.length < 65536 then (records ++ [r], 0)
  else match dropLowest records r.sev with
    | some rest => (rest ++ [r], 1)
    | none => (records, 1)

/-- The persistent log after one more: when full, the oldest ERROR record goes first (R564). -/
def persistAppend (records : List LogRec) (r : LogRec) : List LogRec :=
  if records.length < 4096 then records ++ [r]
  else if records.any (fun x => x.sev == 3) then records.eraseP (fun x => x.sev == 3) ++ [r]
  else records.drop 1 ++ [r]

/-- TIME, SYNCED and PREDAWN of a record made now (R559). -/
def State.logTime (s : State) : Nat × Bool × Bool :=
  if !s.mod.dawnDone then (nsOf (s.time - s.mod.t0) / 40 * 40, false, true)
  else if s.tk.held then (s.sysTime, true, false)
  else (nsOf (s.time - s.clk.dawnTime), false, false)

/-- A record that is made: SEQ, the log, the persistent log, the event vector of the seat or of every seat, FAULT_N
and the notification (R559 to R564, R618). -/
def State.logNew (s : State) (r : LogRec) : State :=
  let r := { r with seq := s.log.nextSeq }
  let a := logAppend s.log.records r
  let s := { s with log := { s.log with
      records := a.1
      nextSeq := s.log.nextSeq + 1
      persistent := if 3 ≤ r.sev then persistAppend s.log.persistent r else s.log.persistent } }
  let s := s.count 0xC000 none 0 a.2
  let s := if 2 ≤ r.sev && r.sev < 4 then (match r.seat with | some n => s.raiseVector n 0 | none => s) else s
  let s := if r.sev = 4 then
      let s := { s with pins := { s.pins with faultN := false } }
      s.seats.foldl (fun s ks => s.raiseVector ks.1 0) s
    else s
  if 2 ≤ r.sev then s.notify 3 r.bytes else s

/-- An event of R561 is logged; a CORRECTED one folds into a record of the same EVENT and LOC made within the last
second (R563). -/
def State.logEvent (s : State) (event : Nat) (seat : Option Nat) (kind index sub : Nat) (detail : Nat) : State :=
  let sev := logSev event
  let same (r : LogRec) : Bool :=
    r.event == event && r.kind == kind && r.index == index && r.sub == sub && s.time ≤ r.madeAt + secondUnits
  if sev == 1 && s.log.records.any same then
    let records := s.log.records.map (fun r => if same r then { r with count := r.count + 1 } else r)
    { s with log := { s.log with records := records } }
  else
    let t := s.logTime
    s.logNew { seq := 0, sev := sev, prior := false, synced := t.2.1, predawn := t.2.2, seat := seat, event := event,
               time := t.1, kind := kind, index := index, sub := sub, count := 1, detail := BitVec.ofNat 64 detail,
               madeAt := s.time }

/-- FAULT_N after records were removed: released when no FATAL record without PRIOR is left and the module is not
in HOLD (R564, R637). -/
def State.faultPin (s : State) : State :=
  let asserted := s.mod.state == .hold || s.log.records.any (fun r => r.sev == 4 && !r.prior)
  { s with pins := { s.pins with faultN := !asserted } }

end Sys2Proof.Machine
end

