-- ==== Sys2Proof/Machine/Ops.lean ====
section
/-!
DEFINITION. The named operations over memory, maps, seats and contexts that the meanings share: the package address
space and its translation (R34 to R36), bytes with poison (R264 to R266), quotas (R501, R504), fault records
(R166, R167), seats' state changes and what ends a context (R79, R115, R119).
-/

namespace Sys2Proof.Machine

/-! ### Byte fields -/

/-- Byte i of a string, 0 beyond its end. -/
def byteAt (bs : Bytes) (i : Nat) : Nat := (bs.getD i 0).toNat

/-- The little-endian field of n bytes at offset o (R12). -/
def fld (bs : Bytes) (o n : Nat) : Nat := leNat ((bs.drop o).take n)

/-- Bits [hi:lo] of a number. -/
def bits (x hi lo : Nat) : Nat := x / 2 ^ lo % 2 ^ (hi + 1 - lo)

def bit (x i : Nat) : Bool := x / 2 ^ i % 2 == 1

/-- All bytes from o to e, e excluded, are 0. -/
def zeros (bs : Bytes) (o e : Nat) : Bool := ((bs.take e).drop o).all (fun b => b == 0)

/-- A string padded with zeros or cut to n bytes. -/
def padTo (n : Nat) (bs : Bytes) : Bytes := bs.take n ++ List.replicate (n - bs.length) 0

/-- bs with the bytes v put at offset o. -/
def splice (bs : Bytes) (o : Nat) (v : Bytes) : Bytes := bs.take o ++ v ++ bs.drop (o + v.length)

/-- The numbers of the bits set in x, below n, ascending. -/
def bitsSet (x n : Nat) : List Nat := (List.range n).filter (fun i => bit x i)

/-- The first status that a list of checks in order gives: a check that holds gives none. -/
def firstFail : List (Bool × Status) → Option Status
  | [] => none
  | (ok, st) :: t => if ok then firstFail t else some st

/-! ### The package address space (R34, R35, R249, R250) -/

def hbmEnd : Nat := 0x18000000000
def regionBytes : Nat := 0x1800000000
def clusterBase : Nat := 0xC00000000000
def clusterBytes : Nat := 0x800000
def tileBase : Nat := 0xD00000000000
def tileSlot : Nat := 0x200000
def tileBytes : Nat := 0x180000
/-- The reserved top of a region begins here, region-relative (R250). -/
def reservedFrom : Nat := 0x17F0000000
/-- The unit of quotas (R501). -/
def quotaUnit : Nat := 0x10000000

/-- The region of an HBM offset (R35). -/
def regionOf (a : Nat) : Nat := a / regionBytes
/-- The stack of an HBM offset (R35). -/
def stackOf (a : Nat) : Nat := 2 * (a / regionBytes) + a % regionBytes / 2048 % 2

/-- Logical tiles of the grade (R1). -/
def Ident.ltiles (i : Ident) : Nat := match i.code with | .a896x32 => 896 | _ => 960
/-- Logical clusters of the grade. -/
def Ident.lclusters (i : Ident) : Nat := i.ltiles / 8

/-- Spare clusters of R25: cluster 7 of every odd region, or of every region in grade 896. -/
def Ident.spareCluster (i : Ident) (pc : Nat) : Bool :=
  pc % 8 == 7 && (i.ltiles == 896 || pc / 8 % 2 == 1)

/-! ### Memory and poison (R264 to R266, R568, R608) -/

/-- The base of the protected word that holds a physical byte: a 64-byte burst in HBM, an 8-byte word in a store. -/
def wordBase (a : Nat) : Nat := if a < hbmEnd then a / 64 * 64 else a / 8 * 8
def wordSize (a : Nat) : Nat := if a < hbmEnd then 64 else 8

/-- The stack of a number; one that nothing has changed is as reset leaves it. -/
def State.stack (s : State) (n : Nat) : Stack := FMap.get {} s.units.hbmStacks n

def State.setStack (s : State) (n : Nat) (x : Stack) : State :=
  { s with units := { s.units with hbmStacks := FMap.put {} s.units.hbmStacks n x } }

/-- The byte lies in a stack that is withdrawn (R568). -/
def State.lostByte (s : State) (a : Nat) : Bool := a < hbmEnd && (s.stack (stackOf a)).withdrawn

/-- One byte by its physical address; an unlisted byte is 0 (R608), a byte of a withdrawn stack reads as poison of
cause 0 (R568). -/
def State.byte (s : State) (a : Nat) : Byte := if s.lostByte a then 0 else FMap.get 0 s.mem a

/-- n bytes from a physical address. -/
def State.bytes (s : State) (a n : Nat) : Bytes := (List.range n).map (fun i => s.byte (a + i))

/-- The word bases that a range of bytes touches. -/
def wordsOf (a n : Nat) : List Nat :=
  if n = 0 then []
  else
    let z := wordSize a
    (List.range ((wordBase (a + n - 1) - wordBase a) / z + 1)).map (fun i => wordBase a + i * z)

/-- The poison cause of the word at a base, or none. -/
def State.wordPoison (s : State) (w : Nat) : Option Nat :=
  if s.lostByte w then some 0 else FMap.find? s.poison w

/-- The cause of the first poisoned word of a range, or none (R113, R264). -/
def State.rangePoison (s : State) (a n : Nat) : Option Nat :=
  (wordsOf a n).foldl (fun r w => match r with | some c => some c | none => s.wordPoison w) none

/-- A byte store for bytes b at a physical address (R266): a word of poison that is covered whole is cleared, one
covered in part stays poison and its written bytes are discarded; a withdrawn stack discards its writes. -/
def State.store (s : State) (a : Nat) (b : Bytes) : State :=
  let n := b.length
  let whole (w : Nat) : Bool := a ≤ w && w + wordSize w ≤ a + n
  let keep (x : Nat) : Bool :=
    !s.lostByte x && ((FMap.find? s.poison (wordBase x)).isNone || whole (wordBase x))
  let mem := ((List.range n).zip b).foldl (fun m ib => if keep (a + ib.1) then FMap.put 0 m (a + ib.1) ib.2 else m) s.mem
  let poison := (wordsOf a n).foldl (fun p w => if whole w then FMap.erase p w else p) s.poison
  { s with mem := mem, poison := poison }

/-- The whole words that a range touches become poison of a cause (R264, R265). -/
def State.poisonRange (s : State) (a n cause : Nat) : State :=
  (wordsOf a n).foldl (fun s w =>
    if s.lostByte w then s
    else
      let mem := (List.range (wordSize w)).foldl (fun m i => FMap.put 0 m (w + i) 0) s.mem
      { s with mem := FMap.put 0 mem w (BitVec.ofNat 8 (cause % 4)), poison := FMap.insert s.poison w (cause % 4) }) s

/-- A result that depends on poisoned data is written as poison, any other as data (R113). -/
def State.storeDep (s : State) (a : Nat) (b : Bytes) (dep : Option Nat) : State :=
  match dep with
  | none => s.store a b
  | some c => s.poisonRange a b.length c

/-- A range moved as it is: poison goes word for word where both sides are whole words of one size, else the
words touched by poisoned source words become poison (R265). -/
def State.move (s : State) (src dst n : Nat) : State :=
  let old := s
  let s := s.store dst (old.bytes src n)
  (wordsOf src n).foldl (fun s w =>
    match old.wordPoison w with
    | none => s
    | some c =>
      let lo := max w src
      let hi := min (w + wordSize w) (src + n)
      s.poisonRange (dst + (lo - src)) (hi - lo) c) s

/-- A range set to zero, poison cleared. -/
def State.zero (s : State) (a n : Nat) : State :=
  { s with mem := s.mem.filter (fun p => !(a ≤ p.1 && p.1 < a + n)),
           poison := s.poison.filter (fun p => !(a ≤ p.1 && p.1 < a + n)) }

/-! ### From logical to physical (R26, R29, R36) -/

def physCluster (pc : Nat) : Nat := clusterBase + pc * clusterBytes
def physTile (pt : Nat) : Nat := tileBase + pt * tileSlot

/-- The physical base of a module logical cluster's store, where it is backed. -/
def State.clusterPhys (s : State) (lc : Nat) : Option Nat := (FMap.find? s.units.clusterMap lc).map physCluster

/-- The physical base of a module logical tile's store, where it is backed. -/
def State.tilePhys (s : State) (lt : Nat) : Option Nat := (FMap.find? s.units.tileMap lt).map physTile

/-! ### Seats, their records and quotas (R30, R501, R504) -/

def State.seat? (s : State) (n : Nat) : Option Seat := FMap.find? s.seats n

def State.setSeat (s : State) (n : Nat) (x : Seat) : State := { s with seats := FMap.insert s.seats n x }

def recShared (r : Bytes) : Bool := bit (byteAt r 1) 0
def recGrain (r : Bytes) : Bool := bit (byteAt r 1) 1
def recCs1400 (r : Bytes) : Bool := bit (byteAt r 1) 2
def recPriority (r : Bytes) : Nat := byteAt r 2 % 8
def recDreSlots (r : Bytes) : Nat := byteAt r 3
def recLevel (r : Bytes) : Nat := fld r 4 2
def recCheck (r : Bytes) : Nat := byteAt r 6
def recSeed (r : Bytes) : Nat := fld r 8 8
def recClusters (r : Bytes) : Nat := fld r 16 16
def recRegions (r : Bytes) : Nat := fld r 32 2
def recQbase (r : Bytes) : Nat := fld r 34 2
def recQsize (r : Bytes) : Nat := fld r 36 2
def recNictr (r : Bytes) (hub : Nat) : Nat := byteAt r (38 + hub)
def recTrig (r : Bytes) (hub : Nat) : Nat := byteAt r (40 + hub)
def recWindows (r : Bytes) : Nat := fld r 42 2
def recGroups (r : Bytes) : Nat := fld r 44 2
def recTc0Cap (r : Bytes) : Nat := fld r 46 2
def recEpoch (r : Bytes) : Nat := fld r 48 4
def recQuantum (r : Bytes) : Nat := fld r 52 2

/-- The module logical clusters that a record names, ascending (R501). -/
def clustersOf (r : Bytes) : List Nat := bitsSet (recClusters r) 128
/-- The regions of a record's quota, ascending. -/
def regionsOf (r : Bytes) : List Nat := bitsSet (recRegions r) 16

/-- Units of 256 MiB that a SHARED seat keeps for its images in every region (R504). -/
def saveUnits (r : Bytes) : Nat :=
  let n := (regionsOf r).length
  if recShared r && 0 < n then
    (20 * 1048576 * (clustersOf r).length + n * quotaUnit - 1) / (n * quotaUnit)
  else 0

/-- The seat's logical tile count (R501). -/
def Seat.ltiles (x : Seat) : Nat := 8 * (clustersOf x.record).length

/-- The module logical cluster of a seat-view cluster number (R30). -/
def Seat.cluster? (x : Seat) (c : Nat) : Option Nat := (clustersOf x.record)[c]?

/-- The module logical tile of a seat-view tile number (R30). -/
def Seat.tile? (x : Seat) (t : Nat) : Option Nat := (x.cluster? (t / 8)).map (fun lc => 8 * lc + t % 8)

/-- The seat-view number of a module logical cluster. -/
def Seat.viewCluster (x : Seat) (lc : Nat) : Option Nat := (clustersOf x.record).idxOf? lc

/-- The seat-view number of a module logical tile. -/
def Seat.viewTile (x : Seat) (lt : Nat) : Option Nat := (x.viewCluster (lt / 8)).map (fun c => 8 * c + lt % 8)

/-- The bounds of the seat's quota in a region, without its save units (R501, R504). -/
def Seat.quota (x : Seat) (r : Nat) : Nat × Nat :=
  (r * regionBytes + recQbase x.record * quotaUnit,
   r * regionBytes + (recQbase x.record + recQsize x.record - saveUnits x.record) * quotaUnit)

/-- n bytes from an HBM offset lie in the seat's quota, outside its save units and the reserved top (R250, R504). -/
def Seat.inQuota (x : Seat) (a n : Nat) : Bool :=
  let r := regionOf a
  (regionsOf x.record).contains r && (x.quota r).1 ≤ a && a + n ≤ (x.quota r).2
    && a + n ≤ r * regionBytes + reservedFrom

/-- The physical address of n bytes at a package offset in the seat's view (R34, R36), or none where it does not
reach them. -/
def State.resolve (s : State) (x : Seat) (a n : Nat) : Option Nat :=
  if a < hbmEnd then (if x.inQuota a n then some a else none)
  else if clusterBase ≤ a && a < clusterBase + 128 * clusterBytes then
    let o := (a - clusterBase) % clusterBytes
    if o + n ≤ clusterBytes then
      ((x.cluster? ((a - clusterBase) / clusterBytes)).bind s.clusterPhys).map (· + o)
    else none
  else if tileBase ≤ a && a < tileBase + 1024 * tileSlot then
    let o := (a - tileBase) % tileSlot
    if o + n ≤ tileBytes then ((x.tile? ((a - tileBase) / tileSlot)).bind s.tilePhys).map (· + o) else none
  else none

/-- The package's own node, as descriptors name it (R126). -/
def State.ownNode (s : State) (node : Nat) : Bool := node == 0xFFFF || node == s.fab.node

/-- A descriptor address in the package, resolved for a seat (R126). -/
def State.descAddr (s : State) (x : Seat) (a n : Nat) : Option Nat :=
  if s.ownNode (a / 2 ^ 48) then s.resolve x (a % 2 ^ 48) n else none

/-- A descriptor address that must lie in the seat's HBM quota. -/
def State.quotaAddr (s : State) (x : Seat) (a n : Nat) : Option Nat :=
  if s.ownNode (a / 2 ^ 48) && a % 2 ^ 48 < hbmEnd then s.resolve x (a % 2 ^ 48) n else none

/-! ### Slot references (R127, R239, R275) -/

/-- A slot reference moved on by k bytes: only its offset bits change (R239). -/
def slotAdd (ref k : Nat) : Nat := ref / 2 ^ 48 * 2 ^ 48 + (ref % 2 ^ 48 + k) % 2 ^ 48

/-- The pieces of n bytes at a slot reference, cut at the parts of the slot, by the seat's layer window: none where the slot
number, the offset of a byte, or the place of a part in the seat's quota does not fit (R127, R275). -/
def State.slotPieces (s : State) (x : Seat) (ref n : Nat) : Option (List (Nat × Nat)) :=
  match x.window with
  | none => none
  | some w =>
    let o := ref % 2 ^ 48
    let m := max 1 n
    if w.slots ≤ ref / 2 ^ 56 || w.partSize * w.regions.length < o + m then none
    else
      (List.range ((o + m - 1) / w.partSize - o / w.partSize + 1)).foldr (fun i r =>
        let p := o / w.partSize + i
        let lo := max o (p * w.partSize)
        let hi := min (o + m) ((p + 1) * w.partSize)
        match r, w.regions[p]? with
        | some l, some reg =>
          (s.resolve x (reg * regionBytes + w.pbase + ref / 2 ^ 56 * w.partSize + (lo - p * w.partSize)) (hi - lo)).map
            (fun a => (a, min n (hi - lo)) :: l)
        | _, _ => none) (some [])

/-- The pieces of n bytes at a slot reference or a descriptor address (R126, R127, R138). -/
def State.spanPieces (s : State) (x : Seat) (slot : Bool) (a n : Nat) : Option (List (Nat × Nat)) :=
  if slot then s.slotPieces x a n else (s.descAddr x a n).map (fun p => [(p, n)])

/-- The place of n bytes at a slot reference that lie in one part. -/
def State.slotAddr (s : State) (x : Seat) (ref n : Nat) : Option Nat :=
  match s.slotPieces x ref n with
  | some [p] => some p.1
  | _ => none

/-- The bytes of pieces, in order. -/
def State.pieceBytes (s : State) (ps : List (Nat × Nat)) : Bytes := ps.flatMap (fun p => s.bytes p.1 p.2)

/-- The cause of the first poison in pieces. -/
def State.piecePoison (s : State) (ps : List (Nat × Nat)) : Option Nat := ps.findSome? (fun p => s.rangePoison p.1 p.2)

/-! ### The directory and the line caches (R388 to R392) -/

/-- A stack's directory: lines with their state in order of allocation: 1, 2, 3 clean in the cache of HD0, HD1, both;
4, 5 modified in the cache of HD0, HD1. -/
def State.dir (s : State) (st : Nat) : List (Nat × Nat) := FMap.get [] s.ni.directory st

def State.setDir (s : State) (st : Nat) (d : List (Nat × Nat)) : State :=
  { s with ni := { s.ni with directory := FMap.put [] s.ni.directory st d } }

/-- The number of the set of a hub's line cache that a line falls into: 16,384 sets of 16 ways. -/
def cacheSet (hub line : Nat) : Nat := hub * 16384 + line / 64 % 16384

/-- A line leaves a hub's cache. -/
def State.uncache (s : State) (hub line : Nat) : State :=
  let k := cacheSet hub line
  { s with ni := { s.ni with caches := FMap.put [] s.ni.caches k ((FMap.get [] s.ni.caches k).erase line) } }

/-- A line's directory state set; 0 removes its entry; a new entry in a full directory evicts the entry allocated
longest ago, which leaves both caches (R392). -/
def State.dirSet (s : State) (line code : Nat) : State :=
  let st := stackOf line
  let d := s.dir st
  if code = 0 then s.setDir st (d.filter (fun e => e.1 != line))
  else if d.any (fun e => e.1 == line) then s.setDir st (d.map (fun e => if e.1 = line then (line, code) else e))
  else if 65536 ≤ d.length then
    match d with
    | [] => s
    | e :: rest => (((s.uncache 0 e.1).uncache 1 e.1).setDir st (rest ++ [(line, code)])).count 0x5005 none st 1
  else s.setDir st (d ++ [(line, code)])

def State.dirCode (s : State) (line : Nat) : Nat := ((FMap.find? (s.dir (stackOf line)) line).getD 0)

/-- The kernel in progress of a seat keeps its bits and has no exact cycle count (R197, R258, R279, R487). -/
def State.inexact (s : State) (seat : Nat) : State :=
  s.onSeat seat (fun x => { x with running := x.running.map (fun r => { r with exact := false }) })

/-- The seats with quota on a stack. -/
def State.stackUsers (s : State) (st : Nat) : List (Nat × Seat) :=
  s.seats.filter (fun (ks : Nat × Seat) => recQsize ks.2.record != 0 && (regionsOf ks.2.record).contains (st / 2))

/-- The kernels of the seats with quota on a stack lose their exact time (R258, R391). -/
def State.stackInexact (s : State) (st : Nat) : State :=
  (s.stackUsers st).foldl (fun (s : State) (ks : Nat × Seat) => s.inexact ks.1) s

/-- The kernels on the stacks of a range lose their exact time (R258). -/
def State.rangeInexact (s : State) (a n : Nat) : State :=
  ((wordsOf a n).map stackOf).eraseDups.foldl State.stackInexact s

/-- A recall or an invalidation of a line is counted, and the kernels on its stack lose their exact time (R391). -/
def State.snooped (s : State) (line : Nat) : State := (s.count 0x4007 none (stackOf line) 1).stackInexact (stackOf line)

/-- An access of a hub's NI or host port to a line goes through the hub's cache: the least recently used line of a full
set is written back and leaves; the other cache's copy is recalled by a read and invalidated by a write (R388,
R389). -/
def State.cacheLine (s : State) (hub line : Nat) (write : Bool) : State :=
  let k := cacheSet hub line
  let l := (FMap.get [] s.ni.caches k).erase line ++ [line]
  let s := { s with ni := { s.ni with caches := FMap.put [] s.ni.caches k (if 16 < l.length then l.drop 1 else l) } }
  let s := if 16 < l.length then (match l with
      | old :: _ =>
        let c := s.dirCode old
        s.dirSet old (if c = 3 then 2 - hub else 0)
      | [] => s) else s
  let c := s.dirCode line
  let other := if c = 3 || c = 2 - hub || c = 5 - hub then true else false
  if write then
    let s := if other then (s.uncache (1 - hub) line).snooped line else s
    s.dirSet line (4 + hub)
  else if c = 5 - hub then (s.dirSet line 3).snooped line
  else if c = 4 + hub then s
  else s.dirSet line (if c = 2 - hub || c = 3 then 3 else 1 + hub)

/-- An access of a tile, Druind, fill or spill write goes to the controller, which recalls modified lines, and before a
write invalidates every copy (R389, R391). -/
def State.snoop (s : State) (a n : Nat) (write : Bool) : State :=
  let r := regionOf a
  let hit := (s.dir (2 * r) ++ s.dir (2 * r + 1)).filter (fun e => a < e.1 + 64 && e.1 < a + n && (write || 4 ≤ e.2))
  hit.foldl (fun s e =>
    let s := s.snooped e.1
    if write then ((s.uncache 0 e.1).uncache 1 e.1).dirSet e.1 0 else s.dirSet e.1 (e.2 - 3)) s

/-- HBM bursts read or written for a seat: the stack's bursts and bandwidth, and the seat's fields (R524, R591,
R595). -/
def State.hbmCount (s : State) (seat : Nat) (a n : Nat) (write : Bool) : State :=
  let r := regionOf a
  let ws := wordsOf a n
  let s := [2 * r, 2 * r + 1].foldl (fun s st =>
    let bursts := (ws.filter (fun w => stackOf w == st)).length
    let s := s.count (if write then 0x4002 else 0x4001) none st bursts
    let s := s.count 0x4000 none st bursts
    if bursts = 0 then s else s.moved (24 + st) (!write) (bursts * 64)) s
  s.charge seat (if write then acctHbmWr else acctHbmRd) n

/-- The 64-byte lines of an HBM range. -/
def linesOf (a n : Nat) : List Nat := (List.range ((a % 64 + n + 63) / 64)).map (fun i => a / 64 * 64 + 64 * i)

/-- HBM bytes read or written for a seat by an NI, through the line cache of a hub (R389). -/
def State.hbmCached (s : State) (seat hub : Nat) (a n : Nat) (write : Bool) : State :=
  if a < hbmEnd then ((linesOf a n).foldl (fun s l => s.cacheLine hub l write) s).hbmCount seat a n write else s

/-- HBM bytes read or written past the line caches for a seat. -/
def State.hbmMoved (s : State) (seat : Nat) (a n : Nat) (write : Bool) : State :=
  if a < hbmEnd then (s.snoop a n write).hbmCount seat a n write else s

/-- A device write for a seat to a resolved place. -/
def State.seatStore (s : State) (seat a : Nat) (b : Bytes) : State :=
  (s.store a b).hbmMoved seat a b.length true

/-! ### Free values (log 2) -/

/-- The next free value, of which the model states nothing, and the state with the counter moved on. -/
def State.fresh (s : State) : W64 × State := (Config.freeValue s.free, { s with free := s.free + 1 })

/-! ### Fault records (R166, R167) -/

/-- The code of a status (R558). -/
def statusCode : Status → Nat
  | .success => 0x0000 | .short => 0x0001 | .replayExcluded => 0x0002
  | .cmdInvalid => 0x0100 | .opcodeUnknown => 0x0101 | .permissionDenied => 0x0102 | .seatState => 0x0103
  | .moduleState => 0x0104 | .configInvalid => 0x0105 | .unsupported => 0x0106 | .tilesUnavailable => 0x0107
  | .quotaExceeded => 0x0108 | .seatConflict => 0x0109 | .allotmentInUse => 0x010A | .levelUnsupported => 0x010B
  | .levelMismatch => 0x010C | .turnAborted => 0x010D | .admissionRequired => 0x010E
  | .descInvalid => 0x0200 | .formatInvalid => 0x0201 | .addrInvalid => 0x0202 | .metaInvalid => 0x0203
  | .tableStale => 0x0204 | .spillUnfollowed => 0x0205 | .triggerBusy => 0x0206 | .windowInvalid => 0x0207
  | .hbmModeBusy => 0x0208
  | .dataPoisoned => 0x0300 | .streamUncorrectable => 0x0301 | .checkFail => 0x0302 | .contextAborted => 0x0303
  | .memberLost => 0x0304
  | .descMismatch => 0x0400 | .lengthMismatch => 0x0401 | .spaceUnknown => 0x0402 | .spaceBusy => 0x0403
  | .placementInvalid => 0x0404 | .placementMismatch => 0x0405 | .swapRejected => 0x0406 | .routeAborted => 0x0407
  | .keyDenied => 0x0500 | .epochStale => 0x0501 | .timeout => 0x0502 | .noRoute => 0x0503 | .notReady => 0x0504
  | .namespaceAbsent => 0x0600 | .flashUnavailable => 0x0601 | .flashFull => 0x0602 | .flashReadOnly => 0x0603
  | .namespaceBusy => 0x0604
  | .imageInvalid => 0x0900 | .unlockDenied => 0x0A00

/-- The 32 bytes of a fault record (R166). -/
def faultBytes (st : Status) (ctx type ltile addr turn detail : Nat) : Bytes :=
  natLe 2 (statusCode st) ++ [BitVec.ofNat 8 ctx, BitVec.ofNat 8 type] ++ natLe 2 ltile ++ [0, 0] ++
    natLe 8 addr ++ natLe 8 turn ++ natLe 8 detail

/-- A record of 32 bytes goes to a ring of 1,024 slots at an area of the seat: whole, and before PRODUCED advances; none
where no area is named or the ring is full (R167, R305). -/
def State.ringAppend (s : State) (seat : Nat) (x : Seat) (area : Nat) (rec : Bytes) : Option State :=
  if area = 0 then none
  else
    match s.quotaAddr x area 32832 with
    | none => none
    | some a =>
      let produced := leNat (s.bytes a 4)
      let consumed := leNat (s.bytes (a + 4) 4)
      if (produced + 2 ^ 32 - consumed) % 2 ^ 32 = 1024 then none
      else
        let s := s.seatStore seat (a + 64 + 32 * (produced % 1024)) rec
        some (s.seatStore seat a (natLe 4 ((produced + 1) % 2 ^ 32)))

/-- The rank of a fault record among those of one hc: its seat-view tile, then its context (R167). -/
def tileRank (view ctx : Nat) : Nat := 8 * view + ctx

/-- The rank of a record of Druind or an NI: after those of tiles (R167). -/
def unitRank : Nat := 2 ^ 16

/-- A record takes its place after those of no higher rank. -/
def placeRecord (r : Nat × Bytes) : List (Nat × Bytes) → List (Nat × Bytes)
  | [] => [r]
  | x :: t => if r.1 < x.1 then r :: x :: t else x :: placeRecord r t

/-- The records of one hc are written to the slots from the first of them on, as they now stand in order (R167). -/
def State.writeRecords (s : State) (area : Nat) (x : Seat) (rs : List (Nat × Bytes)) : State :=
  match s.quotaAddr x area 32832 with
  | none => s
  | some a =>
    let first := (leNat (s.bytes a 4) + 2 ^ 32 - rs.length) % 2 ^ 32
    ((List.range rs.length).zip rs).foldl (fun s ir =>
      s.store (a + 64 + 32 * ((first + ir.1) % 1024)) ir.2.2) s

/-- A fault record goes to the seat's ring, among those of the same hc by its rank, or is dropped and counted (R167); the
function's event is raised (R540). -/
def State.faultRecord (s : State) (seat rank : Nat) (rec : Bytes) : State :=
  match s.seat? seat with
  | none => s
  | some x =>
    match s.ringAppend seat x x.areas.fault rec with
    | some t =>
      let now := s.time / hcUnits
      let rs := placeRecord (rank, rec) (if x.hcRecords.1 = now then x.hcRecords.2 else [])
      let t := t.writeRecords x.areas.fault x rs
      (t.onSeat seat (fun y => { y with hcRecords := (now, rs) })).event seat evtFaultRecord
    | none => s.count 0xA002 (some seat) 0 1

/-! ### Contexts (R79) -/

/-- The tile of a module logical number. -/
def State.tile (s : State) (t : Nat) : Tile := FMap.get {} s.tiles t

def State.setTile (s : State) (t : Nat) (x : Tile) : State := { s with tiles := FMap.put {} s.tiles t x }

def State.ctx (s : State) (t c : Nat) : Ctx := (s.tile t).ctxs.getD c {}

def State.setCtx (s : State) (t c : Nat) (x : Ctx) : State :=
  s.setTile t { s.tile t with ctxs := (s.tile t).ctxs.set c x }

/-- The seat-view number of a tile for the counters of its seat; the module number where it is not held. -/
def State.view (s : State) (seat t : Nat) : Nat := ((s.seat? seat).bind (fun x => x.viewTile t)).getD t

/-- The first error status of a kernel and of its turn is kept (R168, R491, R547). -/
def State.noteStatus (s : State) (seat : Nat) (st : Status) : State :=
  s.onSeat seat (fun x =>
    { x with running := x.running.map (fun r => { r with status := r.status.orElse (fun _ => some st) })
             facts := { x.facts with failed := true, firstStatus := x.facts.firstStatus.orElse (fun _ => some st) } })

/-- The turn of a seat is failed with a status (R168, R491). -/
def State.failTurn (s : State) (n : Nat) (st : Status) : State :=
  s.onSeat n (fun x => { x with facts := { x.facts with failed := true, firstStatus := x.facts.firstStatus.orElse (fun _ => some st) } })

/-- The pending slots of a descriptor move to RETIRED or WASTED (R593). -/
def State.slotsEnd (s : State) (seat t c : Nat) (retired : Bool) : State :=
  let x := s.ctx t c
  let s := s.count (if retired then 0x1001 else 0x1002) (some seat) (s.view seat t) x.pending
  let g := (s.counter 0x1003 (some seat) (s.view seat t)).toNat
  let s := s.gauge 0x1003 (some seat) (s.view seat t) (g - x.pending)
  s.setCtx t c { s.ctx t c with pending := 0 }

/-- A context's descriptor ends with an error status: fault record, FAULTED, slots wasted (R119, R166, R593). -/
def State.faultCtx (s : State) (t c : Nat) (st : Status) (detail : Nat) : State :=
  let x := s.ctx t c
  match x.cur with
  | none => s
  | some e =>
    let turn := match s.seat? x.seat with | some q => q.turn.toNat | none => 0
    let s := s.slotsEnd x.seat t c false
    let s := s.setCtx t c { s.ctx t c with state := .faulted }
    let s := s.noteStatus x.seat st
    s.faultRecord x.seat (tileRank (s.view x.seat t) c) (faultBytes st c (byteAt e.desc 0) (s.view x.seat t) (0xFFFF * 2 ^ 48 + e.addr) turn detail)

/-- A context that holds a stream stops at once with CONTEXT_ABORTED (R115). -/
def State.abortCtx (s : State) (t c : Nat) : State :=
  let x := s.ctx t c
  if x.state = .free || x.state = .faulted then s
  else
    let d := match x.cur with | some e => byteAt e.desc 0 | none => 0
    let a := match x.cur with | some e => e.addr | none => x.next
    let turn := match s.seat? x.seat with | some q => q.turn.toNat | none => 0
    let s := s.slotsEnd x.seat t c false
    let s := s.setCtx t c { s.ctx t c with state := .faulted }
    let s := s.noteStatus x.seat .contextAborted
    s.faultRecord x.seat (tileRank (s.view x.seat t) c) (faultBytes .contextAborted c d (s.view x.seat t) (0xFFFF * 2 ^ 48 + a) turn 0)

/-- A context stops under KERNEL_ABORT or a stop step and goes to FREE; its slots are wasted (R550, R593, R613). -/
def State.freeCtx (s : State) (t c : Nat) : State :=
  let x := s.ctx t c
  let s := s.slotsEnd x.seat t c false
  s.setCtx t c {}

/-- The statuses of consumed poison (R264). -/
def poisonStatus (cause : Nat) : Status := if cause = 2 then .streamUncorrectable else .dataPoisoned

/-! ### Counters (R128 to R132) -/

def tileCtrKey (seat t i : Nat) : Nat := (seat * 1024 + t) * 64 + i
def cluCtrKey (seat c i : Nat) : Nat := (seat * 128 + c) * 256 + i
def niCtrKey (seat n : Nat) : Nat := seat * 4096 + n

/-- The value of a counter that a target names. -/
def State.readCtr (s : State) (seat : Nat) : Target → W32
  | .tile t i => FMap.get 0 s.sync.tileCtr (tileCtrKey seat t i)
  | .cluster c i => FMap.get 0 s.sync.cluCtr (cluCtrKey seat c i)
  | .ni n => FMap.get 0 s.ni.ctr (niCtrKey seat n)

def State.writeCtr (s : State) (seat : Nat) (t : Target) (v : W32) : State :=
  match t with
  | .tile t i => { s with sync := { s.sync with tileCtr := FMap.put 0 s.sync.tileCtr (tileCtrKey seat t i) v } }
  | .cluster c i => { s with sync := { s.sync with cluCtr := FMap.put 0 s.sync.cluCtr (cluCtrKey seat c i) v } }
  | .ni n => { s with ni := { s.ni with ctr := FMap.put 0 s.ni.ctr (niCtrKey seat n) v } }

/-- A number for a counter, for the order of updates in one tc. -/
def targetKey (seat : Nat) : Target → Nat
  | .tile t i => 3 * tileCtrKey seat t i
  | .cluster c i => 3 * cluCtrKey seat c i + 1
  | .ni n => 3 * niCtrKey seat n + 2

/-- A signal or SET takes effect on its counter: within one tc a SET comes before every signal, and of two SETs
that of the lower tile, then the lower context, stands (R131, R132). -/
def State.applySignal (s : State) (g : Signal) : State :=
  let tc := s.time / tcUnits
  let k := targetKey g.seat g.target
  let old := FMap.find? s.sync.ctrTc k
  let r : CtrTc := match old with
    | some o => if o.tc = tc then o else { tc := tc, adds := 0, setBy := none }
    | none => { tc := tc, adds := 0, setBy := none }
  let rank := g.tile * 8 + g.ctx
  let keep (r : CtrTc) (s : State) : State := { s with sync := { s.sync with ctrTc := FMap.insert s.sync.ctrTc k r } }
  if g.isSet then
    match r.setBy with
    | some b =>
      if b ≤ rank then s
      else keep { r with setBy := some rank } (s.writeCtr g.seat g.target (g.value + r.adds))
    | none => keep { r with setBy := some rank } (s.writeCtr g.seat g.target (g.value + r.adds))
  else
    keep { r with adds := r.adds + g.value } (s.writeCtr g.seat g.target (s.readCtr g.seat g.target + g.value))

/-- A signal on its way joins those in flight. -/
def State.sendSignal (s : State) (g : Signal) : State :=
  { s with sync := { s.sync with signals := s.sync.signals ++ [g] } }

/-- What a counter reference names for a tile of a seat, or none where it is invalid (R129). -/
def crefTarget (x : Seat) (view cref : Nat) : Option Target :=
  let scope := bits cref 31 28
  let t := bits cref 27 8
  let i := bits cref 7 0
  match scope with
  | 0 => if t = 0 && i < 64 then some (.tile view i) else none
  | 1 => if t < x.ltiles && i < 64 then some (.tile t i) else none
  | 2 => if t < (clustersOf x.record).length then some (.cluster t i) else none
  | 3 =>
    let n := bits cref 15 8 * 256 + i
    if bits cref 27 16 = 0 && (if n < 2048 then n < 64 * recNictr x.record 0
        else n < 4096 && n - 2048 < 64 * recNictr x.record 1) then some (.ni n) else none
  | _ => none

end Sys2Proof.Machine
end

