-- ==== Sys2Proof/Machine/Arbiter.lean ====
section
/-!
DEFINITION. Where traffic goes and what it meets: the arbiters of R105 at the banks of tile and cluster stores and at a cluster's
port to the region router (R99, R100, R107, R111), the die-to-die links (R18, R347, R562), and the counters of both (R591).
An access joins its arbiters when its row has its effect, and the arbiters come up to a time when the next one joins or the
tile's issue stage takes its next tc (log 65).
-/

namespace Sys2Proof.Machine

/-! ### Arbitration (R105) -/

/-- The requests of N requesters in the order in which an arbiter of R105 grants them from its pointer: (n - P) mod N. -/
def arbOrder {α : Type} (n p : Nat) (req : α → Nat) (rs : List α) : List α :=
  (List.range n).flatMap (fun i => rs.filter (fun r => (req r + n - p % n) % n == i))

/-- The banks that an access takes in one cycle: consecutive, wrapping from 63 to 0 (R99). -/
def Want.banks (w : Want) : List Nat := (List.range (min w.width w.left)).map (fun i => (w.bank + i) % 64)

/-- The access after its lines of one cycle. -/
def Want.served (w : Want) : Want :=
  { w with bank := (w.bank + min w.width w.left) % 64, left := w.left - min w.width w.left }

/-- Of every requester its oldest access, which is the one at its port. -/
def atPorts (ws : List Want) : List Want :=
  ws.foldl (fun a w => if a.any (fun x => x.req == w.req) then a else a ++ [w]) []

/-- What one cycle of an arbiter leaves: its pointer, its accesses, the requesters refused, the banks granted, and the copy engines
that had an access at it. -/
structure ArbOut where
  ptr : Nat
  wants : List Want
  refused : Nat := 0
  banks : Nat := 0
  engines : Nat := 0

/-- One tc of a store's banks: requesters in order, each granted if none of its banks has gone to one before it; the pointer
moves on after a refusal (R105). -/
def bankCycle (ptr : Nat) (ws : List Want) : ArbOut :=
  let r := (arbOrder 9 ptr Want.req (atPorts ws)).foldl (fun (a : List Nat × List Nat × Nat) w =>
    if w.banks.any (fun b => a.1.contains b) then (a.1, a.2.1, a.2.2 + 1)
    else (a.1 ++ w.banks, a.2.1 ++ [w.req], a.2.2)) ([], [], 0)
  let ws' := (ws.foldl (fun (a : List Want × List Nat) w =>
    if a.2.contains w.req then (a.1 ++ [w.served], a.2.filter (· ≠ w.req)) else (a.1 ++ [w], a.2)) ([], r.2.1)).1
  { ptr := if r.2.2 = 0 then ptr else (ptr + 1) % 9, wants := ws'.filter (fun w => w.left != 0), refused := r.2.2,
    banks := r.1.length }

/-- One nc of a cluster's port to the region router: four parts of 128 bytes, 512 bytes in all, to the requesters in order
(R105, R107, R111). -/
def portCycle (ptr : Nat) (ws : List Want) : ArbOut :=
  let os := arbOrder 9 ptr Want.req (atPorts ws)
  let got := (os.take 4).map Want.req
  let ws' := (ws.foldl (fun (a : List Want × List Nat) w =>
    if a.2.contains w.req then (a.1 ++ [w.served], a.2.filter (· ≠ w.req)) else (a.1 ++ [w], a.2)) ([], got)).1
  { ptr := if os.length ≤ 4 then ptr else (ptr + 1) % 9, wants := ws'.filter (fun w => w.left != 0), refused := os.length - 4,
    engines := (os.filter (fun w => w.req != 8)).length }

/-- Cycles of an arbiter from cycle c on until nothing waits or n cycles have passed; weight says how often a cycle's copy engines
count. -/
def arbRun (cycle : Nat → List Want → ArbOut) (weight : Nat → Nat) : Nat → Nat → ArbOut → ArbOut
  | 0, _, a => a
  | n + 1, c, a =>
    if a.wants.isEmpty then a
    else
      let b := cycle a.ptr a.wants
      arbRun cycle weight n (c + 1) { b with
        refused := a.refused + b.refused
        banks := a.banks + b.banks
        engines := a.engines + weight c * b.engines }

/-- The tc that begin in an nc (R20). -/
def tcOfNc (c : Nat) : Nat := ((c + 1) * ncUnits + tcUnits - 1) / tcUnits - (c * ncUnits + tcUnits - 1) / tcUnits

/-- Cycles that the accesses of an arbiter can need at most. -/
def arbFuel (ws : List Want) (gap : Nat) : Nat := min gap (ws.foldl (fun a w => a + w.left) 0)

/-! ### The arbiters of the stores and ports, brought up to a time -/

/-- The seat that holds a module logical cluster in a turn, with its seat-view number: the first of them that is on it. -/
def State.clusterView (s : State) (lc : Nat) : Option (Nat × Nat) :=
  s.seats.findSome? (fun ks => (ks.2.viewCluster lc).bind (fun c =>
    if decide (ks.2.preempt.phase = .none) then some (ks.1, c) else none))

/-- The banks of a tile's store come up to now; refusals are counted (R105, R591). -/
def State.tileArb (s : State) (lt : Nat) : State :=
  let x := s.tile lt
  let now := s.time / tcUnits
  let a := arbRun bankCycle (fun _ => 0) (arbFuel x.wants (now - x.wantTc)) x.wantTc { ptr := x.bankPtr, wants := x.wants }
  let s := s.setTile lt { x with bankPtr := a.ptr, wants := a.wants, wantTc := now }
  match s.clusterView (lt / 8) with
  | some (n, c) => s.count 0x100E (some n) (8 * c + lt % 8) a.refused
  | none => s

def State.cluster (s : State) (lc : Nat) : Cluster := FMap.get {} s.clusters lc

def State.setCluster (s : State) (lc : Nat) (x : Cluster) : State := { s with clusters := FMap.put {} s.clusters lc x }

/-- The banks of a cluster's store and its router port come up to now; refusals and banks are counted (R105, R591). -/
def State.clusterArb (s : State) (lc : Nat) : State :=
  let x := s.cluster lc
  let tc := s.time / tcUnits
  let nc := s.time / ncUnits
  let a := arbRun bankCycle (fun _ => 0) (arbFuel x.wants (tc - x.wantTc)) x.wantTc { ptr := x.bankPtr, wants := x.wants }
  let b := arbRun portCycle tcOfNc (arbFuel x.portWants (nc - x.portNc)) x.portNc { ptr := x.routerPtr, wants := x.portWants }
  let s := s.setCluster lc { bankPtr := a.ptr, wants := a.wants, wantTc := tc, routerPtr := b.ptr, portWants := b.wants, portNc := nc }
  match s.clusterView lc with
  | some (n, c) => ((s.count 0x2000 (some n) c (a.refused + b.refused)).count 0x2001 (some n) c a.banks).count 0x2002 (some n) c b.engines
  | none => s

/-- Lines of a store that n bytes at offset o cover. -/
def storeLines (o n : Nat) : Nat := if n = 0 then 0 else (o + n - 1) / 16 - o / 16 + 1

/-- A port of a tile's store wants n bytes at an offset, in accesses of its width (R100). -/
def State.tileWant (s : State) (lt req o n width : Nat) : State :=
  if n = 0 then s
  else
    let s := s.tileArb lt
    let x := s.tile lt
    s.setTile lt { x with wants := x.wants ++ [{ req := req, bank := o / 16 % 64, left := storeLines o n, width := width / 16 }] }

/-- A requester wants n bytes of a cluster's store at an offset: a tile port by ring position, or 8 for the region router
(R107). -/
def State.clusterWant (s : State) (lc req o n : Nat) : State :=
  if n = 0 then s
  else
    let s := s.clusterArb lc
    let x := s.cluster lc
    s.setCluster lc { x with wants := x.wants ++ [{ req := req, bank := o / 16 % 64, left := storeLines o n, width := 8 }] }

/-- A requester has n bytes for a cluster's port to the region router: a copy engine by ring position, or 8 for the
cluster-store side; the bytes are counted (R107, R111, R591). -/
def State.portWant (s : State) (lc req n : Nat) : State :=
  if n = 0 then s
  else
    let s := s.clusterArb lc
    let x := s.cluster lc
    let s := s.setCluster lc { x with portWants := x.portWants ++ [{ req := req, bank := 0, left := (n + 127) / 128, width := 1 }] }
    match s.clusterView lc with
    | some (k, c) => s.count 0x2003 (some k) c n
    | none => s

/-! ### Places and paths -/

/-- The module logical cluster that a physical cluster backs. -/
def State.clusterAt (s : State) (pc : Nat) : Option Nat :=
  (List.find? (fun (lp : Nat × Nat) => lp.2 == pc) s.units.clusterMap).map (·.1)

/-- The module logical tile that a physical tile backs. -/
def State.tileAt (s : State) (pt : Nat) : Option Nat :=
  (List.find? (fun (lp : Nat × Nat) => lp.2 == pt) s.units.tileMap).map (·.1)

def State.ptile (s : State) (pt : Nat) : PTile := FMap.get {} s.units.ptiles pt

/-- A physical tile is not fenced (R565). -/
def State.tileHealthy (s : State) (pt : Nat) : Bool := (s.ptile pt).fence.isNone

/-- What a physical address lies in: a physical tile, a physical cluster's store, or a region's HBM. -/
inductive Place where
  | tile (pt : Nat) | cluster (pc : Nat) | hbm (region : Nat)
deriving DecidableEq, Repr

def placeOf (a : Nat) : Place :=
  if a < hbmEnd then .hbm (regionOf a)
  else if a < tileBase then .cluster ((a - clusterBase) / clusterBytes)
  else .tile ((a - tileBase) / tileSlot)

/-- The physical cluster of a place; HBM has none. -/
def Place.cluster? : Place → Option Nat
  | .tile pt => some (pt / 8)
  | .cluster pc => some pc
  | .hbm _ => none

/-- The compute die of a place: four regions a die (R17). -/
def Place.die : Place → Nat
  | .tile pt => pt / 256
  | .cluster pc => pc / 32
  | .hbm r => r / 4

/-- The number of the link between two compute dies (R562). -/
def dieLink (a b : Nat) : Nat :=
  match min a b, max a b with
  | 0, 1 => 0 | 0, 2 => 1 | 0, 3 => 2 | 1, 2 => 3 | 1, 3 => 4 | _, _ => 5

/-- The links between two compute dies: their own link, none within a die (R18). -/
def diePath (a b : Nat) : List Nat := if a = b then [] else [dieLink a b]

/-- The links between a compute die and a hub: the die's own link where it has one; else over the compute die that the paths of
R347 pair it with, FD0 with FD2 and FD1 with FD3 (R18, log 65). -/
def hubPath (die hub : Nat) : List Nat :=
  if die / 2 = hub then [6 + die] else [dieLink die ((die + 2) % 4), 6 + (die + 2) % 4]

/-- The links of transit between the hubs, for an even-numbered port or the NI of HD0, and otherwise (R347). -/
def transitPath (even : Bool) : List Nat := if even then [6, 1, 8] else [7, 4, 9]

/-- n bytes cross die-to-die links, each counted (R18, R347, R591). -/
def State.overLinks (s : State) (links : List Nat) (n : Nat) : State := links.foldl (fun s l => s.count 0x5002 none l n) s

/-- n bytes at a physical address are read or written through a port of its store: the router side of a cluster store, the copy
engine of a tile (R100, R104, R107). -/
def State.atStore (s : State) (a n : Nat) (write : Bool) (req : Nat) : State :=
  match placeOf a with
  | .hbm _ => s
  | .cluster pc =>
    (match s.clusterAt pc with
      | some lc => s.clusterWant lc req ((a - clusterBase) % clusterBytes) n
      | none => s)
  | .tile pt =>
    (match s.tileAt pt with
      | some lt => s.tileWant lt (if write then 1 else 2) ((a - tileBase) % tileSlot) n 128
      | none => s)

/-- n bytes leave or enter a place through its cluster's port to the region router (R29, R111). -/
def State.throughPort (s : State) (p : Place) (n : Nat) : State :=
  match p with
  | .hbm _ => s
  | .cluster pc => (match s.clusterAt pc with | some lc => s.portWant lc 8 n | none => s)
  | .tile pt => (match s.clusterAt (pt / 8) with
      | some lc => s.portWant lc (match s.tileAt pt with | some lt => lt % 8 | none => pt % 8) n
      | none => s)

/-- n bytes go from one physical address to another inside the package: the banks at both ends, the router ports where the
ends are not in one physical cluster, the die-to-die link between their dies (R18, R29, R99, R107, R111). -/
def State.carry (s : State) (src dst n : Nat) : State :=
  let a := placeOf src
  let b := placeOf dst
  let same := a.cluster?.isSome && a.cluster? == b.cluster?
  let side (p : Place) : Nat := if same then (match p with
      | .tile pt => (match s.tileAt pt with | some lt => lt % 8 | none => pt % 8)
      | _ => 8) else 8
  let s := (s.atStore src n false (side b)).atStore dst n true (side a)
  let s := if same then s else (s.throughPort a n).throughPort b n
  s.overLinks (diePath a.die b.die) n

/-- n bytes go between a hub and a physical address (R18, R107, R111). -/
def State.carryHub (s : State) (hub a n : Nat) (write : Bool) : State :=
  (((s.atStore a n write 8).throughPort (placeOf a) n)).overLinks (hubPath (placeOf a).die hub) n

/-- Pieces of memory are read by the NI of a hub for a seat, or written by it, through the hub's line cache (R18, R107, R111, R389,
R524). -/
def State.hubTraffic (s : State) (seat hub : Nat) (ps : List (Nat × Nat)) (write : Bool) : State :=
  ps.foldl (fun s p => (s.hbmCached seat hub p.1 p.2 write).carryHub hub p.1 p.2 write) s

end Sys2Proof.Machine
end

