-- ==== Sys2Proof/Machine/Dice.lean ====
section
/-!
DEFINITION. The Dice generator and its counters (R70 to R73).
-/

namespace Sys2Proof.Machine

/-- The four words of Dice. -/
structure DiceWords where
  x0 : W32
  x1 : W32
  x2 : W32
  x3 : W32
deriving DecidableEq, Repr

/-- One round of R70, round number r, with the seed words. -/
def diceRound (k0 k1 : W32) (r : Nat) (d : DiceWords) : DiceWords :=
  let x0 := d.x0 + d.x1
  let x3 := (d.x3 ^^^ x0).rotateLeft 16
  let x2 := d.x2 + x3
  let x1 := (d.x1 ^^^ x2).rotateLeft 12
  let x0 := x0 + x1
  let x3 := (x3 ^^^ x0).rotateLeft 8
  let x2 := x2 + x3
  let x1 := (x1 ^^^ x2).rotateLeft 7
  { x0 := x0 ^^^ k0, x1 := x1, x2 := x2 ^^^ (k1 + BitVec.ofNat 32 (r * 0x9E3779B9)), x3 := x3 }

/-- Dice of a counter of four words under a 64-bit seed (R70): five rounds, r from 0 to 4. -/
def dice (c : DiceWords) (seed : W64) : DiceWords :=
  let k0 := seed.setWidth 32
  let k1 := (seed >>> 32).setWidth 32
  [0, 1, 2, 3, 4].foldl (fun d r => diceRound k0 k1 r d) c

/-- The hash-routing counter of R72 for a token, a space and a draw index. -/
def hashCounter (token space j : Nat) : DiceWords :=
  { x0 := BitVec.ofNat 32 token, x1 := BitVec.ofNat 32 (token / 2 ^ 32),
    x2 := BitVec.ofNat 32 (space * 65536 + 1), x3 := BitVec.ofNat 32 j }

/-- The rounding counter of R72 for an element index, a kernel identifier, a stream and a turn. -/
def roundCounter (n kid stream turn : Nat) : DiceWords :=
  { x0 := BitVec.ofNat 32 n, x1 := BitVec.ofNat 32 (n / 2 ^ 32),
    x2 := BitVec.ofNat 32 (kid * 256 + stream), x3 := BitVec.ofNat 32 turn }

/-- The pip of hash routing (R72): word x0. -/
def pip (seed : W64) (token space j : Nat) : Nat := (dice (hashCounter token space j) seed).x0.toNat

/-- The draw r of R58. -/
def roundDraw (seed : W64) (n kid stream turn : Nat) : Nat := (dice (roundCounter n kid stream turn) seed).x0.toNat

/-- The halfword h of R73 for element n. -/
def dropHalf (seed : W64) (n kid stream turn : Nat) : Nat :=
  let d := dice (roundCounter (n / 8) kid stream turn) seed
  let i := n % 8
  let w := match i / 2 with | 0 => d.x0 | 1 => d.x1 | 2 => d.x2 | _ => d.x3
  w.toNat / 2 ^ (16 * (i % 2)) % 65536

/-- The factor of a kept element: 65,536 / (65,536 - D) rounded to binary32 (R73). -/
def dropFactor (d : Nat) : Val :=
  (roundTo 1 .rne ((Val.ofInt 65536 0).div (Val.ofInt (65536 - (d % 65536 : Nat)) 0)).1).1

end Sys2Proof.Machine
end

