-- ==== Sys2Proof/Machine/Operands.lean ====
section
/-!
DEFINITION. Every operand form of the descriptors: packed rows and MX scales (R47, R52, R134), N:M structured rows
(R169 to R174), the block-row compressed form (R175 to R185), the conversion control (R55, R58) and the writing of
packed results with their poison (R113).
-/

namespace Sys2Proof.Machine

/-! ### The common header (R121) -/

def dType (d : Bytes) : Nat := byteAt d 0
def dEnd (d : Bytes) : Bool := bit (byteAt d 1) 0
def dSig (d : Bytes) : Bool := bit (byteAt d 1) 1
def dSpill (d : Bytes) : Bool := bit (byteAt d 1) 2
def dSigVal (d : Bytes) : Nat := fld d 2 2
def dKid (d : Bytes) : Nat := fld d 4 3
def dStream (d : Bytes) : Nat := byteAt d 7
def dSigRef (d : Bytes) : Nat := fld d 8 4

/-- A format byte holds its code in [4:0] (R120). -/
def fmtByte (d : Bytes) (o : Nat) : Nat := byteAt d o % 32

/-! ### Conversion control (R55 to R58) -/

def cvtMode (cvt : Nat) : Nat := cvt % 4
def cvtSat (cvt : Nat) : Bool := bit cvt 2

/-- The rounding of a conversion for the element of index n (R58). -/
def cvtRounding (cvt : Nat) (seed : W64) (n kid stream turn : Nat) : Rounding :=
  match cvtMode cvt with
  | 1 => .rtz
  | 2 => .sr (roundDraw seed n kid stream turn)
  | _ => .rne

/-- The rounding of vector-engine arithmetic (R56). -/
def arithRounding (cvt : Nat) : Rounding := if cvtMode cvt = 1 then .rtz else .rne

/-- The logical coordinates of the draws of a descriptor: the turn's seed, kernel, stream and turn (R58, R71). -/
structure Draws where
  seed : W64
  kid : Nat
  stream : Nat
  turn : Nat
deriving DecidableEq, Repr

def Draws.rounding (w : Draws) (cvt n : Nat) : Rounding := cvtRounding cvt w.seed n w.kid w.stream w.turn

/-! ### Packed rows -/

/-- A row of elements read from a physical address: its packed number, and the cause of poison in it. -/
structure Row where
  code : Nat
  data : Nat
  scales : Nat
  poison : Option Nat
deriving DecidableEq, Repr

/-- S of R134: the scale bytes of a row, rounded up to a multiple of 16. -/
def scaleLen (k : Nat) : Nat := (k / 32 + 15) / 16 * 16

/-- n elements of a format at a, with one scale byte per 32 elements at sc where the format is MX (R52). -/
def State.readRow (s : State) (code a n sc : Nat) : Row :=
  let len := packedLen code n
  let sl := if fmtMx code then (n + 31) / 32 else 0
  { code := code
    data := leNat (s.bytes a len)
    scales := leNat (s.bytes sc sl)
    poison := (s.rangePoison a len).orElse (fun _ => s.rangePoison sc sl) }

/-- Element i of a row whose scale byte is the one of index k / 32 (R53). -/
def Row.value (r : Row) (i k : Nat) : Val :=
  let v := decodeElem r.code (elemBits r.code r.data i)
  if fmtMx r.code then (v.mul (decodeScale (r.scales / 256 ^ (k / 32)))).1 else v

/-! ### Counts of metadata faults (R182) -/

def MetaCounts.add (a b : MetaCounts) : MetaCounts :=
  { range := a.range + b.range, order := a.order + b.order, dup := a.dup + b.dup, scale := a.scale + b.scale,
    overfull := a.overfull + b.overfull }

/-! ### N:M rows (R169 to R174) -/

/-- N and M of a SPARSE code: 1 is 2:4, 2 is 4:8 (R133). -/
def nmN (sparse : Nat) : Nat := if sparse = 2 then 4 else 2
def nmM (sparse : Nat) : Nat := if sparse = 2 then 8 else 4
/-- Bits of one index. -/
def nmBits (sparse : Nat) : Nat := if sparse = 2 then 3 else 2

/-- Bytes of a row's index metadata for k reduction indices (R172): k / 8 or 3k / 16. -/
def nmIndexBytes (sparse k : Nat) : Nat :=
  if sparse = 2 then (k / 8 * 12 + 7) / 8 else (k / 4 * 4 + 7) / 8

/-- The pairs of one group in ascending index order, later repeats dropped and counted (R174). -/
def nmGroup (pairs : List (Nat × Nat)) : List (Nat × Nat) × Nat :=
  pairs.foldl (fun a p =>
    if a.1.any (fun q => q.1 == p.1) then (a.1, a.2 + 1)
    else (a.1.filter (fun q => q.1 < p.1) ++ [p] ++ a.1.filter (fun q => p.1 < q.1), a.2)) ([], 0)

/-- The kept values of an N:M row of k reduction indices: reduction index and stored position, ascending, with the
repeats dropped counted (R170, R174). -/
def nmRow (sparse k idx : Nat) : List (Nat × Nat) × Nat :=
  let n := nmN sparse
  let w := nmBits sparse
  (List.range (k / nmM sparse)).foldl (fun a g =>
    let ps := (List.range n).map (fun j => (idx / 2 ^ (w * (n * g + j)) % 2 ^ w, n * g + j))
    let r := nmGroup ps
    (a.1 ++ r.1.map (fun p => (nmM sparse * g + p.1, p.2)), a.2 + r.2)) ([], 0)

/-! ### The row operand of a pass (R89) -/

/-- One row of the row operand: its values by segment, each at its reduction index in ascending order, with the metadata faults
met in each segment, and the poison in what was read. -/
structure OpRow where
  segs : List (List (Nat × Val))
  faults : List MetaCounts
  poison : Option Nat
deriving DecidableEq, Repr

/-- A dense row. -/
def Row.dense (r : Row) (k : Nat) : OpRow :=
  { segs := [(List.range k).map (fun i => (i, r.value i i))], faults := [{}], poison := r.poison }

/-- An N:M row with its index bytes at ia (R170, R172, R173). -/
def State.nmOpRow (s : State) (sparse code k a ia sc : Nat) : OpRow :=
  let ib := nmIndexBytes sparse k
  let vl := packedLen code (k / 2)
  let sl := if fmtMx code then (k + 31) / 32 else 0
  let r : Row := { code := code, data := leNat (s.bytes a vl), scales := leNat (s.bytes sc sl), poison := none }
  let m := nmRow sparse k (leNat (s.bytes ia ib))
  { segs := [m.1.map (fun p => (p.1, r.value p.2 p.1))]
    faults := [{ dup := m.2 }]
    poison := ((s.rangePoison a vl).orElse (fun _ => s.rangePoison ia ib)).orElse (fun _ => s.rangePoison sc sl) }

/-! ### The block-row compressed form (R175 to R185) -/

/-- Bytes of a stored block (R176). -/
def blockBytes (code sparse : Nat) : Nat :=
  let v := if sparse = 0 then 16 * packedLen code 16 else 16 * packedLen code 8
  let i := if sparse = 0 then 0 else 16 * nmIndexBytes sparse 16
  (v + i + 15) / 16 * 16

/-- How a record is read: the bytes of a length at an offset of it. -/
abbrev RecordReader := Nat → Nat → Bytes

/-- The record at a physical address. -/
def State.recordAt (s : State) (a : Nat) : RecordReader := fun o n => s.bytes (a + o) n

def brcBrows (rd : RecordReader) : Nat := leNat (rd 0 4)
def brcNblk (rd : RecordReader) : Nat := leNat (rd 4 4)
def brcPtr (rd : RecordReader) (b : Nat) : Nat := leNat (rd (16 + 4 * b) 4)
/-- The offset of the block columns. -/
def brcColAt (rd : RecordReader) (i : Nat) : Nat := 16 + 4 * (brcBrows rd + 1) + 4 * i
def brcCol (rd : RecordReader) (i : Nat) : Nat := leNat (rd (brcColAt rd i) 4)
/-- The length L of a record (R175). -/
def brcLen (rd : RecordReader) : Nat := (16 + 4 * (brcBrows rd + 1) + 4 * brcNblk rd + 15) / 16 * 16

/-- The record is well formed as far as block row b of `reach` block rows reads it (R183). -/
def brcOk (rd : RecordReader) (reach b : Nat) : Bool :=
  zeros (rd 0 16) 8 16 && reach ≤ brcBrows rd && brcPtr rd 0 == 0
    && brcPtr rd b ≤ brcPtr rd (b + 1) && brcPtr rd (b + 1) ≤ brcNblk rd

/-- The kept blocks of a block row: number and column, in stored order, with the drops counted (R181, R182). -/
def keptBlocks (rd : RecordReader) (b k : Nat) : List (Nat × Nat) × MetaCounts :=
  let lo := brcPtr rd b
  (List.range (brcPtr rd (b + 1) - lo)).foldl (fun r j =>
    let i := lo + j
    let col := brcCol rd i
    if (k + 15) / 16 ≤ col then (r.1, { r.2 with range := r.2.range + 1 })
    else match r.1.getLast? with
      | some p => if col ≤ p.2 then (r.1, { r.2 with order := r.2.order + 1 }) else (r.1 ++ [(i, col)], r.2)
      | none => (r.1 ++ [(i, col)], r.2)) ([], {})

/-- The segments of R185 over the kept blocks. -/
def segmentsAux : Nat → List (Nat × Nat) → List (List (Nat × Nat))
  | 0, _ => []
  | fuel + 1, kept =>
    if kept.isEmpty then []
    else
      let pair := match kept[31]?, kept[32]? with
        | some x, some y => x.2 % 2 == 0 && y.2 == x.2 + 1
        | _, _ => false
      let n := if pair then 33 else 32
      kept.take n :: segmentsAux fuel (kept.drop n)

def segments (kept : List (Nat × Nat)) : List (List (Nat × Nat)) :=
  if kept.isEmpty then [[]] else segmentsAux kept.length kept

/-- One row of one kept block from its packed values and its index bits: its values at reduction indices below k, with its scale,
and the repeats dropped (R174, R176). -/
def blockRow (sparse code k : Nat) (scale : Val) (col data idx : Nat) : List (Nat × Val) × Nat :=
  let val (p : Nat) : Val :=
    let v := decodeElem code (elemBits code data p)
    if fmtMx code then (v.mul scale).1 else v
  if sparse = 0 then
    ((List.range 16).filterMap (fun p => if 16 * col + p < k then some (16 * col + p, val p) else none), 0)
  else
    let m := nmRow sparse 16 idx
    (m.1.map (fun p => (16 * col + p.1, val p.2)), m.2)

/-- Values of a block row in one stored row. -/
def blockVals (sparse : Nat) : Nat := if sparse = 0 then 16 else 8

/-- The block whose scales a kept block uses: the even partner directly before it, where it is the odd one (R178). -/
def scaleSource (kept : List (Nat × Nat)) (i col : Nat) : Nat :=
  if col % 2 == 1 then
    match kept.find? (fun p => p.2 + 1 == col) with
    | some p => p.1
    | none => i
  else i

/-- A row over the segments of its kept blocks, each block's row and faults given by `one` (R185). -/
def rowOfBlocks (kept : List (Nat × Nat)) (one : Nat × Nat → List (Nat × Val) × MetaCounts) (poison : Option Nat) : OpRow :=
  let segs := (segments kept).map (fun seg => seg.foldl (fun a p =>
    let r := one p
    (a.1 ++ r.1, a.2.add r.2)) (([] : List (Nat × Val)), ({} : MetaCounts)))
  { segs := segs.map (·.1), faults := segs.map (·.2), poison := poison }

/-- Row `row` of block row operands over its segments, from blocks and scales at physical addresses (R176 to R186). -/
def blockOpRow (s : State) (sparse code k values scales : Nat) (kept : List (Nat × Nat)) (row : Nat) : OpRow :=
  let n := packedLen code (blockVals sparse)
  let ib := nmIndexBytes sparse 16
  let at_ (i : Nat) : Nat := values + i * blockBytes code sparse
  let one (p : Nat × Nat) : List (Nat × Val) × MetaCounts :=
    let src := scaleSource kept p.1 p.2
    let own := byteAt (s.bytes (scales + 16 * p.1 + row) 1) 0
    let used := byteAt (s.bytes (scales + 16 * src + row) 1) 0
    let r := blockRow sparse code k (decodeScale used) p.2 (leNat (s.bytes (at_ p.1 + row * n) n))
      (leNat (s.bytes (at_ p.1 + 16 * n + row * ib) ib))
    (r.1, { dup := r.2, scale := if fmtMx code && own != used then 1 else 0 })
  rowOfBlocks kept one (kept.findSome? (fun p =>
    (s.rangePoison (at_ p.1) (blockBytes code sparse)).orElse
      (fun _ => if fmtMx code then s.rangePoison (scales + 16 * scaleSource kept p.1 p.2) 16 else none)))

/-! ### Writing packed results (R88, R113) -/

/-- A run that ends a row: an FP6 row is filled up with zero elements to a whole group of four (R47). -/
def fillRun (code start : Nat) (es : List (Nat × Option Nat)) : List (Nat × Option Nat) :=
  if fmtBits code = 6 then es ++ List.replicate ((4 - (start + es.length) % 4) % 4) (0, none) else es

/-- A run of elements written at positions start onward of a packed row, by the rule of stores (R266); each element that
depends on poison is written as poison (R113). The bits that share a byte with the first or the last element and belong to
none of the run keep their value: so do the upper four of the last byte after an odd number of FP4 or INT4 elements, of
which the spec says nothing (log 24). -/
def State.writeRun (s : State) (base code start : Nat) (es : List (Nat × Option Nat)) : State :=
  let w := fmtBits code
  let n := es.length
  if n = 0 then s
  else
    let b0 := start * w / 8
    let off := start * w % 8
    let nb := (off + n * w + 7) / 8
    let old := leNat (s.bytes (base + b0) nb)
    let v := old % 2 ^ off + packElems code (es.map (·.1)) * 2 ^ off
      + old / 2 ^ (off + n * w) * 2 ^ (off + n * w)
    let s := s.store (base + b0) (natLe nb v)
    ((List.range n).zip es).foldl (fun s ie =>
      match ie.2.2 with
      | none => s
      | some c =>
        let lo := (start + ie.1) * w / 8
        let hi := ((start + ie.1 + 1) * w + 7) / 8
        s.poisonRange (base + lo) (hi - lo) c) s

/-! ### Passes (R60, R93, R186) -/

/-- What a pass leaves in one cell: its accumulator, its segment register, and the events (R186, R187). -/
structure CellOut where
  acc : Val
  seg : Val
  events : FpEvents

/-- One segment of one cell from a start value: products by group, the groups in ascending order; with the number of groups
that have a product. -/
def segElem (gs : Nat) (start : Val) (seg : List (Nat × Val)) (col : Nat → Val) : Val × FpEvents × Nat :=
  let gsl := cutGroups gs (seg.map (fun p => (p.1, p.2, col p.1)))
  let r := accumGroups (start, .none) (gsl.map (·.2))
  (r.1, r.2, gsl.length)

/-- One output element of a pass from its segments: segment sums added in ascending order, +0 added once where some group has
no product at all (R93, R186). -/
def passElem (gs k : Nat) (init : Val) (segs : List (List (Nat × Val))) (col : Nat → Val) : CellOut :=
  match segs with
  | [] => { acc := init, seg := .num false 0 0, events := .none }
  | s0 :: rest =>
    let r0 := segElem gs init s0 col
    let r := rest.foldl (fun (a : (Val × Val) × FpEvents × Nat) seg =>
      let x := segElem gs (.num false 0 0) seg col
      let m := accumulate a.1.1 x.1
      ((m.1, x.1), (a.2.1.add x.2.1).add m.2, a.2.2 + x.2.2)) ((r0.1, r0.1), r0.2)
    if r.2.2 < (k + gs - 1) / gs then
      let z := accumulate r.1.1 (.num false 0 0)
      { acc := z.1, seg := r.1.2, events := r.2.1.add z.2 }
    else { acc := r.1.1, seg := r.1.2, events := r.2.1 }

/-- The binary32 bits of a value that is one. -/
def bits32 (v : Val) : Nat := (convert 1 .rne false v).1

/-- A pass leaves its 256 sums, of cell (i, j) at place 16 i + j, in the accumulator bank in use, and the next pass uses the other
(R86); with segments, the last sums of a segment are in the segment registers (R187). -/
def State.setBank (s : State) (lt : Nat) (acc seg : List W32) : State :=
  let x := s.tile lt
  let x := if seg.isEmpty then x else { x with seg := seg }
  s.setTile lt (if x.bank then { x with acc1 := acc, bank := false } else { x with acc0 := acc, bank := true })

/-- A pass over a segment leaves its sums in the segment registers (R187). -/
def State.setSegment (s : State) (lt : Nat) (seg : List W32) : State := s.setTile lt { s.tile lt with seg := seg }

/-- The 256 cells of a block, each from its row and column, 0 beyond the block's shape (R87). -/
def gridOf (rows cols : Nat) (f : Nat → Nat → Nat) : List W32 :=
  (List.range 256).map (fun q => if q / 16 < rows && q % 16 < cols then BitVec.ofNat 32 (f (q / 16) (q % 16)) else 0)

/-- The floating-point events of a descriptor are counted at its tile (R68). -/
def State.countFp (s : State) (seat view : Nat) (e : FpEvents) : State :=
  (((s.count 0x1010 (some seat) view e.invalid).count 0x1011 (some seat) view e.overflow).count
    0x1012 (some seat) view e.nanNarrowed).count 0x1013 (some seat) view e.mxNanBlock

/-- The metadata faults of a descriptor are counted at the owner (R182). -/
def State.countMeta (s : State) (seat view : Nat) (m : MetaCounts) : State :=
  ((((s.count 0x1014 (some seat) view m.range).count 0x1015 (some seat) view m.order).count
    0x1016 (some seat) view m.dup).count 0x1017 (some seat) view m.scale).count 0x1018 (some seat) view m.overfull

end Sys2Proof.Machine
end

