-- ==== Sys2Proof/Machine/Matrix.lean ====
section
/-!
DEFINITION. MATMUL (R133 to R136, R678) and GMM with its group table (R137 to R144, R675, R676), work stealing
(R188 to R197): checks, the number of steps, and what the passes write.
-/

namespace Sys2Proof.Machine

/-- What a descriptor of a tile's context sees: the seat, its view number, the tile's physical base, the draws. -/
structure DescEnv where
  seatNo : Nat
  seat : Seat
  ltile : Nat
  view : Nat
  base : Nat
  draws : Draws
deriving DecidableEq, Repr

/-- The environment of a context's descriptor, where its seat is there and its tile backed. -/
def State.descEnv (s : State) (t c : Nat) (d : Bytes) : Option DescEnv :=
  let x := s.ctx t c
  match s.seat? x.seat, s.tilePhys t with
  | some q, some b =>
    some { seatNo := x.seat, seat := q, ltile := t, view := (q.viewTile t).getD t, base := b,
           draws := { seed := q.seedTurn, kid := dKid d, stream := dStream d, turn := q.turn.toNat } }
  | _, _ => none

/-- The outcome of a descriptor's own effect: the state, and the error status with its detail where it ends so. -/
structure DescOut where
  s : State
  err : Option (Status × Nat)

/-! ### Checks shared by descriptors (R119, R120, R125) -/

/-- A TSA field: reserved bits 0 and a multiple of 16 (R125). -/
def tsaOk (a : Nat) : Bool := a < 2 ^ 21 && a % 16 == 0

/-- rows rows of len bytes, ld apart, from a TSA lie below 0x18_0000 (R98). -/
def tsaSpan (a rows ld len : Nat) : Bool := len == 0 || rows == 0 || a + (rows - 1) * ld + len ≤ tileBytes

/-- A conversion control: reserved bits 0 (else DESC_INVALID), MODE 3 reserved (else FORMAT_INVALID) (R55). -/
def cvtReserved (b : Nat) : Bool := b < 16 && !bit b 3
def cvtModeOk (b : Nat) : Bool := b % 4 != 3

def ceilDiv (a b : Nat) : Nat := if b = 0 then 0 else (a + b - 1) / b

/-! ### MATMUL -/

def mmA (d : Bytes) := fld d 12 4
def mmB (d : Bytes) := fld d 16 4
def mmC (d : Bytes) := fld d 20 4
def mmAS (d : Bytes) := fld d 24 4
def mmBS (d : Bytes) := fld d 28 4
def mmMeta (d : Bytes) := fld d 32 4
def mmM (d : Bytes) := fld d 36 2
def mmN (d : Bytes) := fld d 38 2
def mmK (d : Bytes) := fld d 40 3
def mmSparse (d : Bytes) := byteAt d 43 % 4
def mmBlock (d : Bytes) := bit (byteAt d 43) 2
def mmTrans (d : Bytes) := bit (byteAt d 43) 3
def mmAcc (d : Bytes) := bit (byteAt d 43) 4
def mmAF (d : Bytes) := fmtByte d 44
def mmBF (d : Bytes) := fmtByte d 45
def mmCF (d : Bytes) := fmtByte d 46
def mmCvt (d : Bytes) := byteAt d 47
def mmALd (d : Bytes) := fld d 48 2
def mmBLd (d : Bytes) := fld d 50 2
def mmCLd (d : Bytes) := fld d 52 2
def mmEib (d : Bytes) := fld d 56 8

/-- Bytes of the row operand's row as its LD must cover them (R135). -/
def mmARowLen (d : Bytes) : Nat :=
  if mmSparse d ≠ 0 && !mmBlock d then packedLen (mmAF d) (mmK d / 2) else packedLen (mmAF d) (mmK d)

/-- Bytes of a row of C as written (R135). -/
def mmCRowLen (d : Bytes) : Nat := packedLen (mmCF d) (if mmTrans d then mmM d else mmN d)

/-- The checks of a MATMUL in order: its own fields, formats, the stepping, the operands' places (R120, R125, R133,
R135, R171, R678, R98). -/
def checkMatmul (b1 : Bool) (d : Bytes) : Option (Status × Nat) :=
  let af := mmAF d
  let bf := mmBF d
  let cf := mmCF d
  let sp := mmSparse d
  let kp := mmK d
  match firstFail [
    (byteAt d 43 < 32 && zeros d 54 56 && byteAt d 44 < 32 && byteAt d 45 < 32 && byteAt d 46 < 32
      && cvtReserved (mmCvt d) && !dSpill d, .descInvalid),
    (fmtValid af && fmtValid bf && fmtValid cf && cvtModeOk (mmCvt d), .formatInvalid),
    (!fmtMx cf, .descInvalid),
    (af % 16 != 0 && bf % 16 != 0 && !(mmAcc d && cf == 0), .formatInvalid),
    (!(fmtMx af || fmtMx bf) || kp % 32 == 0, .formatInvalid),
    (sp != 3 && 1 ≤ mmM d && 1 ≤ mmN d && 1 ≤ kp, .descInvalid),
    (b1 || sp != 2, .unsupported),
    ([mmA d, mmB d, mmC d, mmAS d, mmBS d, mmMeta d].all tsaOk && [mmALd d, mmBLd d, mmCLd d].all (fun l => l % 16 == 0),
      .descInvalid),
    ((fmtMx af || mmAS d == 0) && (fmtMx bf || mmBS d == 0), .descInvalid),
    (mmARowLen d ≤ mmALd d && packedLen bf kp ≤ mmBLd d && mmCRowLen d ≤ mmCLd d, .descInvalid),
    (if sp != 0 || mmBlock d then mmMeta d != 0 else mmMeta d == 0, .descInvalid),
    (!mmBlock d || sp == 0 || kp % 16 == 0, .descInvalid),
    (sp == 0 || mmBlock d || kp % nmM sp == 0, .descInvalid)] with
  | some st => some (st, 0)
  | none =>
    if !mmBlock d && !tsaSpan (mmA d) (mmM d) (mmALd d) (mmARowLen d) then some (.addrInvalid, mmA d)
    else if mmBlock d && tileBytes ≤ mmA d then some (.addrInvalid, mmA d)
    else if !tsaSpan (mmB d) (mmN d) (mmBLd d) (packedLen bf kp) then some (.addrInvalid, mmB d)
    else if !tsaSpan (mmC d) (if mmTrans d then mmN d else mmM d) (mmCLd d) (mmCRowLen d) then some (.addrInvalid, mmC d)
    else if fmtMx af && !(if mmBlock d then mmAS d < tileBytes else tsaSpan (mmAS d) (mmM d) (scaleLen kp) (kp / 32)) then
      some (.addrInvalid, mmAS d)
    else if fmtMx bf && !tsaSpan (mmBS d) (mmN d) (scaleLen kp) (kp / 32) then some (.addrInvalid, mmBS d)
    else if (sp != 0 || mmBlock d) && !(if mmBlock d then tsaSpan (mmMeta d) 1 0 16
        else tsaSpan (mmMeta d) (mmM d) ((nmIndexBytes sp kp + 15) / 16 * 16) (nmIndexBytes sp kp)) then
      some (.addrInvalid, mmMeta d)
    else none

/-- The steps of a MATMUL: one for each output block (R76, R136). -/
def stepsMatmul (d : Bytes) : Nat := ceilDiv (mmM d) 16 * ceilDiv (mmN d) 16

/-- The row operand's rows of block row rb, with the metadata faults of the blocks dropped (R136, R181); the error where the
record is malformed (R183), or where what the block row reads of it, its blocks or its scales reaches beyond the store
(R98). -/
def State.matmulRows (s : State) (base : Nat) (d : Bytes) (rb : Nat) : Except (Status × Nat) (List OpRow × MetaCounts) :=
  let rows := (List.range 16).filterMap (fun i => if 16 * rb + i < mmM d then some (16 * rb + i) else none)
  let k := mmK d
  let sp := mmSparse d
  let sl := scaleLen k
  if mmBlock d then
    let rd := s.recordAt (base + mmMeta d)
    let len := brcLen rd
    let hi := brcPtr rd (rb + 1)
    if tileBytes < mmMeta d + len then .error (.addrInvalid, mmMeta d)
    else if !brcOk rd (ceilDiv (mmM d) 16) rb then .error (.metaInvalid, 0)
    else if tileBytes < mmA d + hi * blockBytes (mmAF d) sp then .error (.addrInvalid, mmA d)
    else if fmtMx (mmAF d) && tileBytes < mmAS d + 16 * hi then .error (.addrInvalid, mmAS d)
    else
      let kept := keptBlocks rd rb k
      let mp := s.rangePoison (base + mmMeta d) len
      .ok (rows.map (fun r =>
        let x := blockOpRow s sp (mmAF d) k (base + mmA d) (base + mmAS d) kept.1 (r % 16)
        { x with poison := x.poison.orElse (fun _ => mp) }), kept.2)
  else if sp ≠ 0 then
    let p := (nmIndexBytes sp k + 15) / 16 * 16
    .ok (rows.map (fun r =>
      s.nmOpRow sp (mmAF d) k (base + mmA d + r * mmALd d) (base + mmMeta d + r * p) (base + mmAS d + r * sl)), {})
  else
    .ok (rows.map (fun r => (s.readRow (mmAF d) (base + mmA d + r * mmALd d) k (base + mmAS d + r * sl)).dense k), {})

/-- The metadata faults that rows meet in a segment. -/
def rowFaults (rows : List OpRow) (k : Nat) : MetaCounts := rows.foldl (fun a r => a.add (r.faults.getD k {})) {}

/-- The metadata faults that rows meet. -/
def allFaults (rows : List OpRow) : MetaCounts := rows.foldl (fun a r => r.faults.foldl (fun b f => b.add f) a) {}

/-- One pass of a MATMUL: output block (rb, cb) from its rows (R60, R85, R136), written by row, or by column when
TRANS is set (R88); with the cause of the first poison on which a result depends. -/
def State.matmulPass (s : State) (v : DescEnv) (d : Bytes) (rows : List OpRow) (rb cb : Nat) : State × FpEvents × Option Nat :=
  let k := mmK d
  let gs := groupSize (mmAF d) (mmBF d)
  let cols := (List.range 16).filterMap (fun j =>
    if 16 * cb + j < mmN d then
      some (16 * cb + j, s.readRow (mmBF d) (v.base + mmB d + (16 * cb + j) * mmBLd d) k
        (v.base + mmBS d + (16 * cb + j) * scaleLen k))
    else none)
  let place (i j : Nat) : Nat × Nat := if mmTrans d then (v.base + mmC d + j * mmCLd d, i) else (v.base + mmC d + i * mmCLd d, j)
  let elem (i : Nat) (r : OpRow) (jc : Nat × Row) : (Nat × Option Nat) × FpEvents × Nat × Nat :=
    let j := jc.1
    let pl := place i j
    let cw := fmtBits (mmCF d)
    let ca := pl.1 + pl.2 * cw / 8
    let init : Val := if mmAcc d then
        decodeElem (mmCF d) (leNat (s.bytes ca ((pl.2 * cw % 8 + cw + 7) / 8)) / 2 ^ (pl.2 * cw % 8))
      else .num false 0 0
    let ip := if mmAcc d then s.rangePoison ca ((pl.2 * cw % 8 + cw + 7) / 8) else none
    let p := passElem gs k init r.segs (fun i => jc.2.value i i)
    let n := mmEib d + i * mmN d + j
    let o := convert (mmCF d) (v.draws.rounding (mmCvt d) n) (cvtSat (mmCvt d)) p.acc
    ((o.1, (r.poison.orElse (fun _ => jc.2.poison)).orElse (fun _ => ip)), p.events.add o.2, bits32 p.acc, bits32 p.seg)
  let block := ((List.range 16).zip rows).map (fun ir => cols.map (fun jc => elem (16 * rb + ir.1) ir.2 jc))
  let ev := block.foldl (fun a row => row.foldl (fun a x => a.add x.2.1) a) FpEvents.none
  let bad := block.findSome? (fun row => row.findSome? (fun x => x.1.2))
  let ends (len start : Nat) (es : List (Nat × Option Nat)) : List (Nat × Option Nat) :=
    if start + es.length = len then fillRun (mmCF d) start es else es
  let s1 := if mmTrans d then
      (List.range cols.length).foldl (fun s jj =>
        s.writeRun (v.base + mmC d + (16 * cb + jj) * mmCLd d) (mmCF d) (16 * rb)
          (ends (mmM d) (16 * rb) (block.map (fun row => (row.getD jj ((0, none), .none, 0, 0)).1)))) s
    else
      ((List.range block.length).zip block).foldl (fun s ir =>
        s.writeRun (v.base + mmC d + (16 * rb + ir.1) * mmCLd d) (mmCF d) (16 * cb)
          (ends (mmN d) (16 * cb) (ir.2.map (·.1)))) s
  let cell (i j : Nat) : Nat × Nat := ((block.getD i []).getD j ((0, none), .none, 0, 0)).2.2
  let grid (f : Nat × Nat → Nat) : List W32 := gridOf block.length cols.length (fun i j => f (cell i j))
  (s1.setBank v.ltile (grid (·.1)) (if mmBlock d then grid (·.2) else []), ev, bad)

/-- Array-busy tc of a pass over kc columns of blocks or k indices (R84, R91, R92). -/
def passTc (af bf sparse k : Nat) (blocks : Option Nat) : Nat :=
  let rate (f : Nat) : Nat := match f % 16 with | 1 => 1 | 2 => 4 | 3 => 4 | 4 => 8 | 5 => 8 | 9 => 8 | _ => 16
  let r := min (rate af) (rate bf)
  let len := match blocks with | some n => 16 * n | none => k
  let len := if sparse = 0 then len else len / 2
  ceilDiv (len * 8) r

/-- Array-busy tc of step n of a MATMUL (R84, R91, R92, R136). -/
def State.matmulTc (s : State) (base : Nat) (d : Bytes) (n : Nat) : Nat :=
  let blocks := if mmBlock d then
      some (keptBlocks (s.recordAt (base + mmMeta d)) (n / ceilDiv (mmN d) 16) (mmK d)).1.length
    else none
  passTc (mmAF d) (mmBF d) (mmSparse d) (mmK d) blocks

/-- The ports of a pass take their lines: row operand, column operand, output (R100). -/
def State.passPorts (s : State) (lt a alen b blen c clen : Nat) : State :=
  ((s.tileWant lt 3 a alen 32).tileWant lt 4 b blen 32).tileWant lt 5 c clen 64

/-- MATMUL: its output blocks in ascending row block and column block; an error in a block row keeps what was written before,
and a pass that meets poison is the last (R113, R136, R183, R264). -/
def State.runMatmul (s : State) (v : DescEnv) (d : Bytes) : DescOut :=
  let ncb := ceilDiv (mmN d) 16
  (List.range (ceilDiv (mmM d) 16)).foldl (fun (o : DescOut) rb =>
    if o.err.isSome then o
    else
      match o.s.matmulRows v.base d rb with
      | .error e => { o with err := some e }
      | .ok (rows, mc) =>
        (List.range ncb).foldl (fun (o : DescOut) cb =>
          if o.err.isSome then o
          else
            let tc := o.s.matmulTc v.base d (rb * ncb + cb)
            let r := o.s.matmulPass v d rows rb cb
            let s := (r.1.countFp v.seatNo v.view r.2.1).countMeta v.seatNo v.view (mc.add (allFaults rows))
            let s := s.passPorts v.ltile (mmA d + 16 * rb * mmALd d) (rows.length * mmARowLen d) (mmB d + 16 * cb * mmBLd d)
              (16 * packedLen (mmBF d) (mmK d)) (mmC d) (16 * packedLen (mmCF d) 16)
            { s := s.charge v.seatNo acctMatrixBusy tc, err := r.2.2.map (fun c => (poisonStatus c, 0)) }) o)
    { s := s, err := none }

/-! ### GMM -/

def gmGt (d : Bytes) := fld d 12 8
def gmEFirst (d : Bytes) := fld d 20 2
def gmEStep (d : Bytes) := fld d 22 2
def gmNFirst (d : Bytes) := fld d 24 2
def gmNCount (d : Bytes) := fld d 26 2
def gmK (d : Bytes) := fld d 28 3
def gmSparse (d : Bytes) := byteAt d 31 % 4
def gmBlock (d : Bytes) := bit (byteAt d 31) 2
def gmAcc (d : Bytes) := bit (byteAt d 31) 3
def gmSteal (d : Bytes) := bit (byteAt d 31) 4
def gmStage (d : Bytes) := fld d 32 4
def gmStageLen (d : Bytes) := fld d 36 4
def gmXF (d : Bytes) := fmtByte d 40
def gmWF (d : Bytes) := fmtByte d 41
def gmYF (d : Bytes) := fmtByte d 42
def gmCvt (d : Bytes) := byteAt d 43
def gmXLd (d : Bytes) := fld d 44 2
def gmWLd (d : Bytes) := fld d 46 2
def gmYLd (d : Bytes) := fld d 48 2
def gmXsOff (d : Bytes) := fld d 50 4
def gmEib (d : Bytes) := fld d 56 8

/-- The number of MX operands among X and W (R140). -/
def gmMx (d : Bytes) : Nat := (if fmtMx (gmXF d) then 1 else 0) + (if fmtMx (gmWF d) then 1 else 0)

/-- The staging area that R140 asks for, with the 64 slots of R192 where they apply. -/
def gmStageNeed (d : Bytes) : Nat :=
  2 * (16 * gmXLd d + 16 * gmWLd d + 16 * scaleLen (gmK d) * gmMx d) + (if gmSteal d && gmBlock d then 65536 else 0)

/-- The stored length of a weight column that W_LD must cover (R173, R675). -/
def gmWLen (d : Bytes) : Nat :=
  if gmSparse d ≠ 0 && !gmBlock d then
    (packedLen (gmWF d) (gmK d / 2) + 15) / 16 * 16 + nmIndexBytes (gmSparse d) (gmK d)
  else packedLen (gmWF d) (gmK d)

/-- The checks of a GMM in order (R120, R125, R126, R139, R140, R171, R177, R192, R675, R678). -/
def checkGmm (s : State) (v : DescEnv) (d : Bytes) : Option (Status × Nat) :=
  let xf := gmXF d
  let wf := gmWF d
  let yf := gmYF d
  let sp := gmSparse d
  let k := gmK d
  match firstFail [
    (byteAt d 31 < 32 && zeros d 54 56 && byteAt d 40 < 32 && byteAt d 41 < 32 && byteAt d 42 < 32
      && cvtReserved (gmCvt d), .descInvalid),
    (fmtValid xf && fmtValid wf && fmtValid yf && cvtModeOk (gmCvt d), .formatInvalid),
    (!fmtMx yf, .descInvalid),
    (xf % 16 != 0 && wf % 16 != 0 && !(gmAcc d && yf == 0), .formatInvalid),
    (!(fmtMx xf || fmtMx wf) || k % 32 == 0, .formatInvalid),
    (sp != 3 && 1 ≤ gmEStep d && 1 ≤ gmNCount d && 1 ≤ k, .descInvalid),
    (s.ident.b1 || sp != 2, .unsupported),
    (gmStage d < 2 ^ 21 && [gmXLd d, gmWLd d, gmYLd d].all (fun l => l % 16 == 0), .descInvalid),
    (if fmtMx xf then gmXsOff d == 0 || (gmXsOff d % 16 == 0 && packedLen xf k ≤ gmXsOff d
        && gmXsOff d + scaleLen k ≤ gmXLd d) else gmXsOff d == 0, .descInvalid),
    (packedLen xf k ≤ gmXLd d && gmWLen d ≤ gmWLd d && packedLen yf (gmNFirst d + gmNCount d) ≤ gmYLd d, .descInvalid),
    (gmStageNeed d ≤ gmStageLen d, .descInvalid),
    (!gmBlock d || (gmNFirst d % 16 == 0 && (sp == 0 || k % 16 == 0)), .descInvalid),
    (sp == 0 || gmBlock d || k % nmM sp == 0, .descInvalid)] with
  | some st => some (st, 0)
  | none =>
    if gmStage d + gmStageLen d ≤ tileBytes then
      (match s.descAddr v.seat (gmGt d) 64 with
        | some _ => if gmGt d % 16 = 0 then none else some (.descInvalid, 0)
        | none => some (.addrInvalid, gmGt d))
    else some (.addrInvalid, gmStage d)

/-- An entry of the group table from its bytes (R138). -/
def gtEntryOf (e : Nat) (b : Bytes) : GtEntry :=
  { index := e, expert := fld b 0 2, wslot := bit (byteAt b 2) 0, count := fld b 4 4, xPtr := fld b 8 8,
    wPtr := fld b 16 8, yPtr := fld b 24 8, xsPtr := fld b 32 8, wsPtr := fld b 40 8, cont := fld b 48 8,
    xLive := fld b 56 4 }

/-- The descriptor address of token row i of an entry (R141). -/
def rowAddr (g : GtEntry) (xld i : Nat) : Nat := if i < g.xLive then g.xPtr + i * xld else g.cont + (i - g.xLive) * xld

/-- The output address of row i of an entry, its elements from column N_FIRST + 16 cb (R141). -/
def State.yRow (s : State) (v : DescEnv) (d : Bytes) (g : GtEntry) (i : Nat) : Option Nat :=
  s.descAddr v.seat (g.yPtr + i * gmYLd d) (max 1 (packedLen (gmYF d) (gmNFirst d + gmNCount d)))

/-- The initial value of an output element: +0, or the Y that ACC accumulates into (R61, R139). -/
def State.yInit (s : State) (d : Bytes) (ya j : Nat) : Val × Option Nat :=
  if gmAcc d then
    let w := fmtBits (gmYF d)
    let n := (j * w % 8 + w + 7) / 8
    (decodeElem (gmYF d) (leNat (s.bytes (ya + j * w / 8) n) / 2 ^ (j * w % 8)), s.rangePoison (ya + j * w / 8) n)
  else (.num false 0 0, none)

/-- The group table's header and entries (R137): the resolved header address, ENTRIES and TURN. -/
def State.gtHeader (s : State) (v : DescEnv) (d : Bytes) : Option (Nat × Nat × Nat) :=
  (s.descAddr v.seat (gmGt d) 64).map (fun a => (a, leNat (s.bytes a 4), leNat (s.bytes (a + 8) 8)))

def State.gtEntry (s : State) (v : DescEnv) (d : Bytes) (e : Nat) : Option GtEntry :=
  (s.descAddr v.seat (gmGt d + 64 + 64 * e) 64).map (fun a => gtEntryOf e (s.bytes a 64))

/-- The entries that a tile walks (R141). -/
def walked (d : Bytes) (entries : Nat) : List Nat :=
  (List.range (ceilDiv (entries - gmEFirst d) (gmEStep d))).map (fun i => gmEFirst d + i * gmEStep d)

/-- The check of an entry before its passes (R126, R127, R141): CONT without SPILL, MX rows without scales, XS_PTR with CONT, a
descriptor address that is no multiple of 16, reserved bits in a slot reference. -/
def entryCheck (d : Bytes) (g : GtEntry) : Option (Status × Nat) :=
  let aligned (a : Nat) : Bool := a % 16 == 0
  let weight (a : Nat) : Bool := if g.wslot then bits a 55 48 == 0 else aligned a
  if g.cont ≠ 0 && !dSpill d then some (.spillUnfollowed, g.index)
  else if fmtMx (gmXF d) && g.xsPtr = 0 && gmXsOff d = 0 then some (.descInvalid, 0)
  else if g.xsPtr ≠ 0 && g.cont ≠ 0 then some (.descInvalid, 0)
  else if [g.xPtr, g.yPtr, g.xsPtr, g.cont].all aligned && weight g.wPtr && weight g.wsPtr then none
  else some (.descInvalid, 0)

/-- The status with its DETAIL with which a GMM ends on poison at an entry (R166, R264). -/
def gmmPoisoned (cause entry : Nat) : Status × Nat := (poisonStatus cause, if cause = 2 then 0 else entry)

/-- The work units of one entry: column blocks, and token blocks within them (R141, R188). -/
def entryUnits (d : Bytes) (g : GtEntry) : List WorkUnit :=
  (List.range (ceilDiv (gmNCount d) 16)).flatMap (fun cb =>
    (List.range (ceilDiv g.count 16)).map (fun tb => { entry := g.index, cb := cb, tb := tb }))

/-- The unit list of a GMM in the order of R141, up to the first entry that ends it, and what ends it there (R141, R143,
R188). -/
def State.unitList (s : State) (v : DescEnv) (d : Bytes) : List WorkUnit × Option (Status × Nat) :=
  match s.gtHeader v d with
  | none => ([], some (.addrInvalid, gmGt d))
  | some (a, entries, turn) =>
    match s.rangePoison a 64 with
    | some c => ([], some (gmmPoisoned c (gmEFirst d)))
    | none =>
      if turn ≠ v.draws.turn then ([], some (.tableStale, gmEFirst d))
      else
        (walked d entries).foldl (fun r e =>
          if r.2.isSome then r
          else
            match s.descAddr v.seat (gmGt d + 64 + 64 * e) 64 with
            | none => (r.1, some (.addrInvalid, gmGt d + 64 + 64 * e))
            | some p =>
              match s.rangePoison p 64 with
              | some c => (r.1, some (gmmPoisoned c e))
              | none =>
                let g := gtEntryOf e (s.bytes p 64)
                match entryCheck d g with
                | some x => (r.1, some x)
                | none => (r.1 ++ entryUnits d g, none)) ([], none)

/-- A GMM as it begins: its units, and for a table without entries the one step that reads it (R141, R143). -/
def State.gmmStart (s : State) (v : DescEnv) (d : Bytes) : GmmRun :=
  let u := s.unitList v d
  { units := u.1, ending := u.2, todo := if u.1.isEmpty && u.2.isNone then [{ run := 0, op := .table }] else [] }

/-! ### The staging area (R140, R676): the model's layout (log 66) -/

/-- Bytes of a half: 16 token rows, 16 weight columns, and the scales of both where they are MX (R140). -/
def stHalf (d : Bytes) : Nat := 16 * gmXLd d + 16 * gmWLd d + 16 * scaleLen (gmK d) * gmMx d

def stPick (d : Bytes) (half : Bool) : Nat := if half then stHalf d else 0

/-- Offsets in STAGE of a token row, a weight column, and their scales. -/
def stX (d : Bytes) (r : UnitRun) (i : Nat) : Nat := stPick d r.xHalf + i * gmXLd d
def stW (d : Bytes) (r : UnitRun) (j : Nat) : Nat := stPick d r.wHalf + 16 * gmXLd d + j * gmWLd d
def stXs (d : Bytes) (r : UnitRun) (i : Nat) : Nat := stPick d r.xHalf + 16 * gmXLd d + 16 * gmWLd d + i * scaleLen (gmK d)
def stWs (d : Bytes) (r : UnitRun) (j : Nat) : Nat :=
  stPick d r.wHalf + 16 * gmXLd d + 16 * gmWLd d + (if fmtMx (gmXF d) then 16 * scaleLen (gmK d) else 0) + j * scaleLen (gmK d)

/-- Where column block `col` of a stored block row stands within its staged row: its values, then its indices. -/
def stBlock (d : Bytes) (col : Nat) : Nat := col * packedLen (gmWF d) 16

/-- Bytes of values that one row of a stored block holds below K. -/
def blockValLen (d : Bytes) (col : Nat) : Nat :=
  if gmSparse d = 0 then min (packedLen (gmWF d) 16) (packedLen (gmWF d) (gmK d) - stBlock d col) else packedLen (gmWF d) 8

/-! ### Fetches (R141, R173, R177, R676) -/

/-- One row that a fetch lands: its offset in STAGE, its length, and its parts, each at an offset of the row with the pieces of
memory that it comes from. -/
structure StageRow where
  at_ : Nat
  len : Nat
  parts : List (Nat × List (Nat × Nat))

/-- The columns of a unit's column block, by number within N (R141). -/
def unitCols (d : Bytes) (u : WorkUnit) : List Nat :=
  (List.range 16).filterMap (fun i => if 16 * u.cb + i < gmNCount d then some (gmNFirst d + 16 * u.cb + i) else none)

/-- The token rows of a unit's token block. -/
def unitRows (g : GtEntry) (u : WorkUnit) : List Nat :=
  (List.range 16).filterMap (fun i => if 16 * u.tb + i < g.count then some (16 * u.tb + i) else none)

/-- An address of an entry's weights moved on. -/
def weightAt (g : GtEntry) (ptr k : Nat) : Nat := if g.wslot then slotAdd ptr k else ptr + k

/-- The record of an entry's block-sparse weights, empty where an address does not reach it. -/
def State.weightRecord (s : State) (x : Seat) (g : GtEntry) : RecordReader := fun o n =>
  match s.spanPieces x g.wslot (weightAt g g.wPtr o) n with
  | some ps => s.pieceBytes ps
  | none => []

/-- The blocks that a unit's block row stores, of which a lent unit needs those of its segment (R177, R185, R193). -/
def UnitRun.blocks (r : UnitRun) : List (Nat × Nat) :=
  match r.lent with
  | some l => (segments r.weights.kept).getD l.2.2.2 []
  | none => r.weights.kept

/-- A list of optional rows, or none with the address of the first that is not reached. -/
def allRows : List (Nat × Option StageRow) → Except (Status × Nat) (List StageRow)
  | [] => .ok []
  | (a, none) :: _ => .error (.addrInvalid, a)
  | (_, some r) :: t => (allRows t).map (fun rs => r :: rs)

/-- The rows that a fetch of a unit lands in STAGE, or the error where an address fails (R141, R676). -/
def State.fetchRows (s : State) (x : Seat) (r : UnitRun) (op : GOp) : Except (Status × Nat) (List StageRow) :=
  let d := r.desc
  let g := r.entry
  let k := gmK d
  let sl := scaleLen k
  let wspan (a n : Nat) : Option (List (Nat × Nat)) := s.spanPieces x g.wslot a n
  match op with
  | .weights =>
    if gmBlock d then
      let n := packedLen (gmWF d) (blockVals (gmSparse d))
      let ib := nmIndexBytes (gmSparse d) 16
      let len := brcLen (s.weightRecord x g)
      let base (i : Nat) : Nat := weightAt g g.wPtr (len + i * blockBytes (gmWF d) (gmSparse d))
      let part (row : Nat) (p : Nat × Nat) : Option (List (Nat × List (Nat × Nat))) :=
        match wspan (weightAt g (base p.1) (row * n)) (blockValLen d p.2), wspan (weightAt g (base p.1) (16 * n + row * ib)) ib with
        | some a, some b => some ((stBlock d p.2, a) :: (if gmSparse d = 0 then [] else [(stBlock d p.2 + n, b)]))
        | _, _ => none
      allRows ((unitCols d r.unit).map (fun j =>
        let ps := r.blocks.map (part (j % 16))
        (base 0, if ps.all Option.isSome then
            some { at_ := stW d r (j % 16), len := gmWLd d, parts := (ps.filterMap id).flatten }
          else none)))
    else
      allRows ((unitCols d r.unit).map (fun j =>
        let a := weightAt g g.wPtr (j * gmWLd d)
        (a, (wspan a (max 1 (gmWLen d))).map (fun ps =>
          { at_ := stW d r (j - gmNFirst d - 16 * r.unit.cb), len := gmWLd d, parts := [(0, ps)] }))))
  | .wscales =>
    if gmBlock d then
      allRows ((unitCols d r.unit).map (fun j =>
        let ps := (r.blocks.filter (fun p => p.2 % 2 == 0 || scaleSource r.weights.kept p.1 p.2 == p.1)).map (fun p =>
          (wspan (weightAt g g.wsPtr (16 * p.1 + j % 16)) 1).map (fun q => (p.2 / 2, q)))
        (g.wsPtr, if ps.all Option.isSome then some { at_ := stWs d r (j % 16), len := sl, parts := ps.filterMap id } else none)))
    else
      allRows ((unitCols d r.unit).map (fun j =>
        let a := weightAt g g.wsPtr (j * sl)
        (a, (wspan a (k / 32)).map (fun ps =>
          { at_ := stWs d r (j - gmNFirst d - 16 * r.unit.cb), len := sl, parts := [(0, ps)] }))))
  | .rows | .cont =>
    let mine := (unitRows g r.unit).filter (fun i => if op = .rows then i < g.xLive else g.xLive ≤ i)
    let own := fmtMx (gmXF d) && g.xsPtr = 0
    allRows (mine.map (fun i =>
      let a := rowAddr g (gmXLd d) i
      (a, match s.descAddr x a (packedLen (gmXF d) k), (if own then s.descAddr x (a + gmXsOff d) (k / 32) else some 0) with
        | some p, some q => some { at_ := stX d r (i % 16), len := gmXLd d,
                                   parts := (0, [(p, packedLen (gmXF d) k)]) :: (if own then [(gmXsOff d, [(q, k / 32)])] else []) }
        | _, _ => none)))
  | .xscales =>
    allRows ((unitRows g r.unit).map (fun i =>
      let a := g.xsPtr + i * sl
      (a, (s.descAddr x a (k / 32)).map (fun p => { at_ := stXs d r (i % 16), len := sl, parts := [(0, [(p, k / 32)])] }))))
  | _ => .ok []

/-- The memory that a fetch reads. -/
def StageRow.sources (rs : List StageRow) : List (Nat × Nat) := rs.flatMap (fun r => r.parts.flatMap (·.2))

/-- The pieces of the record that a block row needs: its counts, its pointers, its columns (R175, R676); or the error where an
address fails or the record is not well formed (R183). A poisoned part is answered before what it holds is used. -/
def State.recordPieces (s : State) (x : Seat) (r : UnitRun) : Except (Status × Nat) (List (Nat × Nat)) :=
  let g := r.entry
  let d := r.desc
  let rd := s.weightRecord x g
  let b := gmNFirst d / 16 + r.unit.cb
  let at_ (o n : Nat) : Option (List (Nat × Nat)) := s.spanPieces x g.wslot (weightAt g g.wPtr o) n
  match at_ 0 16, at_ (16 + 4 * b) 8 with
  | some h, some p =>
    if (s.piecePoison (h ++ p)).isSome then .ok (h ++ p)
    else if !brcOk rd (ceilDiv (gmNFirst d + gmNCount d) 16) b then .error (.metaInvalid, 0)
    else
      (match at_ (brcColAt rd (brcPtr rd b)) (4 * (brcPtr rd (b + 1) - brcPtr rd b)) with
        | some c => .ok (h ++ p ++ c)
        | none => .error (.addrInvalid, g.wPtr))
  | _, _ => .error (.addrInvalid, g.wPtr)

/-- A fetch reaches outside the tile's own store: it is a remote access (R77, R676). -/
def State.fetchRemote (s : State) (v : DescEnv) (r : UnitRun) (op : GOp) : Bool :=
  let src := match op with
    | .record => (match s.recordPieces v.seat r with | .ok ps => ps | .error _ => [(0, 0)])
    | _ => (match s.fetchRows v.seat r op with | .ok rs => StageRow.sources rs | .error _ => [(0, 0)])
  src.any (fun p => !(v.base ≤ p.1 && p.1 + p.2 ≤ v.base + tileBytes))

/-- A row lands in the store: the bytes between its parts are zero, and a part that holds poison lands as poison (R265). -/
def State.landRow (s : State) (base : Nat) (r : StageRow) : State :=
  let img := r.parts.foldl (fun b p => splice b p.1 (s.pieceBytes p.2)) (List.replicate r.len 0)
  let len (ps : List (Nat × Nat)) : Nat := ps.foldl (fun a p => a + p.2) 0
  r.parts.foldl (fun t p => match s.piecePoison p.2 with
    | some c => t.poisonRange (base + r.at_ + p.1) (len p.2) c
    | none => t) (s.store (base + r.at_) img)

/-- What a fetch reads is counted where it passes: HBM, banks, ports and links (R524, R591). -/
def State.fetchTraffic (s : State) (v : DescEnv) (ps : List (Nat × Nat)) : State :=
  ps.foldl (fun s p =>
    let s := s.hbmMoved v.seatNo p.1 p.2 false
    let s := if clusterBase ≤ p.1 && p.1 < tileBase then s.charge v.seatNo acctCluBytes p.2 else s
    s.carry p.1 v.base p.2) s

/-! ### The operands of a pass, from STAGE -/

/-- Row r of a staged block row over its kept blocks (R176 to R186). -/
def State.stagedBlocks (s : State) (base : Nat) (r : UnitRun) (row : Nat) : OpRow :=
  let d := r.desc
  let wf := gmWF d
  let sp := gmSparse d
  let n := packedLen wf (blockVals sp)
  let ib := nmIndexBytes sp 16
  let at_ (col : Nat) : Nat := base + stW d r row + stBlock d col
  let one (p : Nat × Nat) : List (Nat × Val) × MetaCounts :=
    let x := blockRow sp wf (gmK d) (decodeScale (byteAt (s.bytes (base + stWs d r row + p.2 / 2) 1) 0)) p.2
      (leNat (s.bytes (at_ p.2) n)) (leNat (s.bytes (at_ p.2 + n) ib))
    let differs := (r.weights.kept.zip r.weights.keptScale).any (fun q => q.1 == p && bit q.2 row)
    (x.1, { dup := x.2, scale := if differs then 1 else 0 })
  rowOfBlocks r.weights.kept one (r.blocks.findSome? (fun p =>
    (s.rangePoison (at_ p.2) (blockValLen d p.2 + (if sp = 0 then 0 else ib))).orElse
      (fun _ => if fmtMx wf then s.rangePoison (base + stWs d r row + p.2 / 2) 1 else none)))

/-- The staged weight columns of a unit as row operands (R141, R173, R177). -/
def State.stagedWeights (s : State) (base : Nat) (r : UnitRun) : List OpRow :=
  let d := r.desc
  let k := gmK d
  let wf := gmWF d
  (List.range (unitCols d r.unit).length).map (fun j =>
    if gmBlock d then s.stagedBlocks base r j
    else if gmSparse d ≠ 0 then
      s.nmOpRow (gmSparse d) wf k (base + stW d r j) (base + stW d r j + (packedLen wf (k / 2) + 15) / 16 * 16) (base + stWs d r j)
    else (s.readRow wf (base + stW d r j) k (base + stWs d r j)).dense k)

/-- Staged token row i of a unit as a column operand, with its scales in the row or beside it (R141). -/
def State.stagedToken (s : State) (base : Nat) (r : UnitRun) (i : Nat) : Row :=
  let d := r.desc
  s.readRow (gmXF d) (base + stX d r i) (gmK d) (if r.entry.xsPtr ≠ 0 then base + stXs d r i else base + stX d r i + gmXsOff d)

/-- The groups of the reduction length for which some element of a row operand has a product. -/
def rowGroups (gs : Nat) (r : OpRow) : Nat :=
  r.segs.foldl (fun n seg => n + (cutGroups gs (seg.map (fun p => (p.1, p.2, Val.nan)))).length) 0

/-- The sums of segment k of a unit from STAGE at `base`, row-major by token row and then output column, with the poison that
each depends on (R113, R186, R192): from the initial value for segment 0, from +0 otherwise. An output address that fails ends
segment 0 (R141). -/
def State.segSums (s : State) (v : DescEnv) (base : Nat) (r : UnitRun) (k : Nat) :
    Except (Status × Nat) (SegSums × FpEvents) :=
  let d := r.desc
  let g := r.entry
  let gs := groupSize (gmXF d) (gmWF d)
  let rows := s.stagedWeights base r
  let blank : SegSums := List.replicate 16 (0, none)
  (List.range 16).foldl (fun (a : Except (Status × Nat) (SegSums × FpEvents)) (i : Nat) =>
    match a with
    | .error e => .error e
    | .ok (out, ev) =>
      let n := 16 * r.unit.tb + i
      if g.count ≤ n then .ok (out ++ blank, ev)
      else
        match (if k = 0 then s.yRow v d g n else some 0) with
        | none => .error (.addrInvalid, g.yPtr + n * gmYLd d)
        | some ya =>
          let x := s.stagedToken base r i
          let es : List ((Nat × Option Nat) × FpEvents) := (List.range 16).map (fun (j : Nat) =>
            match rows[j]? with
            | none => ((0, none), FpEvents.none)
            | some row =>
              let y : Val × Option Nat := if k = 0 then s.yInit d ya (gmNFirst d + 16 * r.unit.cb + j) else (.num false 0 0, none)
              let c := segElem gs y.1 (row.segs.getD k []) (fun q => x.value q q)
              ((bits32 c.1, (row.poison.orElse (fun _ => x.poison)).orElse (fun _ => y.2)), c.2.1))
          .ok (out ++ es.map (·.1), es.foldl (fun a e => a.add e.2) ev)) (.ok ([], .none))

/-- acc + S, element by element, each with one RNE rounding to binary32 (R186). -/
def mergeSums (acc sums : SegSums) : SegSums × FpEvents :=
  (acc.zip sums).foldl (fun r p =>
    let a := accumulate (decodeElem 1 p.1.1) (decodeElem 1 p.2.1)
    (r.1 ++ [(bits32 a.1, p.1.2.orElse (fun _ => p.2.2))], r.2.add a.2)) ([], .none)

/-- Sums as the cells of the array hold them: the weight column at the left edge, the token row at the top (R89, R137). -/
def sumCells (x : SegSums) : List W32 := gridOf 16 16 (fun i j => (x.getD (16 * j + i) (0, none)).1)

/-- The rows of a unit of which some group of the reduction length has no product (R93). -/
def State.shortRows (s : State) (base : Nat) (r : UnitRun) : List Bool :=
  let gs := groupSize (gmXF r.desc) (gmWF r.desc)
  (s.stagedWeights base r).map (fun row => decide (rowGroups gs row < ceilDiv (gmK r.desc) gs))

/-- The merged sums of a unit, with the +0 of R93, converted and written row by row (R62, R142, R186); results that depend on
poison are poison, and the first cause is answered (R113). -/
def State.writeUnit (s : State) (v : DescEnv) (r : UnitRun) : State × Option Nat :=
  let d := r.desc
  let g := r.entry
  (unitRows g r.unit).foldl (fun (o : State × Option Nat) n =>
    match o.1.yRow v d g n with
    | none => o
    | some ya =>
      let es := (unitCols d r.unit).map (fun j =>
        let m := r.acc.getD (16 * (n % 16) + (j - gmNFirst d) % 16) (0, none)
        let i := (gmEib d + (g.expert * 65536 + n) * 131072 + j) % 2 ^ 64
        let a := decodeElem 1 m.1
        let a := if r.short.getD ((j - gmNFirst d) % 16) false then (accumulate a (.num false 0 0)).1 else a
        let c := convert (gmYF d) (v.draws.rounding (gmCvt d) i) (cvtSat (gmCvt d)) a
        ((c.1, m.2), c.2))
      let start := gmNFirst d + 16 * r.unit.cb
      let len := start * fmtBits (gmYF d) / 8
      let s := o.1.writeRun ya (gmYF d) start (es.map (·.1))
      let s := s.hbmMoved v.seatNo (ya + len) (packedLen (gmYF d) es.length) true
      let s := s.carry v.base (ya + len) (packedLen (gmYF d) es.length)
      (s.countFp v.seatNo v.view (es.foldl (fun a e => a.add e.2) .none),
       o.2.orElse (fun _ => es.findSome? (fun e => e.1.2)))) (s, none)

/-- The environment of a unit on the tile that runs it: its counts and draws are those of the tile whose descriptor lists it
(R182, R193). -/
def DescEnv.ownerOf (v : DescEnv) (r : UnitRun) : DescEnv :=
  { v with view := (v.seat.viewTile r.weights.owner).getD r.weights.owner,
           draws := { v.draws with kid := dKid r.desc, stream := dStream r.desc } }

/-- Array-busy tc of a step of a unit: a whole pass, or one segment of it (R84, R91, R92, R187). -/
def unitTc (r : UnitRun) (op : GOp) : Nat :=
  let d := r.desc
  let blocks := if gmBlock d then
      some (match op with | .seg k => ((segments r.weights.kept).getD k []).length | _ => r.weights.kept.length)
    else none
  passTc (gmXF d) (gmWF d) (gmSparse d) (gmK d) blocks

/-! ### Units begun, and the next step of a GMM (R141, R188, R676) -/

/-- The fetches of a unit in the order of R676, its weights only where STAGE does not hold them. -/
def unitFetches (d : Bytes) (g : GtEntry) (u : WorkUnit) (weights : Bool) : List GOp :=
  let lo := 16 * u.tb
  let hi := min g.count (lo + 16)
  (if weights then
      (if gmBlock d then [GOp.record, .weights] else [.weights]) ++ (if fmtMx (gmWF d) then [.wscales] else [])
    else [])
    ++ (if lo < g.xLive then [.rows] else []) ++ (if g.xLive < hi then [.cont] else [])
    ++ (if fmtMx (gmXF d) && g.xsPtr ≠ 0 then [.xscales] else [])

/-- A unit becomes the current one of a GMM: an own one, one taken whole, or the lent segment of another's. Its fetches are the
next steps; without STEAL its pass follows, with STEAL its segments do (R76, R188, R193, R676). -/
def GmmRun.begin_ (g : GmmRun) (owner : Nat) (d : Bytes) (e : GtEntry) (u : WorkUnit) (lent : Option (Nat × Nat × Nat × Nat)) :
    GmmRun :=
  let have_ : Option Weights := match g.held with
    | some w => if w.owner = owner && w.entry = u.entry && w.cb = u.cb && lent.isNone then some w else none
    | none => none
  let w := have_.getD { owner := owner, entry := u.entry, cb := u.cb }
  let nseg := if gmBlock d then (segments w.kept).length else 1
  let segs : List Nat := match lent with | some l => [l.2.2.2] | none => List.range nseg
  let r : UnitRun := { id := g.nextId, unit := u, desc := d, entry := e, weights := w, lent := lent,
                       wHalf := if have_.isSome then g.wHalf else !g.wHalf, xHalf := !g.xHalf, nseg := nseg,
                       unstarted := if gmSteal d && (have_.isSome || !gmBlock d) then segs else [] }
  let ops := unitFetches d e u have_.isNone ++ (if gmSteal d then [] else [.pass])
  { g with runs := g.runs ++ [r], nextId := g.nextId + 1, wHalf := r.wHalf, xHalf := r.xHalf,
           held := if lent.isSome then none else some w, todo := g.todo ++ ops.map (fun o => { run := r.id, op := o }) }

/-- The next own unit begins. -/
def State.beginNext (s : State) (v : DescEnv) (d : Bytes) (g : GmmRun) : GmmRun :=
  match g.units with
  | [] => g
  | u :: us =>
    match s.gtEntry v d u.entry with
    | some e => { g with units := us }.begin_ v.ltile d e u none
    | none => { g with units := [], ending := some (.addrInvalid, gmGt d + 64 + 64 * u.entry) }

/-- An access, not a pass. -/
def GOp.fetches : GOp → Bool
  | .pass | .seg _ | .table => false
  | _ => true

/-- The next step of a GMM: of those planned, else the next segment of its current unit (R188). -/
def GmmRun.next (g : GmmRun) : Option GStep :=
  match g.todo with
  | x :: _ => some x
  | [] =>
    match g.runs.getLast? with
    | some r => (match r.unstarted with | k :: _ => some { run := r.id, op := .seg k } | [] => none)
    | none => none

/-- Every step of the GMM has issued, but for what it may yet steal. -/
def GmmRun.issued (g : GmmRun) : Bool := g.units.isEmpty && g.next.isNone

/-- A pass issues once the fetches before it have landed, and a fetch of stored blocks once their record has (R676). -/
def GmmRun.held? (g : GmmRun) : Bool :=
  (match g.next with | some x => !x.op.fetches | none => false) && g.flight.any (fun x => x.op.fetches)
    || g.flight.any (fun x => x.op == .record)

/-- The unit of a step. -/
def GmmRun.run? (g : GmmRun) (id : Nat) : Option UnitRun := g.runs.find? (fun r => r.id == id)

def GmmRun.setRun (g : GmmRun) (r : UnitRun) : GmmRun :=
  { g with runs := g.runs.map (fun x => if x.id = r.id then r else x) }

/-- The next step issues. -/
def GmmRun.take (g : GmmRun) (x : GStep) : GmmRun :=
  let g := match g.todo with
    | _ :: rest => { g with todo := rest }
    | [] => (match x.op, g.run? x.run with
      | .seg k, some r => g.setRun { r with unstarted := r.unstarted.filter (· ≠ k) }
      | _, _ => g)
  { g with flight := g.flight ++ [x] }

/-- Nothing of the GMM is left to issue, to take effect, to be written or to land (R194). -/
def GmmRun.over (g : GmmRun) : Bool :=
  g.units.isEmpty && g.todo.isEmpty && g.flight.isEmpty && g.runs.isEmpty && g.stolen == 0

end Sys2Proof.Machine
end

