-- ==== Sys2Proof/Machine/VecFn.lean ====
section
/-!
DEFINITION. The functions of the vector engine (R94, R95): a result is a free value within 2 units in the last place of
the exact value. The exact value is taken to some 300 bits by the functions' series, in integers with 320 fraction bits.
-/

namespace Sys2Proof.Machine

/-- One, ln 2 and 2 / √π with 320 fraction bits. -/
def fxOne : Int := 2 ^ 320
def fxLn2 : Int := 0xb17217f7d1cf79abc9e3b39803f2f6af40f343267298b62d8a0d175b8baafa2be7b876206debac98
def fxErf : Int := 0x120dd750429b6d11ae3a914fed7fd8688281341d7587cea2ef3e5c9367bc5075e1b9bed9222a7843e

def fxMul (a b : Int) : Int := a * b / 2 ^ 320
def fxDiv (a b : Int) : Int := a * 2 ^ 320 / b

/-- (-1)^neg × m × 2^e with 320 fraction bits; every binary32 value is exact. -/
def fxOf (neg : Bool) (m : Nat) (e : Int) : Int :=
  if -320 ≤ e then Val.scaled neg m e (-320)
  else
    let k : Nat := m / pow2 (-320 - e)
    if neg then -(k : Int) else k

/-- The terms from the n-th on of the exponential's series, each the one before times r / n. -/
def fxExpSum (r : Int) : Nat → Nat → Int → Int
  | 0, _, _ => 0
  | fuel + 1, n, t => t + fxExpSum r fuel (n + 1) (fxMul t r / (n + 1 : Nat))

/-- e^x as y × 2^k with y from 1 to 2, 320 fraction bits each. -/
def fxExp (x : Int) : Int × Int :=
  let k := x / fxLn2
  (fxExpSum (x - k * fxLn2) 90 0 fxOne, k)

/-- Σ t^(2i+1) / (2i+1) from the i-th term on. -/
def fxAtanh (t2 : Int) : Nat → Nat → Int → Int
  | 0, _, _ => 0
  | fuel + 1, i, p => p / (2 * i + 1 : Nat) + fxAtanh t2 fuel (i + 1) (fxMul p t2)

/-- ln of m × 2^e, m not 0. -/
def fxLog (m : Nat) (e : Int) : Int :=
  let b := Nat.log2 m
  let z : Int := ((m * 2 ^ (320 - b) : Nat) : Int)
  let t := fxDiv (z - fxOne) (z + fxOne)
  2 * fxAtanh (fxMul t t) 110 0 t + (e + b) * fxLn2

/-- Σ (-1)^n x^(2n+1) / (n! (2n+1)) from the n-th term on; p is x^(2n+1) / n! with its sign. -/
def fxErfSum (x2 : Int) : Nat → Nat → Int → Int
  | 0, _, _ => 0
  | fuel + 1, n, p => p / (2 * n + 1 : Nat) + fxErfSum x2 fuel (n + 1) (-(fxMul p x2 / (n + 1 : Nat)))

/-- A positive value below the least that binary32 tells from zero. -/
def fxTiny : Val := .num false 1 (-400)

/-- e^x for an x with 320 fraction bits; none where it lies far above binary32's range. -/
def expOf (x : Int) : Option Val :=
  if x < -200 * fxOne then some fxTiny
  else if 200 * fxOne < x then none
  else
    let r := fxExp x
    some (Val.ofInt r.1 (r.2 - 320))

/-- A value below one that no sum tells from one. -/
def belowOne (t : Int) : Int := if fxOne ≤ t then fxOne - 1 else t

/-- The exact value of function `op` on (-1)^neg × m × 2^e, where the function has one there (R94). -/
def fnExact (op : Nat) (neg : Bool) (m : Nat) (e : Int) : Option Val :=
  let big := m != 0 && 8 ≤ e + Nat.log2 m
  let x : Int := if big then (if neg then -256 * fxOne else 256 * fxOne) else fxOf neg m e
  let a : Int := if x < 0 then -x else x
  let signed (t : Int) : Option Val := some (Val.ofInt (if x < 0 then -t else t) (-320))
  match op with
  | 0x10 => expOf x
  | 0x11 =>
    if 256 * fxOne ≤ x then some (.num false 1 256)
    else if x ≤ -256 * fxOne then some fxTiny
    else
      let k := x / fxOne
      some (Val.ofInt (fxExpSum (fxMul (x - k * fxOne) fxLn2) 90 0 fxOne) (k - 320))
  | 0x12 => if neg || m = 0 then none else some (Val.ofInt (fxLog m e) (-320))
  | 0x13 =>
    if neg || m = 0 then none
    else if m = 2 ^ Nat.log2 m then some (Val.ofInt (e + Nat.log2 m) 0)
    else some (Val.ofInt (fxDiv (fxLog m e) fxLn2) (-320))
  | 0x14 => if m = 0 then none else some (.num neg (2 ^ 320 / m) (-320 - e))
  | 0x15 =>
    if neg || m = 0 then none
    else
      let q : Nat × Int := if e % 2 = 0 then (m, e) else (2 * m, e - 1)
      some (.num false (isqrtAux (2 ^ 640 / q.1) 330 0) (-320 - q.2 / 2))
  | 0x16 =>
    match expOf (-a) with
    | some (.num _ y k) =>
      let d : Int := fxOne + fxOf false y k
      some (if x < 0 then .num false (y * 2 ^ 320 / d.toNat) k else Val.ofInt (belowOne (fxDiv fxOne d)) (-320))
    | _ => none
  | 0x17 =>
    match expOf (-2 * a) with
    | some (.num _ y k) =>
      let q := fxOf false y k
      signed (belowOne (fxDiv (fxOne - q) (fxOne + q)))
    | _ => none
  | 0x18 => signed (if 5 * fxOne < a then fxOne - 2 ^ 280 else fxMul fxErf (fxErfSum (fxMul a a) 260 0 a))
  | _ => none

/-- A value is within 2 units in the last place of binary32 of another (R95). -/
def within2 (r v : Val) : Bool :=
  match r, v with
  | .num rn rm re, .num vn vm ve =>
    let ulp : Int := if vm = 0 then -149 else max (-149) (ve + Nat.log2 vm - 23)
    let low : Int := min (min re ve) ulp
    let d := Val.scaled rn rm re low - Val.scaled vn vm ve low
    decide (d.natAbs ≤ 2 * pow2 (ulp - low))
  | _, _ => false

/-- The result of function `op` on an operand: the free value of the function and operand, held to R95's bound where
the exact value is a number in binary32's range, else unconstrained (log 1). A finite value beyond that range is an overflow,
and a NaN from an operand that is none is invalid (R68). -/
def vecFnValue (op : Nat) (a : Val) : Val × FpEvents :=
  let free := decodeElem 1 (Config.vecFn op (BitVec.ofNat 32 (convert 1 .rne false a).1)).toNat
  let open_ : Val × FpEvents := (free, if free.isNan then .oneInvalid else .none)
  match a with
  | .nan => (.nan, .none)
  | .inf _ => open_
  | .num neg m e =>
    match fnExact op neg m e with
    | none => open_
    | some v =>
      let near := decodeElem 1 (convert 1 .rne false v).1
      if near.isInf then (free, .oneOverflow) else (if within2 free v then free else near, .none)

end Sys2Proof.Machine
end

