-- ==== Sys2Proof/Machine/Vector.lean ====
section
/-!
DEFINITION. VEC (R145, R146, R677): the vector engine's operations over rows (R94 to R97), N:M compression (R184),
MX quantisation (R54), draws and dropout (R57, R58, R73), horizontal sums (R96).
-/

namespace Sys2Proof.Machine

def vOp (d : Bytes) := byteAt d 12
def vSF (d : Bytes) := fmtByte d 13
def vDF (d : Bytes) := fmtByte d 14
def vCvt (d : Bytes) := byteAt d 15
def vS0 (d : Bytes) := fld d 16 4
def vS1 (d : Bytes) := fld d 20 4
def vS2 (d : Bytes) := fld d 24 4
def vDst (d : Bytes) := fld d 28 4
def vCount (d : Bytes) := fld d 32 3
def vScalar (d : Bytes) := bit (byteAt d 35) 0
def vRows (d : Bytes) := fld d 36 2
def vD (d : Bytes) := fld d 38 2
def vS0Ld (d : Bytes) := fld d 40 2
def vS1Ld (d : Bytes) := fld d 42 2
def vDLd (d : Bytes) := fld d 44 2
def vALd (d : Bytes) := fld d 46 2
def vImm (d : Bytes) := fld d 48 4
def vAux (d : Bytes) := fld d 52 4
def vEib (d : Bytes) := fld d 56 8

/-- The codes of R146. -/
def vecOps : List Nat :=
  [0x01, 0x02, 0x03, 0x04, 0x05, 0x06, 0x08, 0x09, 0x0A, 0x0B, 0x0C, 0x0D, 0x10, 0x11, 0x12, 0x13, 0x14, 0x15, 0x16,
   0x17, 0x18, 0x20, 0x21, 0x22, 0x23, 0x24, 0x25, 0x26, 0x27, 0x30, 0x31, 0x32, 0x38, 0x39, 0x3A, 0x40, 0x41]

/-- The operations whose words are 32-bit integers (R146). -/
def vecInt (op : Nat) : Bool := 0x20 ≤ op && op ≤ 0x27
/-- The vector functions (R95). -/
def vecFun (op : Nat) : Bool := 0x10 ≤ op && op ≤ 0x18
/-- The operations that give one result a row (R146). -/
def vecHoriz (op : Nat) : Bool := 0x38 ≤ op && op ≤ 0x3A
/-- The operations that may take an MX source: those that read SRC0 alone (R677). -/
def vecMxSource (op : Nat) : Bool :=
  [0x06, 0x0A, 0x0B, 0x30, 0x41].contains op || vecFun op || vecHoriz op
/-- The operations that read a second source. -/
def vecTwo (op : Nat) : Bool := [0x01, 0x02, 0x03, 0x04, 0x05, 0x08, 0x09, 0x0C, 0x0D].contains op || vecInt op

/-- Elements of a result row: one for a horizontal operation, the kept values for NMC (R146). -/
def vOutCount (d : Bytes) : Nat :=
  if vecHoriz (vOp d) then 1 else if vOp d = 0x32 then vCount d / 2 else vCount d

/-- Bytes of a source row. -/
def vSrcLen (d : Bytes) : Nat :=
  if vOp d = 0x40 then 0 else if vecInt (vOp d) then 4 * vCount d else packedLen (vSF d) (vCount d)

/-- Bytes of a result row. -/
def vDstLen (d : Bytes) : Nat :=
  if vOp d = 0x40 then 16 * vCount d
  else if vecInt (vOp d) || vOp d = 0x0C then 4 * vCount d
  else packedLen (vDF d) (vOutCount d)

/-- The checks of a VEC in order (R120, R125, R145, R146, R677, R98, R9). -/
def checkVec (b1 : Bool) (d : Bytes) : Option (Status × Nat) :=
  let op := vOp d
  let sf := vSF d
  let df := vDF d
  let words := vecInt op
  match firstFail [
    (vecOps.contains op && byteAt d 13 < 32 && byteAt d 14 < 32 && cvtReserved (vCvt d) && byteAt d 35 < 2
      && !dSpill d, .descInvalid),
    (fmtValid sf && fmtValid df && cvtModeOk (vCvt d), .formatInvalid),
    (!fmtMx df || op == 0x31, .formatInvalid),
    (!fmtMx sf || vecMxSource op, .formatInvalid),
    (fmtMx df || op != 0x31, .descInvalid),
    (!(words || op == 0x0C) || df == 1, .descInvalid),
    (!words || sf == 1, .descInvalid),
    (!vecFun op || sf != 0, .descInvalid),
    (op != 0x32 || (2 ≤ sf && sf ≤ 5), .descInvalid),
    (1 ≤ vCount d && 1 ≤ vRows d, .descInvalid),
    (!(fmtMx sf || op == 0x31) || vCount d % 32 == 0, if op == 0x31 then .descInvalid else .formatInvalid),
    (op != 0x0C || vImm d % 8 ≤ 5, .descInvalid),
    (op != 0x32 || (vImm d ≤ 1 && vCount d % (if vImm d = 1 then 8 else 4) == 0), .descInvalid),
    (op != 0x32 || b1 || vImm d == 0, .unsupported),
    (op != 0x38 || vCount d ≤ 1048576, .descInvalid),
    ([vS0 d, vS1 d, vS2 d, vDst d, vAux d].all tsaOk && [vS0Ld d, vS1Ld d, vDLd d, vALd d].all (fun l => l % 16 == 0),
      .descInvalid)] with
  | some st => some (st, 0)
  | none =>
    let n := vRows d
    let aux := if op = 0x31 || fmtMx sf then vCount d / 32 else if op = 0x32 then nmIndexBytes (vImm d + 1) (vCount d) else 0
    if !tsaSpan (vS0 d) n (vS0Ld d) (vSrcLen d) then some (.addrInvalid, vS0 d)
    else if vecTwo op && !vScalar d && !tsaSpan (vS1 d) n (vS1Ld d) (vSrcLen d) then some (.addrInvalid, vS1 d)
    else if (op == 0x04 || op == 0x0D) && !tsaSpan (vS2 d) n (vS1Ld d) (if op = 0x0D then 4 * vCount d else vSrcLen d) then
      some (.addrInvalid, vS2 d)
    else if !tsaSpan (vDst d) n (vDLd d) (vDstLen d) then some (.addrInvalid, vDst d)
    else if !tsaSpan (vAux d) n (vALd d) aux then some (.addrInvalid, vAux d)
    else none

/-- The steps of a VEC: 1,024 elements, or 256 in binary64; one per row for a horizontal operation (R76). -/
def stepsVec (d : Bytes) : Nat :=
  if vecHoriz (vOp d) then vRows d
  else ceilDiv (vRows d * vCount d) (if vSF d = 0 then 256 else 1024)

/-- One floating-point result from its sources in binary32 or binary64 arithmetic (format c), before conversion
(R65, R66, R69, R146). -/
def vecValue (op c : Nat) (mode : Rounding) (a b z : Val) (sel : Bool) : Val × FpEvents :=
  let fin (r : Val × FpEvents) : Val × FpEvents :=
    let q := roundTo c mode r.1
    (q.1, r.2.add q.2)
  match op with
  | 0x01 => fin (a.add b)
  | 0x02 => fin (a.add b.neg)
  | 0x03 => fin (a.mul b)
  | 0x04 =>
    let p := a.mul b
    let r := p.1.add z
    if z.isNan then (.nan, .none) else fin (r.1, p.2.add r.2)
  | 0x05 => fin (a.div b)
  | 0x06 => fin a.sqrt
  | 0x08 => (a.min b, .none)
  | 0x09 => (a.max b, .none)
  | 0x0A => (a.abs, .none)
  | 0x0B => (a.neg, .none)
  | 0x0D => (if sel then a else b, .none)
  | 0x30 => (a, .none)
  | _ =>
    if vecFun op then vecFnValue op a
    else (a, .none)

/-- CMP: IMM[2:0] over two values; a NaN is unordered (R146). -/
def vecCompare (imm : Nat) (a b : Val) : Bool :=
  if a.isNan || b.isNan then imm % 8 == 1
  else
    let c := a.cmp b
    match imm % 8 with
    | 0 => c == 0
    | 1 => c != 0
    | 2 => c < 0
    | 3 => c ≤ 0
    | 4 => 0 < c
    | _ => 0 ≤ c

/-- The integer operations on 32-bit words (R146). -/
def vecWord (op : Nat) (a b : W32) : W32 :=
  match op with
  | 0x20 => a + b
  | 0x21 => a - b
  | 0x22 => a * b
  | 0x23 => if b.toNat < 32 then a <<< b.toNat else Config.wideShift op a b
  | 0x24 => if b.toNat < 32 then a >>> b.toNat else Config.wideShift op a b
  | 0x25 => a &&& b
  | 0x26 => a ||| b
  | _ => a ^^^ b

/-- Rank of a value's magnitude for NMC: a is above b; NaN is above all, ties go to the earlier (R184). -/
def nmAbove (a b : Val) : Bool :=
  if a.isNan then !b.isNan else if b.isNan then false else 0 < a.abs.cmp b.abs

/-- The positions of one dense group that NMC keeps, ascending, and whether it was overfull (R184). -/
def nmKeep (n : Nat) (vs : List Val) : List Nat × Bool :=
  let nz := (List.range vs.length).filter (fun i => !(vs.getD i .nan).isZero)
  let zs := (List.range vs.length).filter (fun i => (vs.getD i .nan).isZero)
  let better (i : Nat) : Nat := (nz.filter (fun j =>
    nmAbove (vs.getD j .nan) (vs.getD i .nan) || (!nmAbove (vs.getD i .nan) (vs.getD j .nan) && j < i))).length
  let top := nz.filter (fun i => better i < n)
  let fill := zs.take (n - top.length)
  ((List.range vs.length).filter (fun i => top.contains i || fill.contains i), decide (n < nz.length))

/-- The cause of the poison on which element i of row r of a VEC depends: in its sources, or in the scale of its MX block
(R113). -/
def State.vecPoison (s : State) (v : DescEnv) (d : Bytes) (r i : Nat) : Option Nat :=
  let op := vOp d
  let sf := vSF d
  let a0 := v.base + vS0 d + r * vS0Ld d
  let a1 := v.base + vS1 d + r * vS1Ld d
  let a2 := v.base + vS2 d + r * vS1Ld d
  let elem (a code : Nat) : Option Nat :=
    let w := fmtBits code
    s.rangePoison (a + i * w / 8) ((i * w % 8 + w + 7) / 8)
  if op = 0x40 then none
  else
    let second := if vScalar d || !vecTwo op then none else elem a1 sf
    let scale := if fmtMx sf then s.rangePoison (v.base + vAux d + r * vALd d + i / 32) 1 else none
    let third := if op = 0x04 then elem a2 sf else if op = 0x0D then s.rangePoison (a2 + 4 * i) 4 else none
    (((elem a0 sf).orElse (fun _ => second)).orElse (fun _ => scale)).orElse (fun _ => third)

/-- The first m elements of row r of a VEC: results written, events and metadata faults counted, poison carried (R113); a
horizontal operation, which is one step, takes the row whole. A binary64 horizontal sum starts at +0 (log 24). -/
def State.vecRow (s : State) (v : DescEnv) (d : Bytes) (r m : Nat) : State :=
  let op := vOp d
  let sf := vSF d
  let df := vDF d
  let n := vCount d
  let c := if sf = 0 then 0 else 1
  let a0 := v.base + vS0 d + r * vS0Ld d
  let a1 := v.base + vS1 d + r * vS1Ld d
  let a2 := v.base + vS2 d + r * vS1Ld d
  let dst := v.base + vDst d + r * vDLd d
  let aux := v.base + vAux d + r * vALd d
  let sat := cvtSat (vCvt d)
  let idx (i : Nat) : Nat := (vEib d + r * n + i) % 2 ^ 64
  let dep (i : Nat) : Option Nat := s.vecPoison v d r i
  let ends (es : List (Nat × Option Nat)) : List (Nat × Option Nat) := if m = n then fillRun df 0 es else es
  if op = 0x40 then
    let words := (List.range m).flatMap (fun i =>
      let x := dice (roundCounter (idx i) v.draws.kid v.draws.stream v.draws.turn) v.draws.seed
      natLe 4 x.x0.toNat ++ natLe 4 x.x1.toNat ++ natLe 4 x.x2.toNat ++ natLe 4 x.x3.toNat)
    s.writeRun dst 4 0 (words.map (fun b => (b.toNat, none)))
  else if vecInt op then
    s.writeRun dst 1 0 ((List.range m).map (fun i =>
      let x := BitVec.ofNat 32 (leNat (s.bytes (a0 + 4 * i) 4))
      let y := if vScalar d then
          (if op = 0x23 || op = 0x24 then BitVec.ofNat 32 (vImm d % 32) else BitVec.ofNat 32 (vImm d))
        else BitVec.ofNat 32 (leNat (s.bytes (a1 + 4 * i) 4))
      ((vecWord op x y).toNat, dep i)))
  else
    let r0 := s.readRow sf a0 n aux
    let r1 := s.readRow sf a1 n 0
    let r2 := s.readRow sf a2 n 0
    let b (i : Nat) : Val := if vScalar d then decodeElem 1 (vImm d) else r1.value i i
    if vecHoriz op then
      let vs := (List.range n).map (fun i => r0.value i i)
      let x : Val × FpEvents :=
        if op = 0x38 then
          (if sf = 0 then vs.foldl (fun (a : Val × FpEvents) y =>
              let t := a.1.add y
              let q := roundTo 0 .rne t.1
              (q.1, (a.2.add t.2).add q.2)) (.num false 0 0, .none)
            else Val.sumGroup vs)
        else match vs with
          | [] => (.num false 0 0, .none)
          | y :: ys => (ys.foldl (fun a z => if op = 0x39 then a.max z else a.min z) y, .none)
      let mode : Rounding := if op = 0x38 then .rne else v.draws.rounding (vCvt d) (idx 0)
      let o := convert df mode sat x.1
      (s.writeRun dst df 0 (fillRun df 0 [(o.1, r0.poison)])).countFp v.seatNo v.view (x.2.add o.2)
    else if op = 0x0C then
      s.writeRun dst 1 0 ((List.range m).map (fun i => ((if vecCompare (vImm d) (r0.value i i) (b i) then 1 else 0), dep i)))
    else if op = 0x31 then
      let blocks := (List.range (m / 32)).map (fun k =>
        let q := mxQuantise df ((List.range 32).map (fun i =>
          (r0.value (32 * k + i) (32 * k + i), v.draws.rounding (vCvt d) (idx (32 * k + i)))))
        (q.1, q.2.1, q.2.2, (List.range 32).findSome? (fun i => dep (32 * k + i))))
      let s := s.writeRun dst df 0 (blocks.flatMap (fun k => k.2.1.map (fun e => (e, k.2.2.2))))
      let s := s.writeRun aux 4 0 (blocks.map (fun k => (k.1, k.2.2.2)))
      s.countFp v.seatNo v.view (blocks.foldl (fun a k => a.add k.2.2.1) .none)
    else if op = 0x32 then
      let sp := vImm d + 1
      let g := nmM sp
      let groups := (List.range (m / g)).map (fun j =>
        let vs := (List.range g).map (fun i => r0.value (g * j + i) (g * j + i))
        let k := nmKeep (nmN sp) vs
        (vs, k.1, k.2, (List.range g).findSome? (fun i => dep (g * j + i))))
      let es := ((List.range groups.length).zip groups).flatMap (fun gg =>
        ((List.range gg.2.2.1.length).zip gg.2.2.1).map (fun jp =>
          let pos := nmN sp * gg.1 + jp.1
          let e := (vEib d + r * (n / 2) + pos) % 2 ^ 64
          let o := convert df (v.draws.rounding (vCvt d) e) sat (gg.2.1.getD jp.2 .nan)
          ((o.1, gg.2.2.2.2), o.2)))
      let ix := groups.foldr (fun g a => g.2.1.foldr (fun p q => p + q * 2 ^ nmBits sp) (a)) 0
      let ip := groups.findSome? (fun g => g.2.2.2)
      let s := s.writeRun dst df 0 (ends (es.map (·.1)))
      let s := s.writeRun aux 4 0 ((natLe (nmIndexBytes sp m) ix).map (fun b => (b.toNat, ip)))
      (s.countFp v.seatNo v.view (es.foldl (fun a e => a.add e.2) .none)).countMeta v.seatNo v.view
        { overfull := (groups.filter (fun g => g.2.2.1)).length }
    else
      let es := (List.range m).map (fun i =>
        if op = 0x41 && dropHalf v.draws.seed (idx i) v.draws.kid v.draws.stream v.draws.turn < vD d then ((0, none), FpEvents.none)
        else
          let x : Val × FpEvents := if op = 0x41 then
              (let p := (r0.value i i).mul (dropFactor (vD d))
               let q := roundTo c .rne p.1
               (q.1, p.2.add q.2))
            else
              (let sel := leNat (s.bytes (a2 + 4 * i) 4) != 0
               vecValue op c (arithRounding (vCvt d)) (r0.value i i) (b i) (r2.value i i) (op = 0x0D && sel))
          let o := convert df (v.draws.rounding (vCvt d) (idx i)) sat x.1
          ((o.1, dep i), x.2.add o.2))
      (s.writeRun dst df 0 (ends (es.map (·.1)))).countFp v.seatNo v.view (es.foldl (fun a e => a.add e.2) .none)

/-- tc that the vector engine holds n elements of a VEC, by the elements per tc of R94. -/
def vecRate (d : Bytes) (n : Nat) : Nat :=
  let op := vOp d
  let wide := vSF d = 0
  if op = 0x05 || op = 0x06 then (if wide then n else ceilDiv n 4)
  else if vecFun op then ceilDiv n 8
  else if op = 0x30 || op = 0x31 || op = 0x40 || op = 0x41 then ceilDiv n 32
  else ceilDiv n (if wide then 8 else 32)

/-- tc of one step of a VEC: of a row for a horizontal operation, else of the elements of the step (R76, R94). -/
def vecStepTc (d : Bytes) (k : Nat) : Nat :=
  if vecHoriz (vOp d) then vecRate d (vCount d)
  else
    let w := if vSF d = 0 then 256 else 1024
    vecRate d (min w (vRows d * vCount d - k * w))

/-- tc that the vector engine holds all steps of a VEC. -/
def vecTc (d : Bytes) : Nat :=
  if vecHoriz (vOp d) then vRows d * vecRate d (vCount d)
  else
    let w := if vSF d = 0 then 256 else 1024
    let n := vRows d * vCount d
    n / w * vecRate d w + vecRate d (n % w)

/-- The end of the step of a VEC that holds element n, by row-major position (R76). -/
def vecStepEnd (d : Bytes) (n : Nat) : Nat :=
  let w := if vecHoriz (vOp d) then vCount d else if vSF d = 0 then 256 else 1024
  (n / w + 1) * w

/-- VEC: its rows in ascending order; a step that meets poison is completed, and ends the descriptor with the status of the
poison's cause (R113, R145, R264). -/
def State.runVec (s : State) (v : DescEnv) (d : Bytes) : DescOut :=
  let n := vCount d
  let r := (List.range (vRows d)).foldl (fun (a : State × Option (Nat × Nat)) i =>
    let a := match a.2 with
      | some _ => a
      | none =>
        (match (List.range n).findSome? (fun c => (a.1.vecPoison v d i c).map (fun p => (c, p))) with
          | some cp => (a.1, some (vecStepEnd d (i * n + cp.1), cp.2))
          | none => a)
    let m := match a.2 with | some ep => min n (ep.1 - i * n) | none => n
    if m = 0 then a else (a.1.vecRow v d i m, a.2)) (s, none)
  let s := (r.1.tileWant v.ltile 6 (vS0 d) (vRows d * vSrcLen d) 128).tileWant v.ltile 8 (vDst d) (vRows d * vDstLen d) 128
  let s := if vecTwo (vOp d) && !vScalar d then s.tileWant v.ltile 7 (vS1 d) (vRows d * vSrcLen d) 128 else s
  { s := s.charge v.seatNo acctVectorBusy (vecTc d), err := r.2.map (fun ep => (poisonStatus ep.2, 0)) }

end Sys2Proof.Machine
end

