-- ==== Sys2Proof/Machine/Descriptors.lean ====
section
/-!
DEFINITION. The fields of REDUCE, COPY, STREAM, SYNC, BARRIER, ROUTE and NITRIG (R147 to R164), and the check of every
field that the sequencer makes in the tc in which a descriptor's first step is chosen (R119, R120).
-/

namespace Sys2Proof.Machine

/-! ### REDUCE (R147) -/

def rdOp (d : Bytes) := byteAt d 12
def rdIn (d : Bytes) := fmtByte d 13
def rdOut (d : Bytes) := fmtByte d 14
def rdCvt (d : Bytes) := byteAt d 15
def rdSrc (d : Bytes) := fld d 16 4
def rdDst (d : Bytes) := fld d 20 4
def rdCount (d : Bytes) := fld d 24 4
def rdFirst (d : Bytes) := fld d 28 2
def rdTiles (d : Bytes) := fld d 30 2
def rdShape (d : Bytes) := byteAt d 32
def rdRoot (d : Bytes) := fld d 34 2
def rdScratch (d : Bytes) := fld d 36 8
def rdGroup (d : Bytes) := fld d 44 2
def rdSeq (d : Bytes) := fld d 48 4
def rdHorizon (d : Bytes) := fld d 52 4

/-- The fields in which the members of a REDUCE must agree (R148). -/
def rdKey (d : Bytes) : List Nat :=
  [rdOp d, rdIn d, rdOut d, rdCount d, rdFirst d, rdTiles d, rdShape d, rdRoot d, rdGroup d, rdSeq d]

/-- The elements that member m receives: first and count (R147). -/
def rdPart (d : Bytes) (m : Nat) : Nat × Nat :=
  match rdShape d with
  | 0 => if rdFirst d + m = rdRoot d then (0, rdCount d) else (0, 0)
  | 1 => (0, rdCount d)
  | _ => (m * (rdCount d / rdTiles d), rdCount d / rdTiles d)

def checkReduce (s : State) (v : DescEnv) (d : Bytes) : Option (Status × Nat) :=
  let grp := rdGroup d != 0xFFFF
  match firstFail [
    (rdOp d ≤ 3 && byteAt d 13 < 32 && byteAt d 14 < 32 && cvtReserved (rdCvt d) && zeros d 33 34 && zeros d 46 48
      && zeros d 56 64 && !dSpill d, .descInvalid),
    (fmtValid (rdIn d) && fmtValid (rdOut d) && cvtModeOk (rdCvt d), .formatInvalid),
    (!fmtMx (rdIn d) && rdOut d ≤ 1 && (!grp || rdOut d == 1) && cvtMode (rdCvt d) == 0, .descInvalid),
    (1 ≤ rdCount d && rdCount d ≤ 16777215 && 1 ≤ rdTiles d && rdTiles d ≤ 960
      && rdFirst d + rdTiles d ≤ v.seat.ltiles && rdShape d ≤ 2, .descInvalid),
    (rdFirst d ≤ v.view && v.view < rdFirst d + rdTiles d, .descInvalid),
    (rdShape d != 0 || (rdFirst d ≤ rdRoot d && rdRoot d < rdFirst d + rdTiles d), .descInvalid),
    (rdShape d != 2 || rdCount d % rdTiles d == 0, .descInvalid),
    (if grp then 10 ≤ rdHorizon d && rdHorizon d ≤ 10000000 else rdSeq d == 0 && rdHorizon d == 0, .descInvalid),
    (tsaOk (rdSrc d) && tsaOk (rdDst d) && rdScratch d % 16 == 0, .descInvalid)] with
  | some st => some (st, 0)
  | none =>
    if !tsaSpan (rdSrc d) 1 0 (packedLen (rdIn d) (rdCount d)) then some (.addrInvalid, rdSrc d)
    else if !tsaSpan (rdDst d) 1 0 (packedLen (rdOut d) (rdPart d (v.view - rdFirst d)).2) then some (.addrInvalid, rdDst d)
    else match s.descAddr v.seat (rdScratch d) (8 * rdCount d) with
      | some _ => none
      | none => some (.addrInvalid, rdScratch d)

/-! ### COPY (R152) -/

def cpMode (d : Bytes) := byteAt d 12 % 4
def cpSrc (d : Bytes) := fld d 16 8
def cpDst (d : Bytes) := fld d 24 8
def cpLen (d : Bytes) := fld d 32 4
def cpRows (d : Bytes) := fld d 36 4
def cpSrcStride (d : Bytes) := fld d 40 4
def cpDstStride (d : Bytes) := fld d 44 4
def cpList (d : Bytes) := fld d 48 4
def cpKey (d : Bytes) := fld d 52 4

/-- The pieces of a COPY: source, destination and bytes of each (R152). -/
def copyPieces (s : State) (base : Nat) (d : Bytes) : List (Nat × Nat × Nat) :=
  let n := cpLen d
  match cpMode d with
  | 0 => [(cpSrc d, cpDst d, n)]
  | 1 => (List.range (cpRows d)).map (fun r => (cpSrc d + r * cpSrcStride d, cpDst d + r * cpDstStride d, n))
  | m => (List.range (cpRows d)).map (fun r =>
      let o := leNat (s.bytes (base + cpList d + 4 * r) 4)
      if m = 2 then (cpSrc d + o, cpDst d + r * n, n) else (cpSrc d + r * n, cpDst d + o, n))

/-- The checks of a COPY in order (R120, R125, R126, R152, R153). A ROWS of 0 in a form with rows, of which the spec says nothing,
ends with DESC_INVALID (log 25). -/
def checkCopy (s : State) (v : DescEnv) (d : Bytes) : Option (Status × Nat) :=
  let m := cpMode d
  let remote := !(s.ownNode (cpSrc d / 2 ^ 48) && s.ownNode (cpDst d / 2 ^ 48))
  match firstFail [
    (byteAt d 12 < 4 && zeros d 13 16 && zeros d 56 64 && !dSpill d, .descInvalid),
    (cpLen d % 16 == 0 && 1 ≤ cpLen d && 1 ≤ cpRows d && (m != 0 || cpRows d == 1) && cpLen d * cpRows d < 2 ^ 32,
      .descInvalid),
    (cpSrc d % 16 == 0 && cpDst d % 16 == 0 && (m != 1 || (cpSrcStride d % 16 == 0 && cpDstStride d % 16 == 0)),
      .descInvalid),
    (cpList d < 2 ^ 21 && (remote || cpKey d == 0), .descInvalid)] with
  | some st => some (st, 0)
  | none =>
    if 2 ≤ m && !tsaSpan (cpList d) 1 0 (4 * cpRows d) then some (.addrInvalid, cpList d)
    else
      (copyPieces s v.base d).foldl (fun r p =>
        match r with
        | some x => some x
        | none =>
          if p.1 % 16 ≠ 0 || p.2.1 % 16 ≠ 0 then some (.descInvalid, 0)
          else if s.ownNode (p.1 / 2 ^ 48) && (s.descAddr v.seat p.1 p.2.2).isNone then some (.addrInvalid, p.1)
          else if s.ownNode (p.2.1 / 2 ^ 48) && (s.descAddr v.seat p.2.1 p.2.2).isNone then some (.addrInvalid, p.2.1)
          else none) none

/-! ### STREAM (R156) -/

def smMirror (d : Bytes) := bit (byteAt d 12) 0
def smToSlot (d : Bytes) := bit (byteAt d 12) 1
def smNode (d : Bytes) := fld d 14 2
def smSrc (d : Bytes) := fld d 16 8
def smDst (d : Bytes) := fld d 24 8
def smLen (d : Bytes) := fld d 32 4
def smKey (d : Bytes) := fld d 36 4
def smOffset (d : Bytes) := fld d 40 8

/-- The pieces of a fill's destination, 4,096 bytes each, or none where one lies outside the seat's HBM (R127, R156). -/
def State.fillUnits (s : State) (x : Seat) (toSlot : Bool) (dst len : Nat) : Option (List Nat) :=
  (List.range (len / 4096)).foldr (fun i r =>
    match r, (if toSlot then s.slotAddr x (slotAdd dst (4096 * i)) 4096 else s.quotaAddr x (dst + 4096 * i) 4096) with
    | some l, some a => some (a :: l)
    | _, _ => none) (some [])

def checkStream (s : State) (v : DescEnv) (d : Bytes) : Option (Status × Nat) :=
  match firstFail [
    (byteAt d 12 < 4 && zeros d 13 14 && zeros d 48 64 && !dSpill d, .descInvalid),
    (smMirror d || smNode d == 0, .descInvalid),
    (!smToSlot d || bits (smDst d) 55 48 == 0, .descInvalid),
    (smSrc d % 4096 == 0 && smDst d % 4096 == 0 && smLen d % 4096 == 0 && 4096 ≤ smLen d, .descInvalid)] with
  | some st => some (st, 0)
  | none => if (s.fillUnits v.seat (smToSlot d) (smDst d) (smLen d)).isSome then none else some (.addrInvalid, smDst d)

/-! ### SYNC and BARRIER (R158, R159) -/

def syOp (d : Bytes) := byteAt d 12
def syCref (d : Bytes) := fld d 16 4
def syValue (d : Bytes) := fld d 20 4
def syLimit (d : Bytes) := fld d 24 4

/-- The checks of a SYNC (R120, R129, R158); LIMIT is used by WAIT only and not looked at elsewhere. -/
def checkSync (v : DescEnv) (d : Bytes) : Option (Status × Nat) :=
  let own := match crefTarget v.seat v.view (syCref d) with
    | some (.tile _ _) => bits (syCref d) 31 28 == 0
    | some (.cluster c _) => c == v.view / 8
    | _ => false
  let set := match crefTarget v.seat v.view (syCref d) with | some (.ni _) => false | _ => true
  (firstFail [
    (syOp d ≤ 2 && zeros d 13 16 && zeros d 28 64 && !dSpill d, .descInvalid),
    ((crefTarget v.seat v.view (syCref d)).isSome, .descInvalid),
    (syOp d != 1 || own, .descInvalid),
    (syOp d != 2 || set, .descInvalid)]).map (fun st => (st, 0))

def brBid (d : Bytes) := byteAt d 12
def brHome (d : Bytes) := fld d 14 2
def brMembers (d : Bytes) := fld d 16 4
def brLimit (d : Bytes) := fld d 20 4

def checkBarrier (v : DescEnv) (d : Bytes) : Option (Status × Nat) :=
  (firstFail [
    (brBid d < 64 && zeros d 13 14 && zeros d 24 64 && !dSpill d, .descInvalid),
    (brHome d < (clustersOf v.seat.record).length && 1 ≤ brMembers d && brMembers d ≤ 7680, .descInvalid)]).map
    (fun st => (st, 0))

/-! ### ROUTE (R162) -/

def roMode (d : Bytes) := byteAt d 12 % 4
def roNorm (d : Bytes) := bit (byteAt d 12) 2
def roGrant (d : Bytes) := bit (byteAt d 12) 3
def roK (d : Bytes) := byteAt d 13
def roSpace (d : Bytes) := fld d 14 2
def roTokens (d : Bytes) := fld d 16 4
def roLogitFmt (d : Bytes) := fmtByte d 20
def roTokenBase (d : Bytes) := fld d 24 8
def roLogits (d : Bytes) := fld d 32 8
def roOut (d : Bytes) := fld d 40 8
def roOutLen (d : Bytes) := fld d 48 4
def roGroup (d : Bytes) := fld d 52 2

def checkRoute (s : State) (v : DescEnv) (d : Bytes) : Option (Status × Nat) :=
  let hash := roMode d == 2
  match firstFail [
    (byteAt d 12 < 16 && byteAt d 20 < 32 && zeros d 21 24 && zeros d 54 64 && !dSpill d, .descInvalid),
    (roMode d != 3 && 1 ≤ roK d && roK d ≤ 16 && 1 ≤ roTokens d && roTokens d ≤ 262144, .descInvalid),
    (fmtValid (roLogitFmt d), .formatInvalid),
    (if hash then roLogitFmt d == 0 else roLogitFmt d == 1 || roLogitFmt d == 3, .descInvalid),
    ((!hash || roLogits d == 0) && roLogits d % 16 == 0 && roOut d % 16 == 0, .descInvalid),
    (roGrant d || roGroup d == 0xFFFF, .descInvalid),
    (!roGrant d || roGroup d < 1024, .descInvalid)] with
  | some st => some (st, 0)
  | none =>
    if (s.descAddr v.seat (roOut d) (max 1 (roOutLen d))).isNone then some (.addrInvalid, roOut d)
    else if !hash && (s.descAddr v.seat (roLogits d) 1).isNone then some (.addrInvalid, roLogits d)
    else none

/-! ### NITRIG (R164) -/

def ntAction (d : Bytes) := byteAt d 12
def ntClass (d : Bytes) := byteAt d 13 % 4
def ntSlot (d : Bytes) := fld d 14 2
def ntCtr (d : Bytes) := fld d 16 4
def ntThresh (d : Bytes) := fld d 20 4
def ntNext (d : Bytes) := fld d 24 4
def ntLen (d : Bytes) := fld d 28 4
def ntArg (d : Bytes) (i : Nat) := fld d (32 + 8 * i) 8

/-- A NI counter number that the seat holds (R398). -/
def niHeld (x : Seat) (n : Nat) : Bool :=
  if n < 2048 then n < 64 * recNictr x.record 0 else n < 4096 && n - 2048 < 64 * recNictr x.record 1

/-- The hub of a NI counter number (R398). -/
def niHub (n : Nat) : Nat := if n < 2048 then 0 else 1

/-- The ACTION codes of R403. -/
def actionKnown (a : Nat) : Bool := [0x01, 0x10, 0x11, 0x12, 0x13, 0x20, 0x21, 0x22, 0x23, 0x24, 0x28, 0x29].contains a

def checkNitrig (v : DescEnv) (d : Bytes) : Option (Status × Nat) :=
  let ctr := ntCtr d
  (firstFail [
    (actionKnown (ntAction d) && byteAt d 13 < 4 && ctr < 65536 && !dSpill d, .descInvalid),
    (niHeld v.seat ctr, .descInvalid),
    (ntSlot d < 64 * recTrig v.seat.record (niHub ctr), .descInvalid),
    (ntNext d == 0xFFFFFFFF || (ntNext d < 65536 && niHeld v.seat (ntNext d)), .descInvalid)]).map (fun st => (st, 0))

/-! ### Every descriptor (R119 to R123) -/

/-- The check of the common header: type, reserved bits, the completion signal (R120 to R123). -/
def checkHeader (v : DescEnv) (d : Bytes) : Bool :=
  1 ≤ dType d && dType d ≤ 10 && byteAt d 1 < 8
    && (if dSig d then 1 ≤ dSigVal d && (crefTarget v.seat v.view (dSigRef d)).isSome
        else dSigVal d == 0 && dSigRef d == 0)

/-- The check of a descriptor: none where it passes (R119). -/
def checkDesc (s : State) (v : DescEnv) (d : Bytes) : Option (Status × Nat) :=
  if !checkHeader v d then some (.descInvalid, 0)
  else
    match dType d with
    | 1 => checkMatmul s.ident.b1 d
    | 2 => checkGmm s v d
    | 3 => checkVec s.ident.b1 d
    | 4 => checkReduce s v d
    | 5 => checkCopy s v d
    | 6 => checkStream s v d
    | 7 => checkSync v d
    | 8 => checkBarrier v d
    | 9 => checkRoute s v d
    | _ => checkNitrig v d

/-- The steps of a descriptor (R76); those of a GMM are counted as its units begin. -/
def stepsOf (d : Bytes) : Nat :=
  match dType d with
  | 1 => stepsMatmul d
  | 3 => stepsVec d
  | 4 => max 1 (ceilDiv (rdCount d) (if rdIn d = 0 then 256 else 1024))
  | _ => 1

/-- n bytes at a descriptor address lie in the issuing tile's own store. -/
def State.inOwnStore (s : State) (v : DescEnv) (a n : Nat) : Bool :=
  match s.descAddr v.seat a n with
  | some p => v.base ≤ p && p + n ≤ v.base + tileBytes
  | none => false

/-- A COPY reads outside the own store into it or beyond, and writes outside it (R77, R103, R154). -/
def State.copyWays (s : State) (v : DescEnv) (d : Bytes) : Bool × Bool :=
  let ps := copyPieces s v.base d
  (ps.any (fun p => !s.inOwnStore v p.1 p.2.2), ps.any (fun p => !s.inOwnStore v p.2.1 p.2.2))

/-- The last step of a descriptor other than a GMM is a remote access (R76, R77): of a COPY that leaves the own store, of the
hand-overs, of a signal or SET to another tile's or a cluster's counter (R130), and of a REDUCE with other members. -/
def State.isRemote (s : State) (v : DescEnv) (d : Bytes) : Bool :=
  match dType d with
  | 4 => 1 < rdTiles d || rdGroup d != 0xFFFF
  | 5 => (s.copyWays v d).1 || (s.copyWays v d).2
  | 6 | 9 | 10 => true
  | 7 => syOp d != 1 && (match crefTarget v.seat v.view (syCref d) with
      | some (.tile t _) => t != v.view
      | _ => true)
  | _ => false

end Sys2Proof.Machine
end

