-- ==== Sys2Proof/Machine/Links.lean ====
section
/-!
DEFINITION. Packets and their bytes (R335 to R340), route tables and the choice of a port (R341 to R347), output queues,
the sending side of a network interface with its streams, resends and TC0 queues (R352, R439, R521, R522), and the
receiving streams with their reorder buffer (R353, R371 to R376).
-/

namespace Sys2Proof

open Machine

/-! ### CRC-32C -/

/-- One bit of the reflected CRC-32C division. -/
def crcBit (c : W32) : W32 := if c.getLsbD 0 then (c >>> 1) ^^^ 0x82F63B78 else c >>> 1

def crcByte (c : W32) (b : Byte) : W32 :=
  let c := c ^^^ BitVec.ofNat 32 b.toNat
  crcBit (crcBit (crcBit (crcBit (crcBit (crcBit (crcBit (crcBit c)))))))

/-- The CRC-32C of a byte string: initial value and final exclusive-or all ones. -/
def crc32c (bs : Bytes) : Nat := ((bs.foldl crcByte 0xFFFFFFFF) ^^^ 0xFFFFFFFF).toNat

/-! ### Packets and their bytes (R335, R336) -/

def b2n (b : Bool) : Nat := if b then 1 else 0

/-- The 16 header bytes of R335. -/
def Packet.header (p : Packet) : Bytes :=
  natLe 2 p.dst ++ natLe 2 p.src ++
  [BitVec.ofNat 8 (p.type + 64 * p.tc),
   BitVec.ofNat 8 (b2n p.last + 2 * b2n p.empty + 4 * b2n p.reliable + 8 * b2n p.adaptive + 16 * b2n p.tree)] ++
  natLe 2 ((if p.empty then 0 else p.payload.length - 1) + 4096 * p.vl) ++ natLe 4 p.seq ++ natLe 4 p.tag

/-- The end-to-end CRC, with ADAPTIVE taken as 0 (R336). -/
def Packet.crc (p : Packet) : Nat := crc32c (Packet.header { p with adaptive := false } ++ p.payload)

/-- Bytes of a packet on a link: header, payload, trailer. -/
def Packet.size (p : Packet) : Nat := 24 + p.payload.length

/-- Bytes with a mark on those that are poison. -/
def marked (bs : Bytes) (bad : List Nat) : List (Byte × Bool) :=
  ((List.range bs.length).zip bs).map (fun ib => (ib.2, bad.contains ib.1))

/-- A packet as the bytes of its stream. -/
def Packet.encode (p : Packet) : List (Byte × Bool) :=
  marked (Packet.header p) [] ++ marked p.payload p.bad ++ marked (natLe 4 p.crc ++ natLe 4 p.epoch) []

/-- What a string of bytes starts with: nothing whole yet, a packet with the CRC it carries and its reserved header
bits. -/
structure Parsed where
  pkt : Packet
  crc : Nat
  reserved : Nat
deriving DecidableEq, Repr

/-- The number of bytes of the packet whose header a string starts with, once the header is there. -/
def packetSize (bs : Bytes) : Option Nat :=
  if bs.length < 16 then none
  else some (if bit (byteAt bs 5) 1 then 24 else 25 + fld bs 6 2 % 4096)

/-- The packet that n marked bytes hold. -/
def parsePacket (ms : List (Byte × Bool)) : Parsed :=
  let bs := ms.map (·.1)
  let n := bs.length - 24
  let f := byteAt bs 5
  { pkt := { dst := fld bs 0 2, src := fld bs 2 2, type := byteAt bs 4 % 64, tc := byteAt bs 4 / 64,
             last := bit f 0, empty := bit f 1, reliable := bit f 2, adaptive := bit f 3, tree := bit f 4,
             vl := fld bs 6 2 / 4096, seq := fld bs 8 4, tag := fld bs 12 4, payload := (bs.drop 16).take n,
             bad := (List.range n).filter (fun i => ((ms.drop 16)[i]?.getD (0, false)).2),
             epoch := fld bs (20 + n) 4 }
    crc := fld bs (16 + n) 4
    reserved := f / 32 + (if bit f 1 then fld bs 6 2 % 4096 else 0) }

/-- The classes in which a packet type may travel (R338). -/
def typeClasses (t : Nat) : List Nat :=
  if t = 0 then []
  else if t ≤ 4 then [2, 3]
  else if t ≤ 8 then [2]
  else if t = 9 then [2, 3]
  else if t = 0x10 then [1, 3]
  else if t = 0x11 then [0, 1]
  else if t = 0x12 then [1]
  else if t = 0x13 then [0, 1]
  else if t = 0x14 then [0, 1, 3]
  else if [0x18, 0x19, 0x20, 0x21].contains t then [0]
  else []

/-- The header checks of R340. -/
def Parsed.ok (q : Parsed) : Bool :=
  let p := q.pkt
  p.dst != 0xFFFF && p.src != 0xFFFF && (typeClasses p.type).contains p.tc
    && !(p.reliable && p.tc == 2)
    && (!p.empty || p.type == 0x10 || p.type == 0x12)
    && (!p.tree || p.type == 0x10)
    && (p.tc != 0 || (p.payload.length ≤ 256 && p.vl ≤ 3))
    && q.reserved == 0

/-- The TAG layout COLL of R337. -/
def collTag (group inst step : Nat) : Nat := group + inst % 64 * 1024 + step * 65536
def tagGroup (t : Nat) : Nat := t % 1024
def tagInst (t : Nat) : Nat := t / 1024 % 64
def tagStep (t : Nat) : Nat := t / 65536

/-- The types whose TAG has the COLL layout (R338). -/
def collType (t : Nat) : Bool := [0x10, 0x11, 0x12, 0x13, 0x18, 0x19].contains t

/-- The types without a number in their stream (R352). -/
def unnumbered (t : Nat) : Bool := [0x14, 0x20, 0x21].contains t

/-- A packet with no flags, from its main fields. -/
def mkPacket (dst type tc vl tag epoch : Nat) (payload : Bytes) : Packet :=
  { dst := dst, src := 0, type := type, tc := tc, last := true, empty := payload.isEmpty, reliable := false,
    adaptive := false, tree := false, vl := vl, seq := 0, tag := tag, payload := payload, bad := [], epoch := epoch }

/-- The number of a stream between nodes: the other node, class, lane, epoch (R352). -/
def streamKey (node tc vl epoch : Nat) : Nat := ((node * 4 + tc) * 16 + vl) * 2 ^ 32 + epoch % 2 ^ 32

def Packet.rxKey (p : Packet) : Nat := streamKey p.src p.tc p.vl p.epoch

/-- The order group of a packet within its stream: packets of different groups do not wait for each other (R411), nor
those of a call and of a grant phase, but every packet waits for a PERM_DATA packet before it (R456). -/
def Packet.channel (p : Packet) : Nat :=
  if p.type = 0x18 || p.type = 0x19 then 1025 + tagGroup p.tag
  else if collType p.type then 1 + tagGroup p.tag
  else 0

end Sys2Proof

namespace Sys2Proof.Machine

/-! ### Ports and routes (R341 to R347) -/

def State.port (s : State) (p : Nat) : Port := FMap.get {} s.fab.ports p

def State.setPort (s : State) (p : Nat) (x : Port) : State :=
  { s with fab := { s.fab with ports := FMap.put {} s.fab.ports p x } }

def State.params (s : State) (hub : Nat) : HubParams := FMap.get {} s.fab.params hub

/-- The hub of a port (R19). -/
def portHub (p : Nat) : Nat := p / 12

/-- The routes of an entry that are defined: route number, port, MIN (R342). -/
def entryRoutes (e : W64) : List (Nat × Nat × Bool) :=
  (List.range 4).filterMap (fun i =>
    let r := e.toNat / 2 ^ (16 * i) % 65536
    if bit r 5 then some (i, r % 32, bit r 6) else none)

/-- A route's port can take a packet of a class from an arrival port (R343, R334). -/
def State.routeUsable (s : State) (arrival tc p : Nat) : Bool :=
  let x := s.port p
  p < 24 && x.state == .up && !x.soaking && p != arrival && (tc == 0 || !x.held)

/-- Flits that the packets queued for a port in a class will fill. -/
def Port.depth (x : Port) (tc : Nat) : Nat :=
  ceilDiv ((x.queue.filter (fun q => q.pkt.tc == tc)).foldl (fun a q => a + (q.pkt.size - q.sent)) 0) 244

/-- A port's queue is about to change: what it held at the start of the hc is kept for the lookups of that hc (R344). -/
def State.markDepth (s : State) (p : Nat) : State :=
  let x := s.port p
  if x.depthHc = s.hcNow && !x.depths.isEmpty then s
  else s.setPort p { x with depthHc := s.hcNow, depths := (List.range 4).map x.depth }

/-- depth of R344: as it stood at the start of this hc. -/
def State.queueDepth (s : State) (p tc : Nat) : Nat :=
  let x := s.port p
  if x.depthHc = s.hcNow && !x.depths.isEmpty then x.depths.getD tc 0 else x.depth tc

/-- The route of least depth, the lower route number on a tie. -/
def State.leastDeep (s : State) (tc : Nat) (rs : List (Nat × Nat × Bool)) : Option (Nat × Nat) :=
  rs.foldl (fun a r =>
    let d := s.queueDepth r.2.1 tc
    match a with
    | none => some (r.2.1, d)
    | some b => if d < b.2 then some (r.2.1, d) else a) none

/-- The port that R344 takes among the routes of an entry, and whether it is a detour that clears ADAPTIVE. -/
def State.chooseRoute (s : State) (e : W64) (arrival hub : Nat) (p : Packet) : Option (Nat × Bool) :=
  let u := (entryRoutes e).filter (fun r => s.routeUsable arrival p.tc r.2.1)
  if p.tc = 0 || !p.adaptive then
    match u.find? (fun r => r.2.2) with
    | some r => some (r.2.1, false)
    | none => u.head?.map (fun r => (r.2.1, false))
  else
    let m := s.leastDeep p.tc (u.filter (fun r => r.2.2))
    let n := s.leastDeep p.tc (u.filter (fun r => !r.2.2))
    let div := (s.params hub).divert
    match m, n with
    | some m, some n => if m.2 < div || n.2 + div > m.2 then some (m.1, false) else some (n.1, true)
    | some m, none => some (m.1, false)
    | none, some n => some (n.1, true)
    | none, none => none

/-- An entry of a table of a holder: ports 0 to 23, 24 and 25 the NIs of HD0 and HD1 (R342). -/
def State.tableEntry (s : State) (holder : Nat) (member : Bool) (e : Nat) : W64 :=
  if holder < 24 then FMap.get 0 (if member then (s.port holder).memberTable else (s.port holder).groupTable) e
  else FMap.get 0 (if member then s.fab.niMember else s.fab.niGroup) (256 * (holder - 24) + e)

/-- An entry as a lookup of this hc sees it: as it stood before it was written in this hc (R345). -/
def State.lookup (s : State) (holder : Nat) (member : Bool) (e : Nat) : W64 :=
  match s.fab.routesOld.find? (fun o => o.holder == holder && o.member == member && o.entry == e && o.hc == s.hcNow) with
  | some o => o.old
  | none => s.tableEntry holder member e

/-- The entry of a packet's destination in the tables of its arrival port, or of the hub's NI (R344). -/
def State.routeEntry (s : State) (arrival hub dst : Nat) : W64 :=
  let member := dst / 256 == s.fab.node / 256
  s.lookup (if arrival < 24 then arrival else 24 + hub) member (if member then dst % 256 else dst / 256)

/-- The instance of a port counter for a packet that arrived at a port, or started at a hub's NI (log 18). -/
def routeInst (arrival hub : Nat) : Nat := if arrival < 24 then arrival else 12 * hub

/-- The bytes of arrival flits leave the receive buffer: each flit emptied returns a credit to the partner (R327). -/
def State.freeFlits (s : State) (p : Nat) (origin : List (Nat × Nat)) : State :=
  origin.foldl (fun s o =>
    let x := s.port p
    match FMap.find? x.flits o.1 with
    | none => s
    | some (stream, left) =>
      if o.2 < left then s.setPort p { x with flits := FMap.insert x.flits o.1 (stream, left - o.2) }
      else
        let heldFlits := (x.flits.filter (fun f => f.2.1 == stream)).length
        let tc := stream / 16
        let reserve := if tc = 0 then 16 else 20
        let shared := tc ≠ 0 && reserve < heldFlits
        let c : Control := { code := 1, body := [BitVec.ofNat 8 (tc + 4 * (stream % 16) + 64 * b2n shared), 1, 0, 0, 0, 0, 0] }
        s.setPort p { x with flits := FMap.erase x.flits o.1, controlOut := x.controlOut ++ [c] }) s

/-- A packet passes from one hub to the other, over the links of R347, where it leaves or is taken at the other hub than it came to:
by an even-numbered port or the NI of HD0, or otherwise. -/
def State.transit (s : State) (arrival hub dest n : Nat) : State :=
  let from_ := if arrival < 24 then portHub arrival else hub
  if from_ = dest then s
  else s.overLinks (transitPath (if arrival < 24 then arrival % 2 == 0 else hub == 0)) n

/-- A packet looked up and queued for its port, or discarded with SFL_NO_ROUTE; true where it was queued (R344). -/
def State.routeOut (s : State) (q : OutPkt) : State × Bool :=
  let e := s.routeEntry q.req q.hub q.pkt.dst
  match s.chooseRoute e q.req q.hub q.pkt with
  | none =>
    let s := s.countTc 0x800C (routeInst q.req q.hub) q.pkt.tc 1
    ((if q.req < 24 then s.freeFlits q.req q.origin else s), false)
  | some (p, detour) =>
    let s := if detour then s.countTc 0x800D p q.pkt.tc 1 else s
    let q := if detour then { q with pkt := { q.pkt with adaptive := false } } else q
    let s := s.markDepth p
    let x := s.port p
    ((s.setPort p { x with queue := x.queue ++ [q] }).transit q.req q.hub (portHub p) q.pkt.size, true)

/-! ### Receiving streams (R352, R353, R371, R374) -/

/-- The stream hub of R371. -/
def streamHub (src vl : Nat) : Nat := (src + vl) % 2

def seqNext (x : Nat) : Nat := (x + 1) % 2 ^ 32
/-- x lies before y in serial order modulo 2^32. -/
def seqBefore (x y : Nat) : Bool := x != y && (y + 2 ^ 32 - x) % 2 ^ 32 < 2 ^ 31

def State.rxStream (s : State) (k : Nat) : RxStream := FMap.get {} s.ni.rx k

def State.setRx (s : State) (k : Nat) (x : RxStream) : State :=
  { s with ni := { s.ni with rx := FMap.put {} s.ni.rx k x } }

/-- Some seat has the epoch as its current one (R363, R375). -/
def State.epochCurrent (s : State) (e : Nat) : Bool := s.seats.any (fun ks => ks.2.epoch.toNat == e)

/-- Bytes that early packets of a hub hold, of TC0 or of the other classes (R374). -/
def State.robBytes (s : State) (hub : Nat) (tc0 : Bool) : Nat :=
  s.ni.rx.foldl (fun a kx => kx.2.early.foldl (fun a i =>
    if streamHub i.pkt.src i.pkt.vl == hub && (i.pkt.tc == 0) == tc0 then a + i.pkt.size else a) a) 0

/-- A packet is released: it joins the packets at the homes and engines, in the order of release. -/
def State.release (s : State) (i : Inbound) : State :=
  { s with ni := { s.ni with inbox := s.ni.inbox ++ [i] } }

/-- Early packets that have become next in their stream are released in SEQ order. -/
def State.releaseEarly : Nat → State → Nat → State
  | 0, s, _ => s
  | fuel + 1, s, k =>
    let x := s.rxStream k
    match x.early.find? (fun i => i.pkt.seq == x.next) with
    | none => s
    | some i =>
      let s := s.setRx k { x with next := seqNext x.next, early := x.early.filter (fun j => j.pkt.seq != x.next) }
      State.releaseEarly fuel (s.release i) k

/-- The class of a seat's traffic at a packet's target, for accounting on receive (R525). -/
def State.targetSeat (s : State) (p : Packet) : Option Nat :=
  if collType p.type then (FMap.find? s.ni.groups (tagGroup p.tag)).map (·.seat)
  else if [1, 3, 5, 7].contains p.type then (FMap.find? s.ni.windows (p.tag % 4096)).bind (fun w => if w.v then some w.seat else none)
  else (List.find? (fun (ks : Nat × Seat) => ks.2.epoch.toNat == p.epoch) s.seats).map (·.1)

/-- A packet for this node: MGMT, TIME and E2E_ACK are released as they come; of a stream, the next is released with
the early ones after it, an early one held or, for want of room, discarded, one already applied discarded; a packet
whose epoch no seat holds has no stream and is released to be refused (R353, R374, R375, R395, R438). -/
def State.deliver (s : State) (i : Inbound) : State :=
  let p := i.pkt
  let free (s : State) : State := if i.port < 24 then s.freeFlits i.port i.origin else s
  let early := { i with origin := [] }
  if unnumbered p.type || !s.epochCurrent p.epoch then s.release i
  else
    let k := p.rxKey
    let x := s.rxStream k
    if p.seq = x.next then
      let s := s.setRx k { x with next := seqNext x.next }
      State.releaseEarly (x.early.length + 1) (s.release i) k
    else if seqBefore p.seq x.next || x.early.any (fun j => j.pkt.seq == p.seq) then
      -- already applied or held: discarded; a reliable duplicate draws a fresh acknowledgement
      let s := free s
      if p.reliable && seqBefore p.seq x.next then s.setRx k { s.rxStream k with duplicate := true } else s
    else
      let hub := streamHub p.src p.vl
      let limit := if p.tc = 0 then 524288 else 8388608 - 524288
      if s.robBytes hub (p.tc == 0) + p.size ≤ limit then
        (free s).setRx k { x with early := x.early ++ [early] }
      else (free s).count 0x9003 none hub 1

/-! ### Sending (R352, R359, R439, R521, R522) -/

def State.txStream (s : State) (k : Nat) : TxStream := FMap.get {} s.ni.tx k

def State.setTx (s : State) (k : Nat) (x : TxStream) : State :=
  { s with ni := { s.ni with tx := FMap.put {} s.ni.tx k x } }

/-- The bytes of pieces of memory, and the positions of the poisoned ones. -/
def State.gather (s : State) (pieces : List (Nat × Nat)) : Bytes × List Nat :=
  pieces.foldl (fun (a : Bytes × List Nat) p =>
    let n := a.1.length
    (a.1 ++ s.bytes p.1 p.2,
     a.2 ++ ((List.range p.2).filter (fun i => (s.wordPoison (wordBase (p.1 + i))).isSome)).map (· + n))) ([], [])

/-- A packet whose payload ends with the bytes of pieces of memory as they stand now. -/
def State.filled (s : State) (p : Packet) (pieces : List (Nat × Nat)) : Packet :=
  let g := s.gather pieces
  let n := p.payload.length
  { p with payload := p.payload ++ g.1, bad := p.bad ++ g.2.map (· + n) }

/-- A packet starts at a hub's NI: numbered in its stream, kept where it is reliable, routed; false where no route can
take it (R352, R359, R439). Packets to the own node are delivered without a port (R341). -/
def State.startPacket (s : State) (hub : Nat) (seat : Option Nat) (p : Packet) (pieces : List (Nat × Nat))
    (owner : Option Owner) : State × Bool × Nat :=
  let k := streamKey p.dst p.tc p.vl p.epoch
  let t := s.txStream k
  let p := { p with src := s.fab.node, seq := if unnumbered p.type then 0 else t.next }
  let keep := p.reliable && p.type ≠ 0x14
  let full := s.filled p pieces
  let t' := if unnumbered p.type then t else { t with next := seqNext t.next }
  let x : TxPkt := { pkt := if full.payload.length ≤ 256 then full else p,
                     pieces := if full.payload.length ≤ 256 then [] else pieces, hub := hub,
                     seat := seat.getD 64, owner := owner }
  let t' := if keep then { t' with unacked := t'.unacked ++ [x] } else t'
  let s := s.setTx k t'
  if p.dst = s.fab.node then (s.deliver { pkt := full, port := 24, origin := [], at_ := s.time }, true, p.seq)
  else
    let r := s.routeOut { req := 24, hub := hub, seat := seat, pkt := full, sent := 0, origin := [] }
    (r.1, r.2, p.seq)

/-- Tokens of a seat's TC0 bucket now: TC0_CAP × 256 bytes for each 10 µs, at most that amount (R522). -/
def Seat.tc0Tokens (x : Seat) (now : Nat) : Nat :=
  let cap := recTc0Cap x.record * 256
  min cap (x.tc0Bucket + (now - x.tc0At) * cap / (10 * usUnits))

/-- The waiting TC0 packets of a hub's seats start in rotation by ascending seat number while their buckets hold their
length (R521, R522). -/
def State.pumpTc0 : Nat → State → Nat → State
  | 0, s, _ => s
  | fuel + 1, s, hub =>
    let round := s.seats.foldl (fun (a : State × Bool) ks =>
      let s := a.1
      let n := ks.1
      let key := 2 * n + hub
      match FMap.find? s.ni.tc0 key, s.seat? n with
      | some (p :: rest), some x =>
        let have_ := x.tc0Tokens s.time
        if recTc0Cap x.record = 0 || p.size ≤ have_ then
          let x := { x with tc0Bucket := have_ - p.size, tc0At := s.time }
          let s := s.setSeat n x
          let s := { s with ni := { s.ni with tc0 := FMap.put [] s.ni.tc0 key rest } }
          ((s.startPacket hub (some n) p [] none).1, true)
        else a
      | _, _ => a) (s, false)
    if round.2 then State.pumpTc0 fuel round.1 hub else round.1

/-- A seat's TC0 packet joins its queue at a hub, and what may start does. -/
def State.sendTc0 (s : State) (hub seat : Nat) (p : Packet) : State :=
  let key := 2 * seat + hub
  let s := { s with ni := { s.ni with tc0 := FMap.put [] s.ni.tc0 key (FMap.get [] s.ni.tc0 key ++ [p]) } }
  State.pumpTc0 ((FMap.get [] s.ni.tc0 key).length + 1) s hub

/-- An EXCHANGE or RETURN keeps the status with which its traffic fails: NO_ROUTE, or TIMEOUT for a stream given up (R359,
R441). -/
def State.markLost (s : State) (o : Option Owner) (st : Status) : State :=
  match o with
  | some (.action id) => { s with ni := { s.ni with actions := FMap.upd s.ni.actions id (fun a =>
      { a with perm := a.perm.map (fun p => { p with lost := p.lost.orElse (fun _ => some st) }) }) } }
  | _ => s

/-- A seat's packet sent in its class; one that no route can take is kept for its resend where it is reliable, and its EXCHANGE or
RETURN ends with NO_ROUTE (R359, R439). -/
def State.sendSeat (s : State) (hub seat : Nat) (p : Packet) (pieces : List (Nat × Nat)) (owner : Option Owner) : State :=
  let s := s.hubTraffic seat hub pieces false
  if p.tc = 0 then s.sendTc0 hub seat (s.filled p pieces)
  else
    let r := s.startPacket hub (some seat) p pieces owner
    if r.2.1 then r.1 else r.1.markLost owner .noRoute

/-- The bytes of a payload land in memory, its poisoned ones with cause 0b11 (R264, R265). -/
def State.land (s : State) (a : Nat) (bs : Bytes) (bad : List Nat) : State :=
  let s := s.store a bs
  bad.foldl (fun s i => if i < bs.length then s.poisonRange (a + i) 1 3 else s) s

/-! ### Taking a released packet -/

/-- The packet at a place of the released packets, where it is of one of the types and none that it must follow
stands before it: of its stream, or, of MGMT, TIME and E2E_ACK, of those of its type from its source (R353). -/
def State.taken (s : State) (i : Nat) (types : List Nat) : Option Inbound :=
  match s.ni.inbox[i]? with
  | none => none
  | some x =>
    if types.contains x.pkt.type
        && !(s.ni.inbox.take i).any (fun y => y.pkt.rxKey == x.pkt.rxKey
          && (if unnumbered x.pkt.type then y.pkt.type == x.pkt.type
            else !unnumbered y.pkt.type && (y.pkt.type == 0x12 || y.pkt.channel == x.pkt.channel))) then some x
    else none

/-- The released packet at a place is done with: its arrival flits are freed, and where it is reliable it counts toward
an acknowledgement (R438). -/
def State.dropTaken (s : State) (i : Nat) (ack : Bool) : State :=
  match s.ni.inbox[i]? with
  | none => s
  | some x =>
    let s := { s with ni := { s.ni with inbox := s.ni.inbox.eraseIdx i } }
    let s := if x.port < 24 then s.freeFlits x.port x.origin else s
    if ack && x.pkt.reliable && x.pkt.type ≠ 3 && s.epochCurrent x.pkt.epoch then
      let k := x.pkt.rxKey
      let r := s.rxStream k
      s.setRx k { r with reliables := r.reliables + 1 }
    else s

/-- The highest SEQ applied in order of a receiving stream: before the first packet still to be applied. -/
def State.appliedSeq (s : State) (k : Nat) : Nat :=
  let first := match s.ni.inbox.find? (fun i => !unnumbered i.pkt.type && i.pkt.rxKey == k) with
    | some i => i.pkt.seq
    | none => (s.rxStream k).next
  (first + 2 ^ 32 - 1) % 2 ^ 32

/-- The fields of a stream number. -/
def keyNode (k : Nat) : Nat := k / 2 ^ 38
def keyTc (k : Nat) : Nat := k / 2 ^ 36 % 4
def keyVl (k : Nat) : Nat := k / 2 ^ 32 % 16
def keyEpoch (k : Nat) : Nat := k % 2 ^ 32

/-- The E2E_ACK of a receiving stream (R438). -/
def State.sendE2eAck (s : State) (k : Nat) : State :=
  let r := s.rxStream k
  let p := mkPacket (keyNode k) 0x14 (keyTc k) (keyVl k) (s.appliedSeq k) (keyEpoch k) (natLe 4 r.reliables ++ List.replicate 12 0)
  let s := s.setRx k { r with reliables := 0, duplicate := false }
  (s.startPacket (streamHub (keyNode k) (keyVl k)) none p [] none).1

/-- At least every 16 applied packets of a stream, and every duplicate, are acknowledged (R438). -/
def State.ackIfDue (s : State) (k : Nat) : State :=
  let r := s.rxStream k
  if 16 ≤ r.reliables || r.duplicate then s.sendE2eAck k else s

end Sys2Proof.Machine
end

