-- ==== Sys2Proof/Machine/Steal.lean ====
section
/-!
DEFINITION. GMM at work, alone and with work stealing (R141 to R144, R186 to R197, R676): what each of its steps does when its row
comes, how sums are merged and written, what a thief takes. A row that names an event which cannot happen in the state changes
nothing (log 4).
-/

namespace Sys2Proof.Machine

/-- The outcome of a meaning that goes on. -/
abbrev Out := Host.Outcome State Fault Refusal

/-- The GMM of a context replaced. -/
def State.setGmm (s : State) (t c : Nat) (g : GmmRun) : State :=
  let x := s.ctx t c
  s.setCtx t c { x with cur := x.cur.map (fun e => { e with gmm := some g }) }

/-! ### What may be taken (R189 to R195) -/

/-- The stealing GMMs in execution of a tile, each with its context. -/
def State.stealing (s : State) (t : Nat) : List (Nat × Ctx × Exec × GmmRun) :=
  ((List.range 8).zip (s.tile t).ctxs).filterMap (fun cx =>
    match cx.2.cur with
    | some e =>
      (match e.gmm with
        | some g => if cx.2.state = .faulted || !gmSteal e.desc then none else some (cx.1, cx.2, e, g)
        | none => none)
    | none => none)

/-- What of a GMM's work a thief may take: its last unstarted unit, or the highest unstarted segment of its current
unit that R190 allows; of a segment that it has itself taken, nothing. -/
def stealable (g : GmmRun) : Option (Option Nat) :=
  if !g.units.isEmpty then some none
  else
    match g.runs.getLast? with
    | none => none
    | some r =>
      if r.unstarted.length < 2 || r.lent.isSome || !gmBlock r.desc then none
      else (r.unstarted.filter (fun k => k ≠ 0 && k ≤ r.merged + 63)).getLast?.map some

/-- A GMM is a thief: no unstarted unit, no step of its current unit left to issue (R189). -/
def isThief (g : GmmRun) : Bool := g.issued && g.ending.isNone

/-- Tile t has a GMM of a seat and group table with stealable work. -/
def State.hasWork (s : State) (t seat gt : Nat) : Bool :=
  (s.stealing t).any (fun q => q.2.1.seat == seat && gmGt q.2.2.1.desc == gt && (stealable q.2.2.2).isSome)

/-- The region that backs a module logical cluster. -/
def State.clusterRegion (s : State) (lc : Nat) : Option Nat := (FMap.find? s.units.clusterMap lc).map (· / 8)

/-- The tile from which a thief on tile t takes: the first on its ring in order p + 1 to p + 7, else, through the
region queue, the first tile of the first cluster of its region after its own in seat-view order (R189, R195). -/
def State.victim (s : State) (t seat gt : Nat) : Option Nat :=
  let lc := t / 8
  let ring := ((List.range 7).map (fun i => 8 * lc + (t % 8 + 1 + i) % 8)).find? (fun q => s.hasWork q seat gt)
  match ring with
  | some q => some q
  | none =>
    match s.seat? seat with
    | none => none
    | some x =>
      let cs := clustersOf x.record
      let i := (x.viewCluster lc).getD 0
      let others := (List.range (cs.length - 1)).filterMap (fun k => cs[(i + 1 + k) % cs.length]?)
      let inRegion := others.filter (fun c => s.clusterRegion c == s.clusterRegion lc)
      match inRegion.find? (fun c => (List.range 8).any (fun p => s.hasWork (8 * c + p) seat gt)) with
      | none => none
      | some c => ((List.range 8).map (fun p => 8 * c + p)).find? (fun q => s.hasWork q seat gt)

/-! ### Sums merged and written (R186, R193) -/

/-- A begun unit takes the sums at hand in ascending segment order (R186, R193); its floating-point events are
counted at the owner. -/
def mergeRun : Nat → UnitRun → UnitRun × FpEvents
  | 0, r => (r, .none)
  | fuel + 1, r =>
    match FMap.find? r.sums r.merged with
    | none => (r, .none)
    | some x =>
      let m := if r.merged = 0 then (x, FpEvents.none) else mergeSums r.acc x
      let q := mergeRun fuel { r with acc := m.1, merged := r.merged + 1, sums := FMap.erase r.sums r.merged }
      (q.1, m.2.add q.2)

/-- The GMM ends at a unit with a status: what comes after the unit is not done, what began before it is (R113, R143). -/
def GmmRun.stopAt (g : GmmRun) (id : Nat) (e : Status × Nat) : GmmRun :=
  { g with units := [], ending := some e, todo := [], flight := [], runs := g.runs.filter (fun r => r.id < id) }

/-- A GMM as it now stands; one that was to end with an error ends with it once nothing else is left. -/
def State.gmmSettle (s : State) (t c : Nat) (g : GmmRun) : State :=
  let s := s.setGmm t c g
  match g.ending with
  | some e => if g.units.isEmpty && g.todo.isEmpty && g.flight.isEmpty && g.runs.isEmpty then s.faultCtx t c e.1 e.2 else s
  | none => s

/-- A unit merges what is at hand; once it is wholly merged it is converted, written and done, and poison ends the GMM (R113,
R186, R193). After a pass of the tile itself the sums stand in its accumulator bank (R86). -/
def State.unitMerge (s : State) (v : DescEnv) (g : GmmRun) (r : UnitRun) (pass : Bool) : State × GmmRun :=
  let m := mergeRun r.nseg r
  let o := v.ownerOf r
  let s := s.countFp v.seatNo o.view m.2
  let s := if pass then s.setBank v.ltile (sumCells m.1.acc) [] else s
  if m.1.merged < m.1.nseg then (s, g.setRun m.1)
  else
    let w := s.writeUnit o m.1
    let g := { g with runs := g.runs.filter (fun x => x.id ≠ r.id) }
    match w.2 with
    | some c => (w.1, g.stopAt r.id (gmmPoisoned c r.entry.index))
    | none => (w.1, g)

/-! ### The steps of a GMM -/

/-- The rows of a block whose scale differs from that of the even partner whose scales it takes, as bits (R178, R182). -/
def State.scaleDiffers (s : State) (x : Seat) (r : UnitRun) (p : Nat × Nat) : Nat :=
  let src := scaleSource r.weights.kept p.1 p.2
  if src = p.1 then 0
  else
    let at_ (i : Nat) : Bytes := match s.spanPieces x r.entry.wslot (weightAt r.entry r.entry.wsPtr (16 * i)) 16 with
      | some ps => s.pieceBytes ps
      | none => []
    let a := at_ p.1
    let b := at_ src
    (List.range 16).foldl (fun n row => if byteAt a row = byteAt b row then n else n + 2 ^ row) 0

/-- A fetch of a block row's record has landed: its kept blocks are known, or poison ends the GMM here (R113, R177, R181). -/
def State.recordLands (s : State) (v : DescEnv) (g : GmmRun) (r : UnitRun) (ps : List (Nat × Nat)) : State × GmmRun :=
  match s.piecePoison ps with
  | some c => (s, g.stopAt r.id (gmmPoisoned c r.entry.index))
  | none =>
    let d := r.desc
    let k := keptBlocks (s.weightRecord v.seat r.entry) (gmNFirst d / 16 + r.unit.cb) (gmK d)
    let w := { r.weights with kept := k.1, faults := k.2 }
    let nseg := (segments k.1).length
    let segs : List Nat := match r.lent with | some l => [l.2.2.2] | none => List.range nseg
    let r := { r with weights := w, nseg := nseg, unstarted := if gmSteal d then segs else [] }
    let drop (x : GStep) : Bool := k.1.isEmpty && x.run == r.id && (x.op == .weights || x.op == .wscales)
    (s.fetchTraffic v ps,
     { (g.setRun r) with todo := g.todo.filter (fun x => !drop x), held := if r.lent.isSome then none else some w })

/-- A fetch lands in STAGE, or ends the GMM where an address fails (R141, R676). -/
def State.fetchLands (s : State) (v : DescEnv) (stage : Nat) (g : GmmRun) (r : UnitRun) (op : GOp) : State × GmmRun :=
  match s.fetchRows v.seat r op with
  | .error e => (s, g.stopAt r.id e)
  | .ok rows =>
    let t := rows.foldl (fun s x => s.landRow stage x) s
    let t := t.fetchTraffic v (StageRow.sources rows)
    if op = .wscales && gmBlock r.desc then
      let w := { r.weights with keptScale := r.weights.kept.map (s.scaleDiffers v.seat r) }
      (t, { (g.setRun { r with weights := w }) with held := if r.lent.isSome then none else some w })
    else (t, g)

/-- The passes of a unit over the segments ks: their sums, their counts at the owner (R182, R186, R187, R193). -/
def State.segPasses (s : State) (v : DescEnv) (stage : Nat) (r : UnitRun) (ks : List Nat) :
    Except (Status × Nat) (State × UnitRun) :=
  let o := v.ownerOf r
  let rows := s.stagedWeights stage r
  ks.foldl (fun (a : Except (Status × Nat) (State × UnitRun)) k =>
    match a with
    | .error e => .error e
    | .ok (t, r) =>
      match t.segSums o stage r k with
      | .error e => .error e
      | .ok (sums, ev) =>
        let place := if r.lent.isSome then 0 else k
        let faults := (if k = 0 then r.weights.faults else {}).add (rowFaults rows place)
        let t := (t.countFp v.seatNo o.view ev).countMeta v.seatNo o.view faults
        let t := if gmBlock r.desc then t.setSegment v.ltile (sumCells sums) else t
        .ok (t, { r with sums := FMap.insert r.sums k sums, short := if k = 0 then s.shortRows stage r else r.short }))
    (.ok (s, r))

/-- What the oldest step in flight of a GMM does (R141, R186, R193, R676). -/
def State.gmmEffect (s : State) (v : DescEnv) (c stage : Nat) (g : GmmRun) (x : GStep) : State × GmmRun :=
  match g.run? x.run with
  | none => (s, g)
  | some r =>
    match x.op with
    | .table => (s, g)
    | .record =>
      (match s.recordPieces v.seat r with
        | .error e => (s, g.stopAt r.id e)
        | .ok ps => s.recordLands v g r ps)
    | .pass | .seg _ =>
      let ks := match x.op with | .seg k => [k] | _ => List.range r.nseg
      (match s.segPasses v stage r ks with
        | .error e => (s, g.stopAt r.id e)
        | .ok (t, r) =>
          let t := t.charge v.seatNo acctMatrixBusy (unitTc r x.op)
          let t := t.passPorts v.ltile (gmStage r.desc + stW r.desc r 0) (16 * gmWLen r.desc)
            (gmStage r.desc + stX r.desc r 0) (16 * packedLen (gmXF r.desc) (gmK r.desc)) 0 0
          match r.lent with
          | none => t.unitMerge v g r true
          | some l =>
            let sums := FMap.get [] r.sums l.2.2.2
            let t := t.setBank v.ltile (sumCells sums) []
            let w : SlotWrite := { owner := l.1, ownerCtx := l.2.1, run := l.2.2.1, seg := l.2.2.2, sums := sums,
                                   thief := v.ltile, thiefCtx := c }
            let t := { t with sync := { t.sync with slotWrites := t.sync.slotWrites ++ [w] } }
            let g := { g with runs := g.runs.filter (fun y => y.id ≠ r.id) }
            match sums.findSome? (·.2) with
            | some p => (t, g.stopAt r.id (gmmPoisoned p r.entry.index))
            | none => (t, g))
    | op => s.fetchLands v stage g r op

/-- Data of an earlier access of the tile in the same direction is still to come: nothing of this one may land before it (R103).
`ways` says whether the access brings data into the tile's port and whether it takes data out. -/
def State.portHeld (s : State) (t order : Nat) (ways : Bool × Bool) : Bool :=
  (s.tile t).ctxs.any (fun y => match y.cur with
    | some e =>
      y.state == .parked && e.order < order && (match dType e.desc, e.gmm with
        | 2, some g => g.flight.any (fun x => x.op.fetches) && ways.1
        | 5, _ => !e.done && ((e.inbound && ways.1) || (e.outbound && ways.2))
        | _, _ => false)
    | none => false)

/-- GMM: the oldest step in flight of the context's GMM has its effect (R141, R676). -/
def State.gmmStep (s : State) (t c : Nat) : State :=
  let x := s.ctx t c
  match x.cur with
  | none => s
  | some e =>
    match e.gmm, s.descEnv t c e.desc with
    | some g, some v =>
      (match g.flight with
        | [] => s
        | st :: rest =>
          if dType e.desc ≠ 2 || x.state = .faulted || x.state = .free then s
          else if x.state = .parked && st.op.fetches && s.portHeld t e.order (true, false) then s
          else
            let r := s.gmmEffect v c (v.base + gmStage e.desc) { g with flight := rest } st
            r.1.gmmSettle t c r.2)
    | _, _ => s

def execGmm (tile ctx : Nat) (s : State) : Out := .next (s.gmmStep tile ctx)

/-! ### Steal requests (R189 to R193, R195) -/

/-- The thieves whose requests reach a tile's queue, with their requester numbers: by ring position, or 8 through the
region queue, of which one is served, the first by tile and context (R191; DESIGN CHOICE: the spec gives no order among the
requests that come through the region queue, log 27). -/
def State.thieves (s : State) (t : Nat) : List (Nat × Nat × Nat) :=
  (s.stealing t).flatMap (fun q =>
    let seat := q.2.1.seat
    let gt := gmGt q.2.2.1.desc
    match s.seat? seat with
    | none => []
    | some x =>
      let tiles := (clustersOf x.record).flatMap (fun lc => (List.range 8).map (fun p => 8 * lc + p))
      let all := tiles.flatMap (fun th =>
        if th = t then []
        else ((s.stealing th).filter (fun r => r.2.1.seat == seat && gmGt r.2.2.1.desc == gt && isThief r.2.2.2
            && s.victim th seat gt == some t)).map (fun r => ((if th / 8 = t / 8 then th % 8 else 8), th, r.1)))
      let near := all.filter (fun a => a.1 < 8)
      near ++ (all.filter (fun a => a.1 == 8)).take 1)

/-- One grant of a tile's work to a thief: the last unstarted unit whole, under the descriptor that lists it, or a segment of its
current unit, whose sums go to the owner's slot (R189, R190, R193). -/
def State.grantSteal (s : State) (t th thc : Nat) : State × Bool :=
  match (s.ctx th thc).cur with
  | none => (s, false)
  | some the =>
    match the.gmm with
    | none => (s, false)
    | some tg =>
      let seat := (s.ctx th thc).seat
      match (s.stealing t).find? (fun q => q.2.1.seat == seat && gmGt q.2.2.1.desc == gmGt the.desc
          && (stealable q.2.2.2).isSome) with
      | none => (s, false)
      | some (c, _, e, g) =>
        match s.descEnv t c e.desc, s.descEnv th thc the.desc with
        | some v, some tv =>
          match stealable g, g.units.getLast?, g.runs.getLast? with
          | some none, some u, _ =>
            (match s.gtEntry v e.desc u.entry with
              | none => (s, false)
              | some en =>
                let s := s.setGmm t c { g with units := g.units.dropLast }
                let s := (s.setGmm th thc (tg.begin_ t e.desc en u none)).inexact seat
                ((s.count 0x101A (some seat) tv.view 1).count 0x101C (some seat) v.view 1, true))
          | some (some k), _, some r =>
            let s := s.setGmm t c (g.setRun { r with unstarted := r.unstarted.filter (· ≠ k), given := r.given ++ [(k, th)] })
            let tg := { tg with stolen := tg.stolen + 1 }
            let s := (s.setGmm th thc (tg.begin_ r.weights.owner r.desc r.entry r.unit (some (t, c, r.id, k)))).inexact seat
            ((s.count 0x1019 (some seat) tv.view 1).count 0x101B (some seat) v.view 1, true)
          | _, _, _ => (s, false)
        | _, _ => (s, false)

/-- STEAL_REQUEST: the requests that reach a tile's queue in one tc are granted in arbiter order, each taking what the
grants before it leave; the pointer moves on where one was refused (R105, R191). -/
def State.stealRequests (s : State) (t : Nat) : State :=
  let p := (s.tile t).queuePtr
  let r := (arbOrder 9 p (·.1) (s.thieves t)).foldl (fun (a : State × Bool) q =>
    let g := a.1.grantSteal t q.2.1 q.2.2
    (g.1, a.2 || !g.2)) (s, false)
  if r.2 then r.1.setTile t { r.1.tile t with queuePtr := (p + 1) % 9 } else r.1

def execStealRequest (tile : Nat) (s : State) : Out := .next (s.stealRequests tile)

/-- A thief has one stolen segment less to land. -/
def State.stolenLands (s : State) (th thc : Nat) : State :=
  match (s.ctx th thc).cur with
  | some e => (match e.gmm with
      | some g => s.setGmm th thc { g with stolen := g.stolen - 1 }
      | none => s)
  | none => s

/-- STOLEN_SLOT_ARRIVAL: a thief's sums land in the owner's slot of STAGE and the owner merges what is in order
(R192, R193); an owner that has ended takes nothing (R197). -/
def State.slotArrival (s : State) (i : Nat) : State :=
  match s.sync.slotWrites[i]? with
  | none => s
  | some w =>
    let s := { s with sync := { s.sync with slotWrites := s.sync.slotWrites.eraseIdx i } }
    let s := s.stolenLands w.thief w.thiefCtx
    let x := s.ctx w.owner w.ownerCtx
    match x.cur with
    | none => s
    | some e =>
      match e.gmm, s.descEnv w.owner w.ownerCtx e.desc with
      | some g, some v =>
        (match g.run? w.run with
          | none => s
          | some r =>
            if x.state = .faulted || !r.given.contains (w.seg, w.thief) then s
            else
              let slot := v.base + gmStage e.desc + gmStageLen e.desc - 65536 + w.seg % 64 * 1024
              let s := s.store slot (w.sums.flatMap (fun x => natLe 4 x.1))
              let s := match w.sums.findSome? (·.2) with
                | some p => s.poisonRange slot 1024 p
                | none => s
              let s := ((s.tileWant w.owner 1 (slot - v.base) 1024 128).tileWant w.owner 3 (slot - v.base) 1024 64)
              let r := { r with given := r.given.filter (· ≠ (w.seg, w.thief)), sums := FMap.insert r.sums w.seg w.sums }
              let m := s.unitMerge v g r false
              m.1.gmmSettle w.owner w.ownerCtx m.2)
      | _, _ => s

def execStolenSlotArrival (index : Nat) (s : State) : Out := .next (s.slotArrival index)

end Sys2Proof.Machine
end

