-- ==== Sys2Proof/Machine/Tiles.lean ====
section
/-!
DEFINITION. The tile's contexts at work: fetching, the issue stage and its slots, completion, synchronisation, the
matrix and vector descriptors (R78 to R83, R103, R110 to R117, R123 to R132, R158 to R161, R592, R593). A row that names an
event which cannot happen in the state changes nothing (log 4).
-/

namespace Sys2Proof.Machine

/-! ### Fetching (R116, R117) -/

/-- The package offset, in the seat's view, of a stream's store offset (R116, R126). -/
def streamAddr (s : State) (t : Nat) (x : Ctx) (o : Nat) : Nat :=
  let v := s.view x.seat t
  if x.inCluster then clusterBase + v / 8 * clusterBytes + o else tileBase + v * tileSlot + o

/-- The physical address of n bytes at a stream's store offset. -/
def State.streamPhys (s : State) (t : Nat) (x : Ctx) (o n : Nat) : Option Nat :=
  if x.inCluster then (if o + n ≤ clusterBytes then (s.clusterPhys (t / 8)).map (· + o) else none)
  else if o + n ≤ tileBytes then (s.tilePhys t).map (· + o) else none

/-- One more descriptor of a context's stream enters its buffer; one that follows END is discarded (R117). -/
def State.fetchOne (s : State) (t c : Nat) : State :=
  let x := s.ctx t c
  if x.ended || 4 ≤ x.buffer.length then s
  else
    match s.streamPhys t x x.next 64 with
    | none => s
    | some a =>
      let d := s.bytes a 64
      s.setCtx t c { x with buffer := x.buffer ++ [(streamAddr s t x x.next, d)], next := x.next + 64, ended := dEnd d }

/-- DESCRIPTOR_FETCH_LAND: one descriptor from the tile store when the buffer has room, a block of four from the
cluster store when it is empty; a FETCHING context becomes READY (R79, R117). -/
def State.fetchLand (s : State) (t c : Nat) : State :=
  let x := s.ctx t c
  if x.state = .free || x.state = .faulted then s
  else
    let s := if x.inCluster then
        (if x.buffer.isEmpty then [0, 1, 2, 3].foldl (fun s _ => s.fetchOne t c) s else s)
      else s.fetchOne t c
    let y := s.ctx t c
    if y.state = .fetching && !y.buffer.isEmpty then s.setCtx t c { y with state := .ready } else s

def execDescriptorFetchLand (tile ctx : Nat) (s : State) : Out := .next (s.fetchLand tile ctx)

/-! ### Completion (R78, R123) -/

/-- A descriptor completes: its slots retire, its signal is sent, its context goes on, or to FREE at END (R78, R116,
R123, R593). STREAM and ROUTE have their signal made elsewhere. -/
def State.finishDesc (s : State) (t c : Nat) : State :=
  let x := s.ctx t c
  match x.cur with
  | none => s
  | some e =>
    let s := s.slotsEnd x.seat t c true
    let s := if dSig e.desc && dType e.desc ≠ 6 && dType e.desc ≠ 9 then
        match s.seat? x.seat with
        | none => s
        | some q =>
          match crefTarget q (s.view x.seat t) (dSigRef e.desc) with
          | none => s
          | some g =>
            let sig : Signal := { seat := x.seat, target := g, isSet := false, value := BitVec.ofNat 32 (dSigVal e.desc),
                                  tile := s.view x.seat t, ctx := c, parks := false }
            s.sendSignal sig
      else s
    let x := s.ctx t c
    if dEnd e.desc then s.setCtx t c {}
    else s.setCtx t c { x with cur := none, state := if x.buffer.isEmpty then .fetching else .ready }

/-- A context that goes on after a wait or a remote access still has its state in this tc and is eligible in the next (R79,
R82, R130, R131, R160). -/
def State.resumes (s : State) (t c : Nat) (st : CtxState) : State :=
  let s := s.finishDesc t c
  let x := s.ctx t c
  if x.state = .free then s else s.setCtx t c { x with held := some (s.time / tcUnits, st) }

/-- The wait of a SYNC WAIT holds (R131, R158). -/
def State.waitHolds (s : State) (x : Ctx) (view : Nat) (d : Bytes) : Bool :=
  match s.seat? x.seat with
  | none => false
  | some q =>
    match crefTarget q view (syCref d) with
    | none => false
    | some g => syValue d ≤ (s.readCtr x.seat g).toNat

/-- A WAIT is over: its counter has had its updates of an earlier tc and holds (R131: the value at the end of a tc). -/
def State.waitOver (s : State) (x : Ctx) (view : Nat) (e : Exec) : Bool :=
  let now := s.time / tcUnits
  let settled : Bool := match (s.seat? x.seat).bind (fun q => crefTarget q view (syCref e.desc)) with
    | some g => (match FMap.find? s.sync.ctrTc (targetKey x.seat g) with
        | some r => r.tc < now
        | none => true)
    | none => false
  x.state == .waiting && e.done && e.since / tcUnits < now && settled && s.waitHolds x view e.desc

/-- A WAIT names a counter that fills signal (R279). -/
def State.waitsOnFill (s : State) (seat view : Nat) (d : Bytes) : Bool :=
  dType d == 7 && syOp d == 1 && (match s.seat? seat with
    | some q => (match crefTarget q view (syCref d) with | some g => q.fillCtrs.contains g | none => false)
    | none => false)

/-- DESCRIPTOR_COMPLETE: a descriptor whose effect is made and all of whose steps have issued completes; a WAIT once it is
over, a GMM when nothing is left to run, land or take (R78, R131, R194). -/
def State.descComplete (s : State) (t c : Nat) : State :=
  let x := s.ctx t c
  match x.cur with
  | none => s
  | some e =>
    if x.state = .faulted || x.state = .parked then s
    else if dType e.desc = 7 && syOp e.desc = 1 then
      (if s.waitOver x (s.view x.seat t) e then s.finishDesc t c else s)
    else if dType e.desc = 8 then s
    else
      match e.gmm with
      | none => if !e.done || e.issued < e.total then s else s.finishDesc t c
      | some g =>
        if g.over && g.ending.isNone && (!gmSteal e.desc || (s.victim t x.seat (gmGt e.desc)).isNone) then s.finishDesc t c
        else s

def execDescriptorComplete (tile ctx : Nat) (s : State) : Out := .next (s.descComplete tile ctx)

/-- REMOTE_ACCESS_COMPLETE: a PARKED context whose access has landed or been accepted goes on: to its next descriptor, or to the
next step of its GMM (R81, R82, R110, R676). -/
def State.remoteComplete (s : State) (t c : Nat) : State :=
  let x := s.ctx t c
  match x.cur with
  | none => s
  | some e =>
    if x.state ≠ .parked then s
    else
      match e.gmm with
      | some g =>
        if g.flight.any (fun y => y.op.fetches) then s
        else s.setCtx t c { x with state := .ready, held := some (s.time / tcUnits, .parked) }
      | none => if e.done then s.resumes t c .parked else s

def execRemoteAccessComplete (tile ctx : Nat) (s : State) : Out := .next (s.remoteComplete tile ctx)

/-- REMOTE_ACCESS_TIMEOUT: a PARKED access that has no completion ends its context FAULTED with TIMEOUT, and nothing of it lands
later (R114). A REDUCE that waits for its members has no such bound. -/
def State.remoteTimeout (s : State) (t c : Nat) : State :=
  let x := s.ctx t c
  match x.cur with
  | none => s
  | some e =>
    let open_ : Bool := match e.gmm with
      | some g => g.flight.any (fun y => y.op.fetches)
      | none => !e.done && dType e.desc != 4
    if x.state = .parked && open_ then
      let s := { s with ni := { s.ni with requests := s.ni.requests.filter (fun kr => !decide (kr.2.owner = Owner.ctx t c)) } }
      s.faultCtx t c .timeout 0
    else s

def execRemoteAccessTimeout (tile ctx : Nat) (s : State) : Out := .next (s.remoteTimeout tile ctx)

/-! ### The issue stage (R80 to R83, R119, R592, R593) -/

/-- A matrix or vector step finds its engine busy in a tc (R83, R86, R94). -/
def Tile.engineHeld (x : Tile) (now type : Nat) : Bool :=
  match type with
  | 1 => now < x.arrayFree
  | 3 | 4 => now < x.vecFree
  | _ => false

/-- The state of a context that is neither parked nor waiting: by its buffer and its next step (R79, R83, R676). -/
def Ctx.running (y : Ctx) (x : Tile) (now : Nat) : CtxState :=
  match y.cur with
  | none => (match y.buffer with
      | [] => .fetching
      | a :: _ => if x.engineHeld now (dType a.2) then .stalled else .ready)
  | some e =>
    match e.gmm with
    | some g =>
      if g.issued || g.held? then .stalled
      else (match g.next with
        | some n => if !n.op.fetches && n.op != .table && now < x.arrayFree then .stalled else .ready
        | none => .ready)
    | none => if e.total ≤ e.issued || x.engineHeld now (dType e.desc) then .stalled else .ready

/-- The state of a context in a tc (R79): ISSUING in the tc in which its step issues, and still PARKED or WAITING in the tc in
which its access or wait ends (R82). -/
def Tile.ctxState (x : Tile) (now c : Nat) : CtxState :=
  let y := x.ctxs.getD c {}
  match y.state with
  | .free => .free
  | .faulted => .faulted
  | st =>
    match y.held with
    | some h => if h.1 = now then h.2 else after st y
    | none => after st y
where
  after : CtxState → Ctx → CtxState
    | .parked, _ => .parked
    | .waiting, _ => .waiting
    | _, y => y.running x now

/-- The context that issues in a tc: the one that issued in the tc before if it is READY, else the first READY one after the one
that issued last, wrapping (R80, R106). -/
def issueChoice (x : Tile) (now : Nat) : Option Nat :=
  let ready (c : Nat) : Bool := x.ctxState now c == .ready
  if x.lastTc.any (fun t => t + 1 == now) && ready x.last then some x.last
  else ((List.range 8).map (fun i => (x.last + 1 + i) % 8)).find? ready

/-- The seat with a kernel in progress on a tile (R510, R592). -/
def State.tileSeat (s : State) (t : Nat) : Option (Nat × Seat) :=
  List.find? (fun (ks : Nat × Seat) => match ks.2.running with
    | some r => r.bound.any (fun b => ks.2.tile? b.1 == some t)
    | none => false) s.seats

/-- The class of a slot in which nothing issues (R592). -/
def idleClass (x : Tile) (now : Nat) : List Nat :=
  let any (st : CtxState) : Bool := (List.range 8).any (fun c => x.ctxState now c == st)
  if any .stalled then [0x1005, 0x1006]
  else if any .parked then [0x1005, 0x1007]
  else if any .waiting then [0x1005, 0x1008]
  else [0x1004]

/-- The engines that hold a step: matrix array, vector engine, copy engine (R591). -/
def Tile.engines (x : Tile) (now : Nat) : Bool × Bool × Bool :=
  let any (p : Ctx → Exec → Bool) : Bool := x.ctxs.any (fun c => match c.cur with
    | some e => p c e && e.issued ≠ 0 && c.state != .faulted
    | none => false)
  let fly (f : GOp → Bool) (e : Exec) : Bool := match e.gmm with | some g => g.flight.any (fun y => f y.op) | none => false
  (now < x.arrayFree || any (fun _ e => (dType e.desc == 1) || fly (fun o => !o.fetches) e),
   now < x.vecFree || any (fun c e => dType e.desc == 3 || (dType e.desc == 4 && c.state != .parked)),
   any (fun _ e => dType e.desc == 5 || fly GOp.fetches e))

/-- The owner waits on a slot: a begun unit has no segment left to start or in flight and its next sums are with a thief (R193,
R197). -/
def GmmRun.waitsOnSlot (g : GmmRun) : Bool :=
  g.runs.any (fun r => r.unstarted.isEmpty && !(g.flight.any (fun y => y.run == r.id)) && !(g.todo.any (fun y => y.run == r.id))
    && r.given.any (fun k => k.1 == r.merged))

/-- One tc of a tile's counters that do not depend on the choice (R279, R589, R591, R592). -/
def State.tcCounts (s : State) (seat t view : Nat) (x : Tile) : State :=
  let now := s.time / tcUnits
  let one (b : Bool) : Nat := if b then 1 else 0
  let busy := x.engines now
  let states := (List.range 8).map (fun c => (c, x.ctxState now c))
  let slot := (s.stealing t).any (fun q => q.2.2.2.waitsOnSlot)
  let late := states.filter (fun q => q.2 == .waiting && (match (x.ctxs.getD q.1 {}).cur with
    | some e => s.waitsOnFill seat view e.desc
    | none => false))
  let s := s.count 0x1000 (some seat) view 1
  let s := s.count 0x1009 (some seat) view (states.filter (fun q => q.2 == .parked)).length
  let s := ((s.count 0x100B (some seat) view (one busy.1)).count 0x100C (some seat) view (one busy.2.1)).count
    0x100D (some seat) view (one busy.2.2)
  let s := (s.count 0x101D (some seat) view (one slot)).count 0x101E (some seat) view late.length
  s.charge seat acctTileBusy (one (busy.1 || busy.2.1 || busy.2.2))

/-- A kernel that issues such a descriptor has no exact count: a stealing GMM, a wait on a fill, a stream, an exchange with
another node (R487). -/
def State.leavesTime (s : State) (v : DescEnv) (d : Bytes) : Bool :=
  match dType d with
  | 2 => gmSteal d
  | 5 => !s.ownNode (cpSrc d / 2 ^ 48) || !s.ownNode (cpDst d / 2 ^ 48)
  | 6 => true
  | 7 => s.waitsOnFill v.seatNo v.view d
  | _ => false

/-- The slot of a step that issues, and the times that a kernel's and a turn's first step set (R487, R491, R593). -/
def State.slotIssued (s : State) (seat view : Nat) : State :=
  let s := s.gauge 0x1003 (some seat) view ((s.counter 0x1003 (some seat) view).toNat + 1)
  s.onSeat seat (fun q => { q with running := q.running.map (fun r => { r with first := r.first.orElse (fun _ => some s.time) })
                                   facts := { q.facts with start := q.facts.start.orElse (fun _ => some s.time) } })

/-- A context whose step has issued: ISSUING in this tc, and from the next in the given state (R79, R81). -/
def State.afterIssue (s : State) (t c : Nat) (e : Exec) (st : CtxState) : State :=
  let x := s.ctx t c
  s.setCtx t c { x with cur := some e, pending := x.pending + 1, state := st, held := some (s.time / tcUnits, .issuing) }

/-- The next place in a tile's order of remote accesses is taken (R103). -/
def State.takeOrder (s : State) (t : Nat) : State := s.setTile t { s.tile t with nextOrder := (s.tile t).nextOrder + 1 }

/-- A step of a GMM issues: the next of those planned, or the first of its next unit (R76, R81, R676). -/
def State.issueGmm (s : State) (seat view t c : Nat) (v : DescEnv) (e : Exec) (g : GmmRun) : State :=
  let g := if g.next.isNone then s.beginNext v e.desc g else g
  match g.next with
  | none => s.gmmSettle t c g
  | some n =>
    let s := s.slotIssued seat view
    let e := { e with issued := e.issued + 1, gmm := some (g.take n) }
    match g.run? n.run with
    | none => s.afterIssue t c e .ready
    | some r =>
      if n.op.fetches then
        if s.fetchRemote v r n.op then
          (s.afterIssue t c { e with order := (s.tile t).nextOrder } .parked).takeOrder t
        else s.afterIssue t c e .ready
      else
        let s := s.setTile t { s.tile t with arrayFree := s.time / tcUnits + unitTc r n.op }
        s.afterIssue t c e .ready

/-- A step of a context issues (R80, R81, R86, R94, R593). -/
def State.issueOn (s : State) (seat view t c : Nat) (v : DescEnv) (e : Exec) : State :=
  match e.gmm with
  | some g => s.issueGmm seat view t c v e g
  | none =>
    let now := s.time / tcUnits
    let s := s.slotIssued seat view
    let x := s.tile t
    let s := match dType e.desc with
      | 1 => s.setTile t { x with arrayFree := now + s.matmulTc v.base e.desc e.issued }
      | 3 => s.setTile t { x with vecFree := now + vecStepTc e.desc e.issued }
      | 4 => s.setTile t { x with vecFree := now + reduceStepTc e.desc e.issued }
      | _ => s
    let e := { e with issued := e.issued + 1 }
    if e.issued < e.total then s.afterIssue t c e .ready
    else if dType e.desc = 8 || (dType e.desc = 7 && syOp e.desc = 1) then s.afterIssue t c { e with since := s.time } .waiting
    else if s.isRemote v e.desc then
      let ways := if dType e.desc = 5 then s.copyWays v e.desc else (false, false)
      (s.afterIssue t c { e with order := x.nextOrder, inbound := ways.1, outbound := ways.2 } .parked).takeOrder t
    else s.afterIssue t c e .ready
where
  /-- Vector-engine tc of step k of a REDUCE: 32 elements a tc, or 8 of binary64 (R76, R94). -/
  reduceStepTc (d : Bytes) (k : Nat) : Nat :=
    let per := if rdIn d = 0 then 256 else 1024
    ceilDiv (min per (rdCount d - per * k)) (if rdIn d = 0 then 8 else 32)

/-- The waits of a tile that are over end (R79, R131). -/
def State.endWaits (s : State) (t : Nat) : State :=
  (List.range 8).foldl (fun s c =>
    let x := s.ctx t c
    match x.cur with
    | some e => if dType e.desc = 7 && s.waitOver x (s.view x.seat t) e then s.finishDesc t c else s
    | none => s) s

/-- A context's next descriptor is chosen: it is checked, and ends under R119 with its slot wasted, or its first step issues. -/
def State.issueNext (s : State) (seat view t c : Nat) : State :=
  let y := s.ctx t c
  match y.buffer with
  | [] => s
  | (a, d) :: rest =>
    let e : Exec := { addr := a, desc := d, total := stepsOf d, issued := 0, done := false, since := s.time, gmm := none }
    let s := s.setCtx t c { y with buffer := rest, cur := some e }
    match s.descEnv t c d with
    | none => s.faultCtx t c .tilesUnavailable 0
    | some v =>
      match checkDesc s v d with
      | some (st, detail) => (s.count 0x1002 (some seat) view 1).faultCtx t c st detail
      | none =>
        let s := if s.leavesTime v d then s.inexact seat else s
        if dType d ≠ 2 then s.issueOn seat view t c v e
        else
          let s := if gmSteal d then s.onSeat seat (fun q => { q with facts := { q.facts with steal := true } }) else s
          let g := s.gmmStart v d
          match g.units.isEmpty && g.todo.isEmpty, g.ending with
          | true, some err => (s.count 0x1002 (some seat) view 1).faultCtx t c err.1 err.2
          | _, _ => s.issueOn seat view t c v { e with gmm := some g }

/-- ISSUE_STEP: one tc of a tile's issue stage (R80): waits that are over end, the chosen context's next descriptor is checked
(R119) and its first step issues, or a further step of the descriptor in execution; else the slot goes to its class (R592). A
tile has one choice in a tc. -/
def State.issueStep (s : State) (t : Nat) : State :=
  let now := s.time / tcUnits
  match s.tileSeat t with
  | none => s
  | some (seat, _) =>
    if (s.tile t).stepTc = some now then s
    else
      let view := s.view seat t
      let s := ((s.tileArb t).clusterArb (t / 8)).endWaits t
      let s := s.setTile t { s.tile t with stepTc := some now }
      let s := s.tcCounts seat t view (s.tile t)
      match issueChoice (s.tile t) now with
      | none =>
        let s := (idleClass (s.tile t) now).foldl (fun s code => s.count code (some seat) view 1) s
        s.count 0x100A (some seat) view 1
      | some c =>
        let s := s.setTile t { s.tile t with last := c, lastTc := some now }
        match (s.ctx t c).cur with
        | some e =>
          (match s.descEnv t c e.desc with
            | none => s
            | some v => s.issueOn seat view t c v e)
        | none => s.issueNext seat view t c

def execIssueStep (tile : Nat) (s : State) : Out := .next (s.issueStep tile)

/-! ### The effect of a descriptor in execution -/

/-- The descriptor in execution of a context, of a type, whose first step has issued and whose effect is not made. -/
def State.inExec (s : State) (t c type : Nat) : Option (DescEnv × Exec) :=
  let x := s.ctx t c
  match x.cur with
  | none => none
  | some e =>
    if dType e.desc = type && e.issued ≠ 0 && !e.done && x.state ≠ .faulted && x.state ≠ .free then
      (s.descEnv t c e.desc).map (fun v => (v, e))
    else none

/-- The effect of a context's descriptor is made. -/
def State.markDone (s : State) (t c : Nat) : State :=
  let x := s.ctx t c
  s.setCtx t c { x with cur := x.cur.map (fun e => { e with done := true }) }

/-- A descriptor's own effect ends: its context faults with the status, or the effect is made. -/
def DescOut.settle (o : DescOut) (t c : Nat) : State :=
  match o.err with
  | some (st, detail) => o.s.faultCtx t c st detail
  | none => o.s.markDone t c

/-- MATMUL: the passes of the descriptor (R136). -/
def execMatmul (tile ctx : Nat) (s : State) : Out :=
  .next (match s.inExec tile ctx 1 with
    | none => s
    | some (v, e) => (s.runMatmul v e.desc).settle tile ctx)

/-- VEC: the rows of the descriptor (R145). -/
def execVec (tile ctx : Nat) (s : State) : Out :=
  .next (match s.inExec tile ctx 3 with
    | none => s
    | some (v, e) => (s.runVec v e.desc).settle tile ctx)

/-! ### SYNC (R130 to R132, R158) -/

/-- SYNC SIGNAL: VALUE is added to a counter of the own tile at once; to any other it travels, and its context stays
PARKED until it is applied (R130). -/
def State.syncSend (s : State) (t c op : Nat) : State :=
  match s.inExec t c 7 with
  | none => s
  | some (v, e) =>
    if syOp e.desc ≠ op then s
    else
      match crefTarget v.seat v.view (syCref e.desc) with
      | none => s.faultCtx t c .descInvalid 0
      | some g =>
        let sig : Signal := { seat := v.seatNo, target := g, isSet := op == 2, value := BitVec.ofNat 32 (syValue e.desc),
                              tile := v.view, ctx := c, parks := s.isRemote v e.desc }
        if s.isRemote v e.desc then
          if s.sync.signals.any (fun x => x.parks && x.seat == v.seatNo && x.tile == v.view && x.ctx == c) then s
          else s.sendSignal sig
        else (s.applySignal sig).markDone t c

def execSyncSignal (tile ctx : Nat) (s : State) : Out := .next (s.syncSend tile ctx 0)

/-- SYNC SET: VALUE is written into a counter (R132). -/
def execSyncSet (tile ctx : Nat) (s : State) : Out := .next (s.syncSend tile ctx 2)

/-- SYNC WAIT: the wait, which runs from the issue of its step, is tested from now on (R131). -/
def State.syncWait (s : State) (t c : Nat) : State :=
  match s.inExec t c 7 with
  | none => s
  | some (_, e) =>
    if syOp e.desc ≠ 1 then s
    else
      let x := s.ctx t c
      s.setCtx t c { x with state := .waiting, cur := some { e with done := true } }

def execSyncWait (tile ctx : Nat) (s : State) : Out := .next (s.syncWait tile ctx)

/-- The destination of a signal: a tile, a cluster, or a hub's NI. -/
def Target.unit : Target → Nat × Nat
  | .tile t _ => (0, t)
  | .cluster c _ => (1, c)
  | .ni n => (2, niHub n)

/-- An earlier signal from the same source to the same destination is still on its way (R20: delivery in issue order). -/
def State.signalBehind (s : State) (i : Nat) (g : Signal) : Bool :=
  (s.sync.signals.take i).any (fun x => x.seat == g.seat && x.tile == g.tile && x.target.unit == g.target.unit)

/-- SIGNAL_APPLY: a signal or SET on its way reaches its counter, after those that its source sent there before it; a signal to a
store of a seat that is saved or PREEMPTED is held; the context that it parked goes on (R20, R130, R131, R516). -/
def State.signalApply (s : State) (i : Nat) : State :=
  match s.sync.signals[i]? with
  | none => s
  | some g =>
    if s.signalBehind i g then s else
    let s := { s with sync := { s.sync with signals := s.sync.signals.eraseIdx i } }
    let store : Bool := match g.target with | .ni _ => false | _ => true
    let held : Bool := match s.seat? g.seat with
      | some q => store && !(decide (q.preempt.phase = .none))
      | none => false
    if held then s.onSeat g.seat (fun q => { q with heldSignals := q.heldSignals ++ [g] })
    else
      let s := s.applySignal g
      if g.parks then
        match (s.seat? g.seat).bind (fun q => q.tile? g.tile) with
        | none => s
        | some t =>
          let x := s.ctx t g.ctx
          if x.state == .parked && x.cur.any (fun e => dType e.desc == 7) then (s.markDone t g.ctx).remoteComplete t g.ctx else s
      else s

def execSignalApply (index : Nat) (s : State) : Out := .next (s.signalApply index)

/-- SYNC_WAIT_LIMIT: the LIMIT of a WAIT that does not hold has passed (R158). -/
def State.waitLimit (s : State) (t c : Nat) : State :=
  let x := s.ctx t c
  match x.cur with
  | none => s
  | some e =>
    if dType e.desc = 7 && syOp e.desc = 1 && x.state = .waiting && syLimit e.desc ≠ 0
        && !s.waitHolds x (s.view x.seat t) e.desc then
      s.faultCtx t c .timeout 0
    else s

def execSyncWaitLimit (tile ctx : Nat) (s : State) : Out := .next (s.waitLimit tile ctx)

/-! ### BARRIER (R159 to R161) -/

/-- BARRIER: an arrival travels to the home and the context is WAITING (R160). -/
def State.barrierSend (s : State) (t c : Nat) : State :=
  match s.inExec t c 8 with
  | none => s
  | some (v, e) =>
    let a : Arrival := { seat := v.seatNo, bid := brBid e.desc, home := brHome e.desc, members := brMembers e.desc,
                         tile := v.view, ctx := c, since := e.since }
    let s := { s with sync := { s.sync with arrivals := s.sync.arrivals ++ [a] } }
    let x := s.ctx t c
    s.setCtx t c { x with state := .waiting, cur := some { e with done := true } }

def execBarrier (tile ctx : Nat) (s : State) : Out := .next (s.barrierSend tile ctx)

/-- A barrier: its seat, its home cluster and its number (R159). -/
def barrierKey (seat home bid : Nat) : Nat := (seat * 128 + home) * 64 + bid

/-- The context of a counted arrival, where it still waits in that barrier (R160, R161). -/
def State.waiter (s : State) (seat home bid : Nat) (a : Counted) : Option Nat :=
  match (s.seat? seat).bind (fun q => q.tile? a.tile) with
  | none => none
  | some t =>
    let x := s.ctx t a.ctx
    match x.cur with
    | some e =>
      if x.state = .waiting && x.seat = seat && dType e.desc = 8 && brHome e.desc = home && brBid e.desc = bid && e.since = a.since
      then some t else none
    | none => none

/-- The contexts that wait in a barrier end with a status (R161). -/
def State.barrierFail (s : State) (seat home bid : Nat) (cs : List Counted) (st : Status) (detail : Nat) : State :=
  cs.foldl (fun s a =>
    match s.waiter seat home bid a with
    | some t => s.faultCtx t a.ctx st detail
    | none => s) s

/-- A counted arrival comes after another of the same tc: by seat-view tile, then by context (R160). -/
def Counted.after (a b : Counted) : Bool := b.tile < a.tile || (b.tile == a.tile && b.ctx < a.ctx)

/-- Of the releases of a barrier made in this tc, the one whose arrival, counted in this tc too, gives its place to an arrival that
R160 puts before it. -/
def State.yields (s : State) (a : Arrival) (me : Counted) : Option Nat :=
  let cand := (List.range s.sync.releases.length).filter (fun j => match s.sync.releases[j]? with
    | some r => r.seat == a.seat && r.bid == a.bid && r.home == a.home && r.members == a.members && r.tc == me.tc
        && r.who.tc == me.tc && r.who.after me
    | none => false)
  cand.foldl (fun b j => match b with
    | none => some j
    | some k => (match s.sync.releases[j]?, s.sync.releases[k]? with
        | some x, some y => if x.who.after y.who then some j else some k
        | _, _ => some k)) none

/-- An arrival is counted in the current generation of its barrier: the count of the generation's first arrival releases every
counted context, a differing MEMBERS ends them with DESC_MISMATCH (R160, R161). -/
def State.barrierCount (s : State) (a : Arrival) (me : Counted) : State :=
  let k := barrierKey a.seat a.home a.bid
  let g : BarrierGen := (FMap.find? s.sync.barriers k).getD { members := a.members, arrived := [] }
  let arrived := g.arrived ++ [me]
  if g.members ≠ a.members then
    let s := { s with sync := { s.sync with barriers := FMap.erase s.sync.barriers k } }
    s.barrierFail a.seat a.home a.bid arrived .descMismatch a.tile
  else if arrived.length = g.members then
    let rel := arrived.map (fun w => { seat := a.seat, bid := a.bid, home := a.home, members := g.members, who := w,
                                       tc := me.tc : Release })
    { s with sync := { s.sync with barriers := FMap.erase s.sync.barriers k, releases := s.sync.releases ++ rel } }
  else { s with sync := { s.sync with barriers := FMap.insert s.sync.barriers k { g with arrived := arrived } } }

/-- BARRIER_ARRIVAL: an arrival reaches the home and is counted; in the tc of a release the arrivals of that tc are counted by
tile and then context, whatever the order of the rows (R160). -/
def State.barrierArrive (s : State) (i : Nat) : State :=
  match s.sync.arrivals[i]? with
  | none => s
  | some a =>
    let s := { s with sync := { s.sync with arrivals := s.sync.arrivals.eraseIdx i } }
    let me : Counted := { tile := a.tile, ctx := a.ctx, since := a.since, tc := s.time / tcUnits }
    match s.yields a me with
    | some j =>
      (match s.sync.releases[j]? with
        | some r =>
          let s := { s with sync := { s.sync with releases := s.sync.releases.set j { r with who := me } } }
          s.barrierCount { a with tile := r.who.tile, ctx := r.who.ctx, since := r.who.since } r.who
        | none => s.barrierCount a me)
    | none => s.barrierCount a me

def execBarrierArrival (index : Nat) (s : State) : Out := .next (s.barrierArrive index)

/-- BARRIER_RELEASE: the release reaches one counted context, which goes on in the following tc (R160). -/
def State.barrierRelease (s : State) (i : Nat) : State :=
  match s.sync.releases[i]? with
  | none => s
  | some r =>
    let s := { s with sync := { s.sync with releases := s.sync.releases.eraseIdx i } }
    match s.waiter r.seat r.home r.bid r.who with
    | none => s
    | some t => s.resumes t r.who.ctx .waiting

def execBarrierRelease (index : Nat) (s : State) : Out := .next (s.barrierRelease index)

/-- BARRIER_LIMIT: the LIMIT of a waiting BARRIER has passed; its context ends with TIMEOUT (R159). -/
def State.barrierLimit (s : State) (t c : Nat) : State :=
  let x := s.ctx t c
  match x.cur with
  | none => s
  | some e =>
    if dType e.desc = 8 && x.state = .waiting && brLimit e.desc ≠ 0 then s.faultCtx t c .timeout 0 else s

def execBarrierLimit (tile ctx : Nat) (s : State) : Out := .next (s.barrierLimit tile ctx)

/-! ### REDUCE within the package (R147 to R149, R151) -/

/-- One element of a REDUCE over its members' values in ascending order: binary64 sums with RNE at each addition,
MEAN divided, MIN and MAX by R66 (R149). -/
def reduceElem (op : Nat) (n : Nat) (vs : List Val) : Val × FpEvents :=
  match vs with
  | [] => (.num false 0 0, .none)
  | v0 :: rest =>
    if op ≤ 1 then
      let t := rest.foldl (fun (a : Val × FpEvents) v =>
        let x := a.1.add v
        let q := roundTo 0 .rne x.1
        (q.1, (a.2.add x.2).add q.2)) (v0, .none)
      if op = 1 then
        let q := t.1.div (Val.ofInt n 0)
        let r := roundTo 0 .rne q.1
        (r.1, (t.2.add q.2).add r.2)
      else t
    else if op = 2 then (rest.foldl Val.min v0, .none)
    else (rest.foldl Val.max v0, .none)

/-- The descriptor of a member that has arrived. -/
def State.memberDesc (s : State) (x : Seat) (vk : Nat × Nat) : Bytes :=
  match x.tile? vk.1 with
  | some t => (match (s.ctx t vk.2).cur with | some e => e.desc | none => [])
  | none => []

/-- The package's result of a REDUCE over its arrived members: bits of every element with its poison, MEAN left as SUM for a group
(R149, R420). Each member's operand is at its own SRC. -/
def State.reduceResult (s : State) (x : Seat) (members : List (Nat × Nat)) (d : Bytes) : List ((Nat × Option Nat) × FpEvents) :=
  let op := if rdGroup d ≠ 0xFFFF && rdOp d = 1 then 0 else rdOp d
  let rows := (List.range (rdTiles d)).map (fun m =>
    match (x.tile? (rdFirst d + m)).bind s.tilePhys, members.find? (fun vk => vk.1 == rdFirst d + m) with
    | some b, some vk =>
      let src := rdSrc (s.memberDesc x vk)
      (b + src, s.readRow (rdIn d) (b + src) (rdCount d) 0)
    | _, _ => (0, { code := rdIn d, data := 0, scales := 0, poison := some 1 }))
  let w := fmtBits (rdIn d)
  let bad (i : Nat) : Option Nat := rows.findSome? (fun q =>
    if q.2.poison.isNone then none
    else if q.1 = 0 then some 1
    else s.rangePoison (q.1 + i * w / 8) ((i * w % 8 + w + 7) / 8))
  (List.range (rdCount d)).map (fun i =>
    let r := reduceElem op (rdTiles d) (rows.map (fun q => q.2.value i i))
    let o := convert (rdOut d) .rne false r.1
    ((o.1, bad i), r.2.add o.2))

/-- The result written to the members that SHAPE names, each at its DST, and every member done (R147, R149). -/
def State.reduceDeliver (s : State) (x : Seat) (d : Bytes) (members : List (Nat × Nat))
    (es : List (Nat × Option Nat)) : State :=
  members.foldl (fun s tc =>
    match x.tile? tc.1 with
    | none => s
    | some t =>
      match (s.ctx t tc.2).cur, s.tilePhys t with
      | some e, some b =>
        let part := rdPart d (tc.1 - rdFirst d)
        let mine := (es.drop part.1).take part.2
        let s := s.writeRun (b + rdDst e.desc) (rdOut d) 0 mine
        let s := s.charge (s.ctx t tc.2).seat acctVectorBusy (ceilDiv (rdCount d) 8)
        (match mine.findSome? (fun e => e.2) with
          | some cause => s.faultCtx t tc.2 (poisonStatus cause) 0
          | none =>
            (s.markDone t tc.2).remoteComplete t tc.2)
      | _, _ => s) s

/-- Every member that has arrived ends with a status (R148, R151). -/
def State.reduceFail (s : State) (x : Seat) (members : List (Nat × Nat)) (st : Status) (detail : Nat) : State :=
  members.foldl (fun s tc =>
    match x.tile? tc.1 with
    | none => s
    | some t => if (s.ctx t tc.2).state = .faulted then s else s.faultCtx t tc.2 st detail) s

/-- A poisoned cause among results. -/
def anyPoison (es : List ((Nat × Option Nat) × FpEvents)) : Option Nat := es.findSome? (fun e => e.1.2)

end Sys2Proof.Machine
end

