-- ==== Sys2Proof/Machine/Requests.lean ====
section
/-!
DEFINITION. Requests across the fabric at their source, and the answers of a home (R364 to R373, R377, R396): the
operation header, the splitting into packets, what a response or a failure does to the one that waits for it.
-/

namespace Sys2Proof.Machine

/-! ### Who waits -/

/-- An action's part is done: with the first error status it keeps, and its final status when nothing is
outstanding (R370, R402). -/
def State.actionPart (s : State) (id : Nat) (st : Option Status) : State :=
  { s with ni := { s.ni with actions := FMap.upd s.ni.actions id (fun a =>
      let first := a.first.orElse (fun _ => st)
      let n := a.outstanding - 1
      { a with first := first, outstanding := n, status := if n = 0 then some (first.getD .success) else a.status }) } }

/-- Requests that an owner still waits for. -/
def State.owned (s : State) (o : Owner) : Bool := s.ni.requests.any (fun kr => decide (kr.2.owner = o))

/-- A request of an owner has ended, with a status where it failed. A COPY goes on when its last request has
completed, and faults at the first failure (R114, R369), with the address that a window refuses as its DETAIL (R166). -/
def State.ownerDone (s : State) (o : Owner) (st : Option Status) (addr : Nat) : State :=
  match o with
  | .action id => s.actionPart id st
  | .mirror u =>
    match st with
    | none => s
    | some x => { s with flash := { s.flash with mirrorFailed := FMap.insert s.flash.mirrorFailed u x } }
  | .ctx t c =>
    match st with
    | some x =>
      let s := { s with ni := { s.ni with requests := s.ni.requests.filter (fun kr => !decide (kr.2.owner = o)) } }
      if (s.ctx t c).state = .parked then s.faultCtx t c x (if x = .addrInvalid then addr else 0) else s
    | none => if s.owned o || (s.ctx t c).state ≠ .parked then s else s.markDone t c

def State.dropRequest (s : State) (id : Nat) : State :=
  { s with ni := { s.ni with requests := FMap.erase s.ni.requests id } }

/-- A request ends with a status, or with success where there is none. -/
def State.endRequest (s : State) (id : Nat) (st : Option Status) : State :=
  match FMap.find? s.ni.requests id with
  | none => s
  | some r => (s.dropRequest id).ownerDone r.owner st r.addr

/-! ### Building requests (R365 to R369) -/

/-- The operation header of R365. -/
def opHeader (offset len aop : Nat) (fetch : Bool) (part parts : Nat) : Bytes :=
  natLe 6 offset ++ natLe 2 len ++ [BitVec.ofNat 8 (aop + 16 * b2n fetch), BitVec.ofNat 8 (part + 8 * parts)] ++
    List.replicate 6 0

/-- A request packet is sent and waited for; NO_ROUTE ends it where no route can take it (R359). -/
def State.openRequest (s : State) (hub seat : Nat) (p : Packet) (pieces : List (Nat × Nat)) (kind : ReqKind)
    (o : Owner) : State :=
  let r := (s.hubTraffic seat hub pieces false).startPacket hub (some seat) p pieces (some o)
  let q : Request := { dst := p.dst, tc := p.tc, vl := p.vl, epoch := p.epoch, seq := r.2.2, seat := seat, hub := hub,
                       kind := kind, owner := o, addr := p.dst * 2 ^ 48 + fld p.payload 0 6 }
  let id := r.1.ni.nextRequest
  let s := { r.1 with ni := { r.1.ni with requests := FMap.insert r.1.ni.requests id q, nextRequest := id + 1 } }
  if r.2.1 then s else s.endRequest id (some .noRoute)

/-- A byte range cut at multiples of 4,096 of the window offset and into at most `most` bytes: window offset, place in
the range, bytes (R367). -/
def cutRange : Nat → Nat → Nat → Nat → Nat → List (Nat × Nat × Nat)
  | 0, _, _, _, _ => []
  | fuel + 1, most, off, done, n =>
    if n = 0 then []
    else
      let k := min (min most n) (4096 - off % 4096)
      (off, done, k) :: cutRange fuel most (off + k) (done + k) (n - k)

/-- The epoch of a seat. -/
def State.epochOf (s : State) (seat : Nat) : Nat := match s.seat? seat with | some x => x.epoch.toNat | none => 0

/-- The READ packets for a range of a window that land at a place (R369, R370). -/
def State.openReads (s : State) (hub seat dst tc vl key off land n : Nat) (adaptive : Bool) (o : Owner) : State :=
  (cutRange (n + 1) 4096 off 0 n).foldl (fun s c =>
    let p := mkPacket dst 1 tc vl key (s.epochOf seat) (opHeader c.1 (c.2.2 - 1) 0 false 0 0)
    s.openRequest hub seat { p with reliable := tc == 3, adaptive := adaptive } [] (.read [(land + c.2.1, c.2.2)]) o) s

/-- The WRITE packets for a range of a window from a place (R367, R369). -/
def State.openWrites (s : State) (hub seat dst tc vl key off from_ n : Nat) (adaptive : Bool) (o : Owner) : State :=
  (cutRange (n + 1) 4032 off 0 n).foldl (fun s c =>
    let p := mkPacket dst 3 tc vl key (s.epochOf seat) (opHeader c.1 (c.2.2 - 1) 0 false 0 0)
    s.openRequest hub seat { p with reliable := tc == 3, adaptive := adaptive } [(from_ + c.2.1, c.2.2)] .write o) s

/-! ### The checks of a home (R364) -/

/-- The fields of an operation header. -/
def ohOffset (b : Bytes) : Nat := fld b 0 6
def ohLen (b : Bytes) : Nat := fld b 6 2 % 4096 + 1
def ohAop (b : Bytes) : Nat := byteAt b 8 % 16
def ohFetch (b : Bytes) : Bool := bit (byteAt b 8) 4
def ohPart (b : Bytes) : Nat := byteAt b 9 % 8
def ohParts (b : Bytes) : Nat := byteAt b 9 / 8 % 8

/-- Bytes of an atomic's operand (R368). -/
def aopWidth (a : Nat) : Nat := if [2, 8, 9, 10, 11, 14].contains a then 8 else 4

/-- The reserved fields and sizes of an operation header and its payload (R365 to R367). -/
def opHeaderOk (type : Nat) (b : Bytes) : Bool :=
  16 ≤ b.length && byteAt b 7 < 16 && byteAt b 8 < 32 && byteAt b 9 < 64 && zeros b 10 16 &&
  match type with
  | 1 => b.length == 16 && byteAt b 8 == 0 && byteAt b 9 == 0 && ohOffset b % 64 == 0 && ohLen b % 64 == 0
      && ohOffset b % 4096 + ohLen b ≤ 4096
  | 3 => byteAt b 8 == 0 && byteAt b 9 == 0 && ohOffset b % 64 == 0 && ohLen b % 64 == 0 && ohLen b ≤ 4032
      && b.length == 16 + ohLen b && ohOffset b % 4096 + ohLen b ≤ 4096
  | 5 => b.length == 32 && fld b 6 2 == 0 && byteAt b 9 == 0 && ohAop b != 0 && ohAop b != 15
      && ohOffset b % aopWidth (ohAop b) == 0 && (ohAop b == 14 || fld b 24 8 == 0)
      && (aopWidth (ohAop b) == 8 || fld b 20 4 == 0)
  | 7 => b.length == 80 && fld b 6 2 == 63 && byteAt b 8 == 0 && ohPart b ≤ ohParts b && ohOffset b % 64 == 0
  | _ => false

/-- Bytes that an operation addresses. -/
def opBytes (type : Nat) (b : Bytes) : Nat :=
  match type with | 1 => ohLen b | 3 => ohLen b | 5 => aopWidth (ohAop b) | _ => 64

/-- The entry of a window as a check of this hc sees it: as it stood before it was written in this hc (R362). -/
def State.windowAt (s : State) (w : Nat) : Option Window :=
  match FMap.find? s.ni.windowsOld w with
  | some (h, old) => if h = s.hcNow then old else FMap.find? s.ni.windows w
  | none => FMap.find? s.ni.windows w

/-- The checks of R364 in order: the window and the HBM address of the operation, or the status and its counter. -/
def State.windowCheck (s : State) (p : Packet) : Except (Status × Nat) (Window × Nat) :=
  match s.windowAt (p.tag % 4096) with
  | none => .error (.keyDenied, 0x9000)
  | some w =>
    if !w.v || w.key ≠ p.tag then .error (.keyDenied, 0x9000)
    else if s.epochOf w.seat ≠ p.epoch || (s.seat? w.seat).isNone then .error (.epochStale, 0x9001)
    else if p.src &&& w.srcMask ≠ w.srcMatch then .error (.keyDenied, 0x9000)
    else if !(match p.type with | 1 => w.rd | 3 => w.wr | 5 => w.at_ | _ => w.tx) then .error (.keyDenied, 0x9000)
    else if !opHeaderOk p.type p.payload || w.size < ohOffset p.payload + opBytes p.type p.payload then
      .error (.addrInvalid, 0x9002)
    else .ok (w, w.base + ohOffset p.payload)

/-- The home hub of an HBM address (R19, R371). -/
def homeHub (a : Nat) : Nat := if stackOf a < 16 then 0 else 1

/-- Where the answer to a packet goes. -/
def packetFrom (p : Packet) (seat : Nat) (last : Bool) : OpFrom :=
  { src := p.src, tc := p.tc, vl := p.vl, epoch := p.epoch, seq := p.seq, seat := seat, hub := streamHub p.src p.vl,
    reliable := p.reliable, adaptive := p.adaptive, last := last, owner := none }

/-! ### Answers (R366, R373) -/

/-- A response in the class, lane and epoch of its request, with TAG its SEQ. -/
def State.respond (s : State) (f : OpFrom) (type : Nat) (payload : Bytes) (pieces : List (Nat × Nat))
    (charged : Bool) : State :=
  let p := mkPacket f.src type f.tc f.vl f.seq f.epoch payload
  let p := { p with reliable := f.reliable, adaptive := f.adaptive, empty := false }
  (s.startPacket f.hub (if charged then some f.seat else none) p pieces none).1

/-- A STATUS packet (R366). -/
def State.respondStatus (s : State) (f : OpFrom) (st : Status) : State :=
  s.respond f 9 (natLe 2 (statusCode st) ++ List.replicate 14 0) [] false

/-- The status of a code (R558), success for one that names none. -/
def statusOf (code : Nat) : Status :=
  let all : List Status := [.short, .replayExcluded, .cmdInvalid, .opcodeUnknown, .permissionDenied, .seatState,
    .moduleState, .configInvalid, .unsupported, .tilesUnavailable, .quotaExceeded, .seatConflict, .allotmentInUse,
    .levelUnsupported, .levelMismatch, .turnAborted, .admissionRequired, .descInvalid, .formatInvalid, .addrInvalid,
    .metaInvalid, .tableStale, .spillUnfollowed, .triggerBusy, .windowInvalid, .hbmModeBusy, .dataPoisoned,
    .streamUncorrectable, .checkFail, .contextAborted, .memberLost, .descMismatch, .lengthMismatch, .spaceUnknown,
    .spaceBusy, .placementInvalid, .placementMismatch, .swapRejected, .routeAborted, .keyDenied, .epochStale, .timeout,
    .noRoute, .notReady, .namespaceAbsent, .flashUnavailable, .flashFull, .flashReadOnly, .namespaceBusy,
    .imageInvalid, .unlockDenied]
  (all.find? (fun x => statusCode x == code)).getD .success

/-! ### Responses at the source (R373, R377, R396) -/

/-- The request that a response answers: by its stream and its TAG. -/
def State.requestOf (s : State) (p : Packet) : Option (Nat × Request) :=
  List.find? (fun (kr : Nat × Request) => kr.2.dst == p.src && kr.2.tc == p.tc && kr.2.vl == p.vl
    && kr.2.epoch == p.epoch && kr.2.seq == p.tag) s.ni.requests

/-- A response is taken: a stale one is discarded and counted, one with no request left is late, and counted; else f
acts on its request (R377, R396). -/
def State.takeResponse (s : State) (i : Nat) (types : List Nat) (f : State → Packet → Nat → Request → State) : State :=
  match s.taken i types with
  | none => s
  | some x =>
    let p := x.pkt
    let hub := streamHub p.src p.vl
    let k := p.rxKey
    match s.requestOf p with
    | some (id, r) =>
      let s := s.dropTaken i true
      if s.epochOf r.seat ≠ p.epoch || (s.seat? r.seat).isNone then (s.dropRequest id).count 0x9007 none hub 1
      else (f s p id r).ackIfDue k
    | none =>
      let s := s.dropTaken i true
      (s.count (if s.epochCurrent p.epoch then 0x9006 else 0x9007) none hub 1).ackIfDue k

/-- Data for a COPY may not land yet: an earlier access of its tile has data to come (R103). -/
def State.landHeld (s : State) (o : Owner) : Bool :=
  match o with
  | .ctx t c => (match (s.ctx t c).cur with
      | some e => (s.ctx t c).state == .parked && s.portHeld t e.order (true, e.outbound)
      | none => false)
  | _ => false

/-- The data of a READ lands, its poison with cause 0b11; of a mirror fetch, in the unit's buffer (R302, R369, R383). -/
def State.landRead (s : State) (p : Packet) (r : Request) (land : List (Nat × Nat)) : State :=
  match r.owner with
  | .mirror u =>
    let buf := FMap.get [] s.flash.mirrorBytes u
    let at_ := (land.headD (0, 0)).1
    let s := { s with flash := { s.flash with mirrorBytes := FMap.insert s.flash.mirrorBytes u (splice (padTo 4096 buf) at_ p.payload) } }
    if p.bad.isEmpty then s else s.ownerDone r.owner (some .dataPoisoned) 0
  | _ =>
    let s := s.hubTraffic r.seat r.hub land true
    (land.foldl (fun (a : State × Nat) (l : Nat × Nat) =>
      (a.1.land l.1 ((p.payload.drop a.2).take l.2)
        ((p.bad.filter (fun b => a.2 ≤ b && b < a.2 + l.2)).map (fun b => b - a.2)), a.2 + l.2)) (s, 0)).1

/-- READ_DATA: the data lands at the pieces of the request, in the tile's order of issue where a COPY asked for it (R103, R302,
R369, R383). -/
def State.readData (s : State) (i : Nat) : State :=
  let held : Bool := match s.taken i [2] with
    | some x => (match s.requestOf x.pkt with | some (_, r) => s.landHeld r.owner | none => false)
    | none => false
  if held then s
  else s.takeResponse i [2] (fun s p id r =>
    match r.kind with
    | .read land => (s.landRead p r land).endRequest id none
    | _ => s)

/-- WRITE_ACK: every WRITE of the stream up to its TAG is acknowledged (R373); one that answers none any more is late or stale
(R377, R396). -/
def State.writeAck (s : State) (i : Nat) : State :=
  match s.taken i [4] with
  | none => s
  | some x =>
    let p := x.pkt
    let hub := streamHub p.src p.vl
    let mine := s.ni.requests.filter (fun kr => decide (kr.2.kind = .write) && kr.2.dst == p.src && kr.2.tc == p.tc
      && kr.2.vl == p.vl && kr.2.epoch == p.epoch && (kr.2.seq == p.tag || seqBefore kr.2.seq p.tag))
    let s := s.dropTaken i true
    let k := streamKey p.src p.tc p.vl p.epoch
    let t := s.txStream k
    let left := t.unacked.filter (fun u => !(u.pkt.type == 3 && (u.pkt.seq == p.tag || seqBefore u.pkt.seq p.tag)))
    let s := s.setTx k { t with unacked := left, runs := if left.length = t.unacked.length then t.runs else 0 }
    let s := if mine.isEmpty then s.count (if s.epochCurrent p.epoch then 0x9006 else 0x9007) none hub 1 else s
    let s := mine.foldl (fun s kr =>
      if s.epochOf kr.2.seat ≠ p.epoch then (s.dropRequest kr.1).count 0x9007 none hub 1 else s.endRequest kr.1 none) s
    s.ackIfDue p.rxKey

/-- ATOMIC_DATA: the old value is kept for the result record (R370). -/
def State.atomicData (s : State) (i : Nat) : State :=
  s.takeResponse i [6] (fun s p id r =>
    let s := match r.owner with
      | .action a => { s with ni := { s.ni with actions := FMap.upd s.ni.actions a (fun x => { x with old := fld p.payload 0 8 }) } }
      | _ => s
    s.endRequest id none)

/-- TXN_DONE: every part of the group is done (R385). -/
def State.txnDone (s : State) (i : Nat) : State := s.takeResponse i [8] (fun s _ id _ => s.endRequest id none)

/-- STATUS: the request is refused with the status that the packet carries (R366). -/
def State.statusIn (s : State) (i : Nat) : State :=
  s.takeResponse i [9] (fun s p id _ => s.endRequest id (some (statusOf (fld p.payload 0 2))))

def execReadData (index : Nat) (s : State) : Out := .next (s.readData index)
def execWriteAck (index : Nat) (s : State) : Out := .next (s.writeAck index)
def execAtomicData (index : Nat) (s : State) : Out := .next (s.atomicData index)
def execTxnDone (index : Nat) (s : State) : Out := .next (s.txnDone index)
def execStatus (index : Nat) (s : State) : Out := .next (s.statusIn index)

/-- TC2_TIMEOUT: a TC2 operation without a response ends with TIMEOUT; a later response is late (R377). -/
def execTc2Timeout (request : Nat) (s : State) : Out :=
  .next (match FMap.find? s.ni.requests request with
    | some r => if r.tc = 2 then s.endRequest request (some .timeout) else s
    | none => s)

end Sys2Proof.Machine
end

