-- ==== Sys2Proof/Machine/Ports.lean ====
section
/-!
DEFINITION. Fabric ports: flits in and out with their numbers, credits and resends (R322 to R329, R349), port states
(R330 to R334), NOT_READY (R355 to R357), gaps in streams (R376), and end-to-end acknowledgement and resend (R438 to
R441).
-/

namespace Sys2Proof.Machine

/-- The image that the module runs, as the bytes of its slot (R576). -/
def Firmware.image (f : Firmware) : FMap Byte := if f.runningB then f.slotB else f.slotA

/-- A field of n bytes of a slot. -/
def slotField (m : FMap Byte) (o n : Nat) : Nat := leNat ((List.range n).map (fun i => FMap.get 0 m (o + i)))

/-- The firmware's collective protocol level (R412, R577). -/
def State.cpl (s : State) : Nat := slotField s.fw.image 16 1

/-! ### Entering and leaving states -/

/-- The records of a HANDSHAKE: LINK_INFO, then the reserved credits of every lane (R326, R330). -/
def State.handshakeRecords (s : State) (p : Nat) : List Control :=
  let info : Control := { code := 3, body := [0] ++ natLe 2 s.fab.node ++ [BitVec.ofNat 8 p, BitVec.ofNat 8 s.cpl] ++ natLe 2 1024 }
  let credit (tc vl n : Nat) : Control := { code := 1, body := [BitVec.ofNat 8 (tc + 4 * vl)] ++ natLe 2 n ++ [0, 0, 0, 0] }
  info :: ((List.range 4).map (fun vl => credit 0 vl 16)
    ++ [1, 2, 3].flatMap (fun tc => (List.range 16).map (fun vl => credit tc vl 20)))

/-- A port's link side as at the start of a link; queue, tables and flap history stay (R324, R326). -/
def Port.fresh (x : Port) : Port :=
  { x with partner := none, nextLseq := 0, expected := 0, accepted := none, awaiting := false, replay := [],
           resend := none, resendTimes := [], flits := [], partials := [], credits := [], shared := 0,
           controlOut := [], controlIn := [], held := false, backoff := 0, refused := [], soakBad := false }

/-- The queued packets of a port that have not begun are looked up again; begun ones are lost (R346). -/
def State.requeue (s : State) (p : Nat) : State :=
  let s := s.markDepth p
  let x := s.port p
  let s := s.setPort p { x with queue := [] }
  x.queue.foldl (fun s q => if q.sent = 0 then (s.routeOut q).1
    else if q.req < 24 then s.freeFlits q.req q.origin else s) s

/-- A port's link goes: packets still incomplete on it are discarded and counted, the replay buffer is emptied, and
queued packets find other routes (R329, R346). -/
def State.linkDown (s : State) (p : Nat) (st : PortState) : State :=
  let x := s.port p
  let s := x.partials.foldl (fun s kc => if kc.2.any (fun c => !c.2.isEmpty) then s.countTc 0x8009 p (kc.1 / 16) 1 else s) s
  let s := s.setPort p { x.fresh with state := st, soaking := false, trainingSince := s.time }
  s.requeue p

/-- PORT_QUARANTINED: the port is quarantined with a hold time and the event is logged (R334). -/
def State.quarantine (s : State) (p hold : Nat) : State :=
  let s := s.linkDown p .quarantined
  let s := s.setPort p { s.port p with quarantineHold := hold }
  s.logEvent 0x0401 none 0x07 p 0 hold

/-- A port leaves UP other than by a disable command: a flap; the eighth in any 10 s quarantines it; a port in its soak
goes back to quarantine with its hold doubled, up to 960 s (R332, R334). -/
def State.leaveUp (s : State) (p : Nat) : State :=
  let x := s.port p
  let s := s.count 0x8007 none p 1
  let flaps := (x.flaps.filter (fun t => s.time ≤ t + 10 * secondUnits)) ++ [s.time]
  let s := s.setPort p { x with flaps := flaps }
  if x.soaking then s.quarantine p (min 960 (2 * x.quarantineHold))
  else if 8 ≤ flaps.length then s.quarantine p x.quarantineHold
  else s.linkDown p .training

/-- PORT_LOSS: a port in UP loses its link; one in HANDSHAKE trains again (R332). -/
def execPortLoss (port : Nat) (_cause : LossCause) (s : State) : Out :=
  .next (if (s.port port).state = .up then s.leaveUp port
    else if (s.port port).state = .handshake then
      let soak := (s.port port).soaking
      let s := s.linkDown port .training
      s.setPort port { s.port port with soaking := soak }
    else s)

/-- PORT_TRAINING_DONE: a training port enters HANDSHAKE and sends its LINK_INFO and credits (R330). -/
def execPortTrainingDone (port : Nat) (s : State) : Out :=
  .next (let x := s.port port
    if x.state = .training then
      s.setPort port { x.fresh with state := .handshake, condition := none, controlOut := s.handshakeRecords port }
    else s)

/-- HANDSHAKE_RETRY: a port still in HANDSHAKE repeats it (R333). -/
def execHandshakeRetry (port : Nat) (s : State) : Out :=
  .next (let x := s.port port
    if x.state = .handshake then s.setPort port { x with controlOut := s.handshakeRecords port } else s)

/-! ### Sending flits (R323 to R327, R349) -/

def Port.hasCredit (x : Port) (tc vl : Nat) : Bool :=
  0 < FMap.get 0 x.credits (tc * 16 + vl) || (tc != 0 && 0 < x.shared)

/-- A credit of a stream is used: a reserved one where there is one, else a shared one (R327). -/
def Port.useCredit (x : Port) (tc vl : Nat) : Port :=
  let k := tc * 16 + vl
  let n := FMap.get 0 x.credits k
  if 0 < n then { x with credits := FMap.put 0 x.credits k (n - 1) } else { x with shared := x.shared - 1 }

/-- The queued packet of a stream that sends next: the one begun, else the one of the first requester after the last
granted, oldest first (R349). -/
def Port.granted (x : Port) (tc vl : Nat) : Option OutPkt :=
  let mine := x.queue.filter (fun q => q.pkt.tc == tc && q.pkt.vl == vl)
  match mine.find? (fun q => q.sent != 0) with
  | some q => some q
  | none =>
    let last := FMap.get 24 x.reqLast (tc * 16 + vl)
    (List.range 25).foldl (fun a i => a.orElse (fun _ => mine.find? (fun q => q.req == (last + 1 + i) % 25))) none

/-- The lane of a class that sends next: the last one while its turn of one packet lasts and it holds credit, else the
next in turn with a packet and credit (R349). -/
def Port.nextLane (x : Port) (tc : Nat) : Option Nat :=
  let can (vl : Nat) : Bool := x.hasCredit tc vl && x.queue.any (fun q => q.pkt.tc == tc && q.pkt.vl == vl)
  let last := FMap.get 15 x.vlLast tc
  if FMap.get false x.vlOpen tc && can last then some last
  else ((List.range 16).map (fun i => (last + 1 + i) % 16)).find? can

/-- A class's weight at a port's hub. -/
def HubParams.weight (h : HubParams) (tc : Nat) : Nat := match tc with | 1 => h.w1 | 2 => h.w2 | _ => h.w3

/-- The class that sends next, with the weighted rotation after it: TC0 first, then TC1 to TC3 (R349). -/
def Port.nextClass (x : Port) (h : HubParams) : Option (Nat × Port) :=
  if (x.nextLane 0).isSome then some (0, x)
  else
    let c := x.wrrClass
    let after (i : Nat) : Nat := (c - 1 + i) % 3 + 1
    let tries := [(c, x.wrrLeft), (after 1, h.weight (after 1)), (after 2, h.weight (after 2)), (c, h.weight c)]
    match tries.find? (fun t => 0 < t.2 && (x.nextLane t.1).isSome) with
    | none => none
    | some t => some (t.1, { x with wrrClass := t.1, wrrLeft := t.2 - 1 })

/-- Up to n bytes of a stream are taken from a port's queue, packet after packet; a packet sent whole is counted and
charged, and leaves the receive buffer it arrived in (R323, R327, R525, R595). -/
def State.takeBytes : Nat → State → Nat → Nat → Nat → Nat → State × List (Byte × Bool)
  | 0, s, _, _, _, _ => (s, [])
  | fuel + 1, s, p, tc, vl, n =>
    if n = 0 then (s, [])
    else
      let x := s.port p
      match x.granted tc vl with
      | none => (s, [])
      | some q =>
        let ms := (q.pkt.encode.drop q.sent).take n
        let q' := { q with sent := q.sent + ms.length }
        let x := { x with reqLast := FMap.insert x.reqLast (tc * 16 + vl) q.req }
        if q'.sent < q.pkt.size then
          (s.setPort p { x with queue := x.queue.set (x.queue.findIdx (fun y => decide (y = q))) q' }, ms)
        else
          let s := s.setPort p { x with queue := x.queue.erase q }
          let s := (s.countTc 0x8000 p tc q.pkt.size).moved p false q.pkt.size
          let s := match q.seat with
            | some n => s.charge n (acctFabTx p) q.pkt.size
            | none => s.countTc 0x8012 p tc q.pkt.size
          let s := if q.req < 24 then s.freeFlits q.req q.origin else s
          let r := State.takeBytes fuel s p tc vl (n - ms.length)
          (r.1, ms ++ r.2)

/-- A flit leaves on the wire. -/
def State.wire (s : State) (p : Nat) (f : Flit) : State :=
  let s := { s with fab := { s.fab with sent := s.fab.sent ++ [(p, f)] } }
  match f.kind with
  | .idle => s
  | .data => s.countTc 0x8002 p f.tc 1
  | .control => s.count 0x8002 none p 1

def Port.ackField (x : Port) : Nat := x.accepted.getD 0xFFF

/-- A numbered flit is made, kept for resending and sent (R324). -/
def State.sendNumbered (s : State) (p : Nat) (f : Flit) : State :=
  let x := s.port p
  let f := { f with lseq := x.nextLseq, ack := x.ackField }
  let s := s.setPort p { x with nextLseq := (x.nextLseq + 1) % 4096, replay := x.replay ++ [f] }
  s.wire p f

def idleFlit (x : Port) : Flit :=
  { kind := .idle, tc := 0, vl := 0, lseq := x.nextLseq, ack := x.ackField, payload := [], bad := [], good := true }

def controlFlit (cs : List Control) : Flit :=
  { kind := .control, tc := 0, vl := 0, lseq := 0, ack := 0,
    payload := cs.flatMap (fun c => (BitVec.ofNat 8 c.code) :: c.body), bad := [], good := true }

/-- A READY record for the partner of a port that is Up on a Ready module (R355). -/
def State.sendReady (s : State) (p : Nat) : State :=
  let x := s.port p
  if s.mod.state = .ready && x.state = .up then
    s.setPort p { x with controlOut := x.controlOut ++ [{ code := 5, body := List.replicate 7 0 }] }
  else s

/-- A port in HANDSHAKE that has accepted its partner's LINK_INFO, holds its credits for all 52 lanes and has sent its
own records is UP: the record that completes the HANDSHAKE is its last (R326, R330, R333). -/
def State.handshakeEnd (s : State) (p : Nat) : State :=
  let x := s.port p
  if x.state = .handshake && x.partner.isSome && x.controlOut.isEmpty && 52 ≤ x.credits.length then
    (s.setPort p { x with state := .up, upSince := s.time }).sendReady p
  else s

/-- FLIT_SEND: the port's next flit: of a resend run, of control records, of the class and lane that R349 chooses, or
IDLE; only IDLE in the soak and while the replay buffer is full (R323, R324, R334, R349). -/
def State.flitSend (s : State) (p : Nat) : State :=
  let s := State.pumpTc0 1024 s (portHub p)
  let x := s.port p
  match x.state with
  | .handshake =>
    if x.controlOut.isEmpty then s
    else
      let s := s.setPort p { x with controlOut := x.controlOut.drop 30 }
      (s.wire p { controlFlit (x.controlOut.take 30) with ack := 0xFFF }).handshakeEnd p
  | .up =>
    match x.resend.bind (fun i => x.replay[i]?.map (fun f => (i, f))) with
    | some (i, f) =>
      let s := s.setPort p { x with resend := if i + 1 < x.replay.length then some (i + 1) else none }
      s.wire p { f with ack := x.ackField }
    | none =>
      if x.soaking || 1024 ≤ x.replay.length then s.wire p (idleFlit x)
      else if !x.controlOut.isEmpty then
        let s := s.setPort p { x with controlOut := x.controlOut.drop 30 }
        s.sendNumbered p (controlFlit (x.controlOut.take 30))
      else
        match x.nextClass (s.params (portHub p)) with
        | none =>
          let s := if x.queue.isEmpty then s else s.count 0x8005 none p 1
          s.wire p (idleFlit x)
        | some (tc, y) =>
          match y.nextLane tc with
          | none => s
          | some vl =>
            let s := (s.setPort p { y.useCredit tc vl with vlLast := FMap.insert y.vlLast tc vl }).markDepth p
            let r := State.takeBytes 245 s p tc vl 244
            let s := if tc = 0 then r.1.countTc 0x8003 p tc 1 else r.1
            let z := s.port p
            let s := s.setPort p { z with vlOpen := FMap.insert z.vlOpen tc (z.queue.length == x.queue.length) }
            s.sendNumbered p { kind := .data, tc := tc, vl := vl, lseq := 0, ack := 0, payload := r.2.map (·.1),
                               bad := (List.range r.2.length).filter (fun i => (r.2[i]?.getD (0, false)).2), good := true }
  | _ => s

def execFlitSend (port : Nat) (s : State) : Out := .next (s.flitSend port)

/-! ### Resend runs (R325) -/

/-- A resend run from a place of the replay buffer: counted; more than 16 within 1 ms take the port out of UP. -/
def State.resendRun (s : State) (p i : Nat) : State :=
  let x := s.port p
  let times := (x.resendTimes.filter (fun t => s.time ≤ t + 1000 * usUnits)) ++ [s.time]
  let s := s.count 0x8006 none p 1
  let s := s.setPort p { x with resend := some i, resendTimes := times, soakBad := true }
  if 16 < times.length then s.leaveUp p else s

/-- The first control record of a code that a port has received, removed. -/
def State.takeControl (s : State) (p code : Nat) : Option (Control × State) :=
  let x := s.port p
  match x.controlIn.find? (fun c => c.code == code) with
  | none => none
  | some c => some (c, s.setPort p { x with controlIn := x.controlIn.erase c })

/-- CREDIT: the partner grants a stream's credits in HANDSHAKE, and returns a stream's or shared ones after it (R326,
R327, R328). -/
def execCredit (port : Nat) (s : State) : Out :=
  .next (match s.takeControl port 1 with
    | none => s
    | some (c, s) =>
      let x := s.port port
      let b := byteAt c.body 0
      let n := fld c.body 1 2
      if bit b 6 then s.setPort port { x with shared := x.shared + n }
      else
        let k := b % 4 * 16 + b / 4 % 16
        if x.state = .handshake then (s.setPort port { x with credits := FMap.put 0 x.credits k n }).handshakeEnd port
        else s.setPort port { x with credits := FMap.put 0 x.credits k (FMap.get 0 x.credits k + n) })

/-- REPLAY: the flits from the named LSEQ are sent again (R325). -/
def execReplay (port : Nat) (s : State) : Out :=
  .next (match s.takeControl port 2 with
    | none => s
    | some (c, s) =>
      let x := s.port port
      match x.replay.findIdx? (fun f => f.lseq == fld c.body 1 2 % 4096) with
      | some i => if x.state = .up then s.resendRun port i else s
      | none => s)

def replayRecord (expected : Nat) : Control := { code := 2, body := [0] ++ natLe 2 expected ++ [0, 0, 0, 0] }

/-- REPLAY_REPEAT: a receiver that still awaits its flit repeats the REPLAY record (R325). -/
def execReplayRepeat (port : Nat) (s : State) : Out :=
  .next (let x := s.port port
    if x.awaiting && x.state = .up then s.setPort port { x with controlOut := x.controlOut ++ [replayRecord x.expected] }
    else s)

/-- ACK_STALL_RESEND: no acknowledgement has moved on while flits are unacknowledged: they are sent again from the
oldest (R325). -/
def execAckStallResend (port : Nat) (s : State) : Out :=
  .next (let x := s.port port
    if x.state = .up && !x.replay.isEmpty then s.resendRun port 0 else s)

/-! ### Receiving flits (R325, R328, R329, R340, R355) -/

/-- The flits that the partner has acknowledged leave the replay buffer. -/
def Port.acked (x : Port) (ack : Nat) : Port :=
  match x.replay.findIdx? (fun f => f.lseq == ack) with
  | none => x
  | some i => { x with replay := x.replay.drop (i + 1), resend := x.resend.map (fun r => r - (i + 1)) }

/-- A node that is not Ready keeps MGMT and TIME for itself and forwards transit TC0; everything else is discarded and
named in a NOT_READY record (R355). -/
def State.notReadyDiscards (s : State) (p : Packet) : Bool :=
  s.mod.state ≠ .ready && (if p.dst == s.fab.node then p.type != 0x20 && p.type != 0x21 else p.tc != 0)

/-- A whole packet that a port has received: checked, discarded, delivered or forwarded (R329, R340, R344, R355). -/
def State.packetIn (s : State) (p : Nat) (q : Parsed) (origin : List (Nat × Nat)) : State :=
  let k := q.pkt
  let s := (s.countTc 0x8001 p k.tc k.size).moved p true k.size
  if !q.ok then ((s.countTc 0x800A p k.tc 1).countTc 0x8012 p k.tc k.size).freeFlits p origin
  else if q.crc ≠ k.crc then ((s.countTc 0x800B p k.tc 1).countTc 0x8012 p k.tc k.size).freeFlits p origin
  else if s.notReadyDiscards k then
    let x := s.port p
    let c : Control := { code := 4, body := [BitVec.ofNat 8 k.tc] ++ natLe 2 k.src ++ natLe 2 k.dst ++ natLe 2 k.seq }
    let s := (s.countTc 0x800E p k.tc 1).countTc 0x8012 p k.tc k.size
    (s.setPort p { x with controlOut := x.controlOut ++ [c] }).freeFlits p origin
  else if k.dst = s.fab.node then
    let s := match s.targetSeat k with
      | some n => s.charge n (acctFabRx p) k.size
      | none => s.countTc 0x8012 p k.tc k.size
    let s := if unnumbered k.type then s else s.transit p 0 (streamHub k.src k.vl) k.size
    (s.deliver { pkt := k, port := p, origin := origin, at_ := s.time }).ackIfDue k.rxKey
  else (s.routeOut { req := p, hub := portHub p, seat := none, pkt := k, sent := 0, origin := origin }).1

/-- The first n bytes of the chunks of a stream, with the flits they lie in, and the rest. -/
def takeChunks : List (Nat × List (Byte × Bool)) → Nat → List (Byte × Bool) × List (Nat × Nat) × List (Nat × List (Byte × Bool))
  | [], _ => ([], [], [])
  | (f, ms) :: t, n =>
    if n = 0 then ([], [], (f, ms) :: t)
    else if n < ms.length then (ms.take n, [(f, n)], (f, ms.drop n) :: t)
    else
      let r := takeChunks t (n - ms.length)
      (ms ++ r.1, (f, ms.length) :: r.2.1, r.2.2)

/-- The whole packets at the front of a stream's bytes go on, one after the other. -/
def State.assemble : Nat → State → Nat → Nat → State
  | 0, s, _, _ => s
  | fuel + 1, s, p, stream =>
    let x := s.port p
    let cs := FMap.get [] x.partials stream
    let all := cs.flatMap (·.2)
    match packetSize (all.map (·.1)) with
    | none => s
    | some n =>
      if all.length < n then s
      else
        let r := takeChunks cs n
        let s := s.setPort p { x with partials := FMap.put [] x.partials stream r.2.2 }
        State.assemble fuel (s.packetIn p (parsePacket r.1) r.2.1) p stream

/-- The records of a CONTROL flit's payload. -/
def controlRecords : Nat → Bytes → List Control
  | 0, _ => []
  | fuel + 1, bs => if bs.length < 8 then [] else { code := byteAt bs 0, body := (bs.drop 1).take 7 } :: controlRecords fuel (bs.drop 8)

/-- The records of an accepted CONTROL flit wait for their rows; reserved codes are ignored and counted (R328). -/
def State.controlIn (s : State) (p : Nat) (bs : Bytes) : State :=
  let cs := controlRecords 31 bs
  let good := cs.filter (fun c => 1 ≤ c.code && c.code ≤ 5)
  let s := s.count 0x8008 none p (cs.length - good.length)
  let x := s.port p
  s.setPort p { x with controlIn := x.controlIn ++ good }

/-- A flit is discarded, and the expected LSEQ is asked for once (R325). -/
def State.discardFlit (s : State) (p : Nat) : State :=
  let x := s.port p
  if x.awaiting then s
  else s.setPort p { x with awaiting := true, controlOut := x.controlOut ++ [replayRecord x.expected] }

/-- FLIT_RECEIVE: in HANDSHAKE the records of a good CONTROL flit are taken; in UP a bad or out-of-order flit is
discarded with a REPLAY record, a good one in order is accepted: its ACK frees the replay buffer, its bytes or records
go on (R324, R325, R328, R329). -/
def State.flitReceive (s : State) (p : Nat) (f : Flit) : State :=
  let s := (s.count 0x8010 none p f.corrected).count 0x8011 none p f.uncorrectable
  let x := s.port p
  match x.state with
  | .handshake => if f.good && f.kind = .control then s.controlIn p f.payload else s
  | .up =>
    let x := { x with soakBad := x.soakBad || f.uncorrectable != 0 }
    if !f.good then (s.setPort p x).discardFlit p
    else if f.kind = .idle then s.setPort p (x.acked f.ack)
    else if f.lseq ≠ x.expected then (s.setPort p x).discardFlit p
    else
      let x := { x.acked f.ack with expected := (x.expected + 1) % 4096, accepted := some f.lseq, awaiting := false }
      if f.kind = .control then (s.setPort p x).controlIn p f.payload
      else
        let stream := f.tc % 4 * 16 + f.vl % 16
        let x := { x with nextFlit := x.nextFlit + 1, flits := FMap.insert x.flits x.nextFlit (stream, f.payload.length),
                          partials := FMap.insert x.partials stream (FMap.get [] x.partials stream ++ [(x.nextFlit, marked f.payload f.bad)]) }
        State.assemble 32 (s.setPort p x) p stream
  | _ => s

def execFlitReceive (port : Nat) (flit : Flit) (s : State) : Out := .next (s.flitReceive port flit)

/-! ### HANDSHAKE to UP, and NOT_READY -/

/-- A condition that keeps a port in HANDSHAKE is logged once for each partner NODE and LEVEL (R333). -/
def State.handshakeStuck (s : State) (p event node level : Nat) : State :=
  let x := s.port p
  if x.condition = some (event, node, level) then s
  else
    let s := s.setPort p { x with partner := none, condition := some (event, node, level) }
    s.logEvent event none 0x07 p 0 (if event = 0x0404 then s.cpl + 256 * level else 0)

/-- LINK_INFO: a partner of the own node, or of a level more than 1 away, keeps the port in HANDSHAKE; any other
is accepted at the lower level, and brings the port UP once the credits have come too (R333, R355). -/
def State.linkInfo (s : State) (p : Nat) : State :=
  match s.takeControl p 3 with
  | none => s
  | some (c, s) =>
    let node := fld c.body 1 2
    let level := byteAt c.body 4
    let x := s.port p
    if x.state ≠ .handshake then s
    else if node = s.fab.node then s.handshakeStuck p 0x0403 node level
    else if level > s.cpl + 1 || s.cpl > level + 1 then s.handshakeStuck p 0x0404 node level
    else
      let s := s.setPort p { x with partner := some (node, byteAt c.body 3, level), level := min s.cpl level,
                                    shared := fld c.body 5 2, condition := none }
      s.handshakeEnd p

def execLinkInfo (port : Nat) (s : State) : Out := .next (s.linkInfo port)

/-- The reliable packets that a lifted hold lets go are sent again with their SEQ (R357, R439). -/
def State.resendOne (s : State) (k : Nat) (t : TxPkt) : State :=
  let full := s.filled t.pkt t.pieces
  let _ := k
  (s.routeOut { req := 24, hub := t.hub, seat := if t.seat < 64 then some t.seat else none, pkt := full, sent := 0, origin := [] }).1

/-- A port's hold is lifted, and the own reliable packets that met it are sent again (R356, R357). -/
def State.liftHold (s : State) (p : Nat) : State :=
  let x := s.port p
  let s := s.setPort p { x with held := false, refused := [] }
  x.refused.foldl (fun s r =>
    match (s.txStream r.1).unacked.find? (fun t => t.pkt.seq == r.2) with
    | some t => s.resendOne r.1 t
    | none => s) s

/-- NOT_READY: the port holds its routes for TC1 to TC3 for a backoff that doubles from 10 µs to 163.84 ms; the source
of the discarded packet resends it when the hold lifts, or ends its operation with NOT_READY (R356, R357). -/
def State.notReady (s : State) (p : Nat) : State :=
  match s.takeControl p 4 with
  | none => s
  | some (c, s) =>
    let s := s.countTc 0x800F p (byteAt c.body 0) 1
    let x := s.port p
    let s := s.setPort p { x with held := true, backoff := if x.backoff = 0 then 10000 else min 163840000 (2 * x.backoff) }
    let tc := byteAt c.body 0 % 4
    let dst := fld c.body 3 2
    let seq := fld c.body 5 2
    if fld c.body 1 2 ≠ s.fab.node then s
    else
      match List.find? (fun (kx : Nat × TxStream) => keyNode kx.1 == dst && keyTc kx.1 == tc
          && kx.2.unacked.any (fun t => t.pkt.seq % 65536 == seq)) s.ni.tx with
      | some (k, t) =>
        let full := ((t.unacked.find? (fun t => t.pkt.seq % 65536 == seq)).map (fun t => t.pkt.seq)).getD 0
        s.setPort p { s.port p with refused := (s.port p).refused ++ [(k, full)] }
      | none =>
        match List.find? (fun (kr : Nat × Request) => kr.2.dst == dst && kr.2.tc == tc && kr.2.seq % 65536 == seq) s.ni.requests with
        | some (id, _) => s.endRequest id (some .notReady)
        | none => s

def execNotReady (port : Nat) (s : State) : Out := .next (s.notReady port)

/-- READY_RECORD: the hold is lifted at once and the backoff starts again at 10 µs (R356). -/
def execReadyRecord (port : Nat) (s : State) : Out :=
  .next (match s.takeControl port 5 with
    | none => s
    | some (_, s) => (s.setPort port { s.port port with backoff := 0 }).liftHold port)

/-- BACKOFF_END: the backoff time ends and the hold is lifted (R356). -/
def execBackoffEnd (port : Nat) (s : State) : Out :=
  .next (if (s.port port).held then s.liftHold port else s)

/-- QUARANTINE_HOLD_EXPIRY: a quarantined port trains for its soak (R334). -/
def execQuarantineHoldExpiry (port : Nat) (s : State) : Out :=
  .next (let x := s.port port
    if x.state = .quarantined then
      s.setPort port { x.fresh with state := .training, soaking := true, trainingSince := s.time } else s)

/-- SOAK_END: a soak without resend run and uncorrectable codeword clears the flap count and the port carries traffic;
else it returns to quarantine with its hold time doubled, up to 960 s (R334). -/
def execSoakEnd (port : Nat) (passed : Bool) (s : State) : Out :=
  .next (let x := s.port port
    if x.state = .up && x.soaking then
      if passed && !x.soakBad then
        (s.setPort port { x with soaking := false, flaps := [], quarantineHold := 60 }).logEvent 0x0402 none 0x07 port 0 0
      else s.quarantine port (min 960 (2 * x.quarantineHold))
    else s)

/-! ### Gaps, acknowledgements and resends between endpoints -/

/-- GAP_EXPIRY: in a stream without RELIABLE, every missing SEQ before the first packet held counts as applied, and the
packets held are released in order (R376). -/
def State.gapExpiry (s : State) (k : Nat) : State :=
  let x := s.rxStream k
  let first := x.early.foldl (fun (a : Option Nat) i => match a with
    | none => some i.pkt.seq
    | some b => if seqBefore i.pkt.seq b then some i.pkt.seq else a) none
  match first with
  | none => s
  | some q =>
    if x.early.any (fun i => i.pkt.reliable) then s
    else
      let missing := (List.range ((q + 2 ^ 32 - x.next) % 2 ^ 32)).map (fun i => (x.next + i) % 2 ^ 32)
      let s := s.count 0x9004 none (streamHub (keyNode k) (keyVl k)) 1
      let s := s.setRx k { x with next := q, skipped := missing }
      State.releaseEarly (x.early.length + 1) s k

def execGapExpiry (stream : Nat) (s : State) : Out := .next (s.gapExpiry stream)

/-- E2E_ACK: the packets of the stream up to its TAG are acknowledged; an older acknowledgement changes nothing
(R438). -/
def State.e2eAck (s : State) (i : Nat) : State :=
  match s.taken i [0x14] with
  | none => s
  | some x =>
    let p := x.pkt
    let s := s.dropTaken i false
    let k := p.rxKey
    let t := s.txStream k
    let left := t.unacked.filter (fun u => u.pkt.type == 3 || !(u.pkt.seq == p.tag || seqBefore u.pkt.seq p.tag))
    s.setTx k { t with unacked := left, runs := if left.length = t.unacked.length then t.runs else 0 }

def execE2eAck (index : Nat) (s : State) : Out := .next (s.e2eAck index)

/-- E2E_ACK_TIMER: applied reliable packets that are not acknowledged yet are acknowledged (R438). -/
def execE2eAckTimer (stream : Nat) (s : State) : Out :=
  .next (let r := s.rxStream stream
    if 0 < r.reliables || r.duplicate then s.sendE2eAck stream else s)

/-- A stream is given up: what it carried ends, COPY and READ with TIMEOUT, an EXCHANGE or RETURN with it in the end (R441, R457,
R462). -/
def State.giveUp (s : State) (k : Nat) : State :=
  let t := s.txStream k
  let s := s.setTx k { t with unacked := [], runs := 0 }
  t.unacked.foldl (fun s u =>
    match List.find? (fun (kr : Nat × Request) => kr.2.dst == keyNode k && kr.2.tc == keyTc k && kr.2.vl == keyVl k
        && kr.2.epoch == keyEpoch k && kr.2.seq == u.pkt.seq) s.ni.requests with
    | some (id, _) => s.endRequest id (some .timeout)
    | none => s.markLost u.owner .timeout) s

/-- E2E_RESEND: no acknowledgement has moved on: every unacknowledged packet of the stream is sent again from the
oldest, its payload read again; after 16 such runs the stream is given up (R439, R441). -/
def State.e2eResend (s : State) (k : Nat) : State :=
  let t := s.txStream k
  match t.unacked with
  | [] => s
  | u :: _ =>
    if 16 ≤ t.runs then s.giveUp k
    else
      let s := s.count 0x900E (if u.seat < 64 then some u.seat else none) u.hub 1
      let s := s.setTx k { t with runs := t.runs + 1 }
      t.unacked.foldl (fun s u => s.resendOne k u) s

def execE2eResend (stream : Nat) (s : State) : Out := .next (s.e2eResend stream)

/-- The Referee holds the package's node number and route tables, so that it may enable ports (R331). -/
def State.holdsRoutes (s : State) : Bool := s.fab.node != 0xFFFF && !s.fab.routesWritten.isEmpty

/-- REFEREE_PORT_ENABLE: the Referee enables every DISABLED port for which it holds a node number and route tables
(R331, R607). -/
def execRefereePortEnable (s : State) : Out :=
  .next (if s.mod.refereeRuns && !s.mod.failedPackage && (s.mod.state = .init || s.mod.state = .ready) then
      let s := (List.range 24).foldl (fun s p =>
        let x := s.port p
        if x.state = .disabled && s.holdsRoutes then
          s.setPort p { x.fresh with state := .training, trainingSince := s.time } else s) s
      { s with mod := { s.mod with portsEnabled := true }, pins := { s.pins with txIdle := false } }
    else s)

end Sys2Proof.Machine
end

