-- ==== Sys2Proof/Machine/Home.lean ====
section
/-!
DEFINITION. The home of memory lines: packets that arrive for windows, the lines' queues, combined atomics, transaction
groups, and the answers (R364 to R393).
-/

namespace Sys2Proof.Machine

/-! ### The lines' queues (R378 to R381) -/

def sameStream (a b : OpFrom) : Bool :=
  a.owner.isNone && b.owner.isNone && a.src == b.src && a.tc == b.tc && a.vl == b.vl && a.epoch == b.epoch

/-- The streams (or owners) that a line operation carries. -/
def LineOp.froms (o : LineOp) : List OpFrom :=
  match o.work with
  | .adds ms => ms.map (·.from_)
  | _ => [o.from_]

/-- Order of operations that reach a line in one hc: ascending SRC, then SEQ (R379). -/
def opBefore (a b : LineOp) : Bool :=
  a.hc == b.hc && (a.from_.src < b.from_.src || (a.from_.src == b.from_.src && a.from_.seq < b.from_.seq))

/-- An operation joins its line's queue: behind those before it, ahead of those of the same hc that R379 puts after
it, but never ahead of its own stream. -/
def insertOp (ops : List LineOp) (o : LineOp) : List LineOp :=
  let tail := ops.reverse.takeWhile (fun q => (q.line != o.line || opBefore o q) && !(q.froms.any (fun f => sameStream f o.from_)))
  let n := ops.length - tail.length
  match (ops.drop n).findIdx? (fun q => q.line == o.line) with
  | some j => ops.take (n + j) ++ [o] ++ ops.drop (n + j)
  | none => ops ++ [o]

/-- Waiting operations of a hub, and of one line. -/
def State.hubOps (s : State) (hub : Nat) : Nat := (s.ni.lineOps.filter (fun o => homeHub o.line == hub)).length
def State.lineOpsOf (s : State) (line : Nat) : List LineOp := s.ni.lineOps.filter (fun o => o.line == line)

/-- Operations for lines find room at their homes (R380). -/
def State.lineRoom (s : State) (lines : List Nat) : Bool :=
  [0, 1].all (fun h => s.hubOps h + (lines.filter (fun l => homeHub l == h)).length ≤ 4096)
    && lines.all (fun x => (s.lineOpsOf x).length < 1024)

def State.queueOps (s : State) (ops : List LineOp) : State :=
  { s with ni := { s.ni with lineOps := ops.foldl insertOp s.ni.lineOps } }

/-- A packet may be released to the home of its lines: the one before it in its stream had the same home, or every
earlier packet of the stream has been applied (R371). -/
def State.homeFree (s : State) (f : OpFrom) (k hub : Nat) : Bool :=
  (s.rxStream k).lastHome = none || (s.rxStream k).lastHome = some hub
    || !(s.ni.lineOps.any (fun o => o.froms.any (fun g => sameStream g f)))

/-- The earlier operations of a stream have all been applied. -/
def State.streamIdle (s : State) (f : OpFrom) : Bool := !(s.ni.lineOps.any (fun o => o.froms.any (fun g => sameStream g f)))

def State.setHome (s : State) (k hub : Nat) : State := s.setRx k { s.rxStream k with lastHome := some hub }

/-- A refused packet: counted, answered with STATUS, its stream goes on (R364, R373). -/
def State.refuse (s : State) (i : Nat) (p : Packet) (st : Status) (code : Nat) : State :=
  let s := s.dropTaken i true
  let s := s.count code none (streamHub p.src p.vl) 1
  ((s.respondStatus (packetFrom p 0 true) st).ackIfDue p.rxKey)

/-- HBM lines accessed through the cache of their home hub, for the owner of the window. -/
def State.homeAccess (s : State) (seat a n : Nat) (write : Bool) : State :=
  let s := (linesOf a n).foldl (fun s l => s.cacheLine (homeHub l) l write) s
  (s.hbmCount seat a n write).carryHub (homeHub a) a n write

/-- READ: checked, and its bytes returned as they stand after every earlier packet of its stream, once no operation
waits on its lines (R364, R366, R372, R379). -/
def State.readIn (s : State) (i : Nat) : State :=
  match s.taken i [1] with
  | none => s
  | some x =>
    let p := x.pkt
    match s.windowCheck p with
    | .error (st, code) => s.refuse i p st code
    | .ok (w, a) =>
      let f := packetFrom p w.seat true
      let n := ohLen p.payload
      if !s.streamIdle f || (linesOf a n).any (fun l => s.ni.lineOps.any (fun o => o.line == l)) then s
      else
        let s := (s.dropTaken i true).setHome p.rxKey (homeHub a)
        let s := s.homeAccess w.seat a n false
        (s.respond f 2 [] [(a, n)] true).ackIfDue p.rxKey

/-- The bytes of a payload from a place on that are poison, counted from there. -/
def badFrom (bad : List Nat) (o n : Nat) : List Nat := (bad.filter (fun b => o ≤ b && b < o + n)).map (fun b => b - o)

/-- WRITE: checked, and its lines join their queues in ascending order, bytes that came as poison among them (R264, R364,
R378). -/
def State.writeIn (s : State) (i : Nat) : State :=
  match s.taken i [3] with
  | none => s
  | some x =>
    let p := x.pkt
    match s.windowCheck p with
    | .error (st, code) => s.refuse i p st code
    | .ok (w, a) =>
      let n := ohLen p.payload
      let f := packetFrom p w.seat false
      let ls := linesOf a n
      if !s.homeFree f p.rxKey (homeHub a) || !s.lineRoom ls then s
      else
        let op (l : Nat) : LineOp :=
          { line := l, from_ := { f with last := l + 64 == a + n },
            work := .write ((p.payload.drop (16 + (l - a))).take 64) (badFrom p.bad (16 + (l - a)) 64), hc := s.hcNow }
        let ops := ls.map op
        ((s.dropTaken i true).setHome p.rxKey (homeHub a)).queueOps ops

/-- A member takes its place in a combined group: behind those before it, ahead of those of the same hc that R379 puts after
it, but never ahead of its own stream. -/
def insertMember (ms : List AddMember) (m : AddMember) : List AddMember :=
  let tail := ms.reverse.takeWhile (fun q => q.hc == m.hc
    && (m.from_.src < q.from_.src || (m.from_.src == q.from_.src && m.from_.seq < q.from_.seq)) && !sameStream q.from_ m.from_)
  let n := ms.length - tail.length
  ms.take n ++ [m] ++ ms.drop n

/-- The combined group that an ADD for a line may join: the last operation of the line's queue, of fewer than 64 members, with
no operation of the ADD's stream released after it, so that a home applies a stream in the order of release (R372, R381,
log 68). -/
def State.openGroup (s : State) (line : Nat) (m : AddMember) : Option (Nat × LineOp × List AddMember) :=
  match ((List.range s.ni.lineOps.length).zip s.ni.lineOps).reverse.find? (fun io => io.2.line == line) with
  | none => none
  | some (j, o) =>
    match o.work with
    | .adds ms =>
      if ms.length < 64 && !((s.ni.lineOps.drop (j + 1)).any (fun q => q.froms.any (fun f => sameStream f m.from_))) then
        some (j, o, ms)
      else none
    | _ => none

/-- An ADD joins the combined group last in its line's queue, or opens a new one (R381). -/
def State.queueAdd (s : State) (line : Nat) (m : AddMember) : State :=
  match s.openGroup line m with
  | some (j, o, ms) =>
    let joined : LineOp := { o with work := .adds (insertMember ms m) }
    { s with ni := { s.ni with lineOps := s.ni.lineOps.set j joined } }
  | none => s.queueOps [{ line := line, from_ := m.from_, work := .adds [m], hc := m.hc }]

/-- An atomic joins its line's queue (R368, R381). -/
def State.queueAtomic (s : State) (f : OpFrom) (a aop operand compare : Nat) (fetch : Bool) : State :=
  let line := a / 64 * 64
  if aop = 1 || aop = 2 then
    s.queueAdd line { from_ := f, offset := a % 64, operand := operand, width := aopWidth aop, fetch := fetch,
                      hc := s.hcNow }
  else s.queueOps [{ line := line, from_ := f, work := .atomic aop (a % 64) operand compare fetch, hc := s.hcNow }]

/-- ATOMIC: checked, and queued or combined at its line; one whose operands came as poison ends with DATA_POISONED (R113, R264,
R364, R368, R381). -/
def State.atomicIn (s : State) (i : Nat) : State :=
  match s.taken i [5] with
  | none => s
  | some x =>
    let p := x.pkt
    match s.windowCheck p with
    | .error (st, code) => s.refuse i p st code
    | .ok (w, a) =>
      let f := packetFrom p w.seat true
      if !p.bad.isEmpty then ((s.dropTaken i true).respondStatus f .dataPoisoned).ackIfDue p.rxKey
      else if !s.homeFree f p.rxKey (homeHub a) || !s.lineRoom [a / 64 * 64] then s
      else
        let s := (s.dropTaken i true).setHome p.rxKey (homeHub a)
        s.queueAtomic f a (ohAop p.payload) (fld p.payload 16 8) (fld p.payload 24 8) (ohFetch p.payload)

/-- The lines of a whole transaction group join their queues in ascending order, as one (R385). -/
def State.startTxn (s : State) (g : TxnGroup) : State :=
  let id := s.ni.nextTxn
  let lines := (g.have_.map (·.line)).foldl (fun (l : List Nat) x => l.filter (· < x) ++ [x] ++ l.filter (x < ·)) []
  let ops := lines.map (fun l => ({ line := l, from_ := g.from_, work := .txn id, hc := s.hcNow } : LineOp))
  let s := { s with ni := { s.ni with txns := FMap.insert s.ni.txns id g, nextTxn := id + 1 } }
  s.queueOps ops

/-- TXN_PART: checked and held until the last part has come; then a group all of whose parts came and passed joins the
queues of its lines, any other writes nothing and its first refusal is answered once (R385, R387). -/
def State.txnPartIn (s : State) (i : Nat) : State :=
  match s.taken i [7] with
  | none => s
  | some x =>
    let p := x.pkt
    let k := p.rxKey
    let part := ohPart p.payload
    let parts := ohParts p.payload
    let held := FMap.get [] s.ni.txnParts k
    -- parts of an earlier group whose end was lost are dropped
    let held := held.filter (fun h => (p.seq + 2 ^ 32 - h.seq) % 2 ^ 32 == part - h.part && h.part < part)
    let one : TxnPart × Nat × Nat := match s.windowCheck p with
      | .error (st, code) => ({ part := part, line := 0, data := [], bad := [], seq := p.seq, status := some st }, code, 0)
      | .ok (w, a) => ({ part := part, line := a, data := (p.payload.drop 16).take 64,
                         bad := (badFrom p.bad 16 64).map (fun b => (b, 3)), seq := p.seq, status := none }, 0, w.seat)
    let all := held ++ [one.1]
    let f := packetFrom p one.2.2 true
    if part < parts then
      let s := s.dropTaken i true
      let s := if one.2.1 ≠ 0 then s.count one.2.1 none (streamHub p.src p.vl) 1 else s
      { s with ni := { s.ni with txnParts := FMap.put [] s.ni.txnParts k all } }
    else
      let refusal := all.findSome? (fun t => t.status)
      if refusal.isNone && all.length = parts + 1 && !s.lineRoom (all.map (·.line)) then s
      else
        let s := s.dropTaken i true
        let s := if one.2.1 ≠ 0 then s.count one.2.1 none (streamHub p.src p.vl) 1 else s
        let s := { s with ni := { s.ni with txnParts := FMap.put [] s.ni.txnParts k [] } }
        match refusal with
        | some st => s.respondStatus f st
        | none => if all.length = parts + 1 then s.startTxn { from_ := f, parts := parts, have_ := all } else s

def execRead (index : Nat) (s : State) : Out := .next (s.readIn index)
def execWrite (index : Nat) (s : State) : Out := .next (s.writeIn index)
def execAtomic (index : Nat) (s : State) : Out := .next (s.atomicIn index)
def execTxnPart (index : Nat) (s : State) : Out := .next (s.txnPartIn index)

/-! ### Applying a line operation (R368, R378 to R385) -/

/-- A two's complement reading of n bytes. -/
def signed (n x : Nat) : Int := if x < 2 ^ (8 * n - 1) then Int.ofNat x else Int.ofNat x - Int.ofNat (2 ^ (8 * n))

/-- The new value of an atomic (R368). -/
def aopNew (aop old operand compare : Nat) : Nat :=
  let w := aopWidth aop
  let m := 2 ^ (8 * w)
  let f (op : Val → Val → Val) : Nat := (convert 1 .rne false (op (decodeElem 1 old) (decodeElem 1 operand))).1
  match aop with
  | 1 => (old + operand) % m
  | 2 => (old + operand) % m
  | 3 => (convert 1 .rne false ((decodeElem 1 old).add (decodeElem 1 operand)).1).1
  | 4 => if signed 4 operand < signed 4 old then operand else old
  | 5 => if signed 4 old < signed 4 operand then operand else old
  | 6 => min old operand
  | 7 => max old operand
  | 8 => if signed 8 operand < signed 8 old then operand else old
  | 9 => if signed 8 old < signed 8 operand then operand else old
  | 10 => min old operand
  | 11 => max old operand
  | 12 => f Val.min
  | 13 => f Val.max
  | 14 => if old = compare then operand else old
  | _ => old

/-- The answer to an atomic: to its packet, or to the local action (R366, R370). -/
def State.answerAtomic (s : State) (f : OpFrom) (fetch : Bool) (old : Nat) (st : Option Status) : State :=
  match f.owner, st with
  | some o, st =>
    let s := match o with
      | .action a => { s with ni := { s.ni with actions := FMap.upd s.ni.actions a (fun x => { x with old := if fetch then old else 0 }) } }
      | _ => s
    s.ownerDone o st 0
  | none, some x => s.respondStatus f x
  | none, none => s.respond f 6 (natLe 8 (if fetch then old else 0) ++ List.replicate 8 0) [] true

/-- A WRITE's last line has been applied: it counts toward a WRITE_ACK, sent at least every 16 (R373). -/
def State.writeApplied (s : State) (f : OpFrom) : State :=
  match f.owner with
  | some o => if f.last then s.ownerDone o none 0 else s
  | none =>
    if !f.last then s
    else
      let k := streamKey f.src f.tc f.vl f.epoch
      let r := s.rxStream k
      let r := { r with writes := r.writes + 1, lastWrite := f.seq }
      if r.writes < 16 then s.setRx k r
      else
        let s := s.setRx k { r with writes := 0 }
        s.respond f 4 (natLe 4 r.writes ++ List.replicate 12 0) [] true

/-- An operation is next for its line and its stream: no earlier one on the line, and none earlier of a stream it
carries (R372, R379). -/
def State.opNext (s : State) (i : Nat) (o : LineOp) : Bool :=
  !((s.ni.lineOps.take i).any (fun q => q.line == o.line || q.froms.any (fun f => o.froms.any (fun g =>
    sameStream f g && !(f.seq == g.seq && f.src == g.src && decide (q.work = o.work))))))

/-- The members of a combined group applied in order: the line after them and the old value of each. -/
def applyAdds (line : Bytes) (ms : List AddMember) : Bytes × List Nat :=
  ms.foldl (fun (a : Bytes × List Nat) m =>
    let old := fld a.1 m.offset m.width
    (splice a.1 m.offset (natLe m.width ((old + m.operand) % 2 ^ (8 * m.width))), a.2 ++ [old])) (line, [])

/-- A transaction group is next on all its lines (R385). -/
def State.txnFirst (s : State) (id : Nat) (g : TxnGroup) : Bool :=
  g.have_.all (fun t =>
    match (s.ni.lineOps.find? (fun q => q.line == t.line)) with
    | some q => decide (q.work = .txn id)
    | none => false)

/-- The line operation at a place can be applied now. -/
def State.canApply (s : State) (i : Nat) (o : LineOp) : Bool :=
  s.opNext i o && (match o.work with
    | .txn id => (match FMap.find? s.ni.txns id with | some g => s.txnFirst id g | none => true)
    | _ => true)

/-- LINE_APPLY: the home applies a line operation that is next: a line of a WRITE, an atomic, a combined group, or, when
it is next on all its lines, a whole transaction group (R378 to R385). -/
def State.lineApply (s : State) (i : Nat) : State :=
  match s.ni.lineOps[i]? with
  | none => s
  | some o =>
    if !s.opNext i o then s
    else
      let gone (s : State) : State := { s with ni := { s.ni with lineOps := s.ni.lineOps.eraseIdx i } }
      match o.work with
      | .write data bad =>
        let s := (gone s).homeAccess o.from_.seat o.line 64 true
        (s.land o.line data bad).writeApplied o.from_
      | .adds ms =>
        let s := (gone s).homeAccess o.from_.seat o.line 64 true
        let s := if 1 < ms.length then s.count 0x5004 none (homeHub o.line) 1 else s
        (match s.rangePoison o.line 64 with
          | some _ => ms.foldl (fun s m => s.answerAtomic m.from_ m.fetch 0 (some .dataPoisoned)) s
          | none =>
            let r := applyAdds (s.bytes o.line 64) ms
            let s := s.store o.line r.1
            (ms.zip r.2).foldl (fun s mo => s.answerAtomic mo.1.from_ mo.1.fetch mo.2 none) s)
      | .atomic aop off operand compare fetch =>
        let s := (gone s).homeAccess o.from_.seat o.line 64 true
        (match s.rangePoison o.line 64 with
          | some _ => s.answerAtomic o.from_ fetch 0 (some .dataPoisoned)
          | none =>
            let w := aopWidth aop
            let old := leNat (s.bytes (o.line + off) w)
            let s := s.store (o.line + off) (natLe w (aopNew aop old (operand % 2 ^ (8 * w)) compare))
            s.answerAtomic o.from_ (fetch || aop == 14) old none)
      | .txn id =>
        match FMap.find? s.ni.txns id with
        | none => gone s
        | some g =>
          if !s.txnFirst id g then s
          else
            let others := s.ni.lineOps.filter (fun (q : LineOp) => !decide (q.work = LineWork.txn id))
            let s := { s with ni := { s.ni with txns := FMap.erase s.ni.txns id, lineOps := others } }
            let s := g.have_.foldl (fun s t => t.bad.foldl (fun s b => s.poisonRange (t.line + b.1) 1 b.2)
              ((s.homeAccess g.from_.seat t.line 64 true).store t.line t.data)) s
            (match g.from_.owner with
              | some o => s.ownerDone o none 0
              | none => s.respond g.from_ 8 ([BitVec.ofNat 8 g.parts] ++ List.replicate 15 0) [] true)

def execLineApply (index : Nat) (s : State) : Out := .next (s.lineApply index)

/-- WRITE_ACK_TIMER: applied WRITEs that no WRITE_ACK covers yet are acknowledged (R373). -/
def execWriteAckTimer (stream : Nat) (s : State) : Out :=
  .next (let r := s.rxStream stream
    if 0 < r.writes then
      let f : OpFrom := { src := keyNode stream, tc := keyTc stream, vl := keyVl stream, epoch := keyEpoch stream,
                          seq := r.lastWrite, seat := ((List.find? (fun (ks : Nat × Seat) => ks.2.epoch.toNat == keyEpoch stream) s.seats).map (·.1)).getD 0,
                          hub := streamHub (keyNode stream) (keyVl stream), reliable := keyTc stream == 3,
                          adaptive := keyTc stream == 3, last := true, owner := none }
      (s.setRx stream { r with writes := 0 }).respond f 4 (natLe 4 r.writes ++ List.replicate 12 0) [] true
    else s)

/-! ### An epoch changes (R375, R395) -/

/-- Released operations to the seat's windows are applied before a change of its epoch completes, with those that they wait
for. -/
def State.applyReleased : Nat → State → Nat → State
  | 0, s, _ => s
  | fuel + 1, s, seat =>
    if !s.ni.lineOps.any (fun o => o.froms.any (fun f => f.seat == seat && f.owner.isNone)) then s
    else
      match (List.range s.ni.lineOps.length).find? (fun i => match s.ni.lineOps[i]? with
        | some o => s.canApply i o
        | none => false) with
      | none => s
      | some i => State.applyReleased fuel (s.lineApply i) seat

/-- Streams of epochs that no seat holds are forgotten; what they held is released to be refused (R375, R395). -/
def State.forgetStreams (s : State) : State :=
  let old := s.ni.rx.filter (fun kx => !s.epochCurrent (keyEpoch kx.1))
  let s := old.foldl (fun s kx => kx.2.early.foldl (fun s i => s.release i) s) s
  { s with ni := { s.ni with rx := s.ni.rx.filter (fun kx => s.epochCurrent (keyEpoch kx.1)),
                             tx := s.ni.tx.filter (fun kx => s.epochCurrent (keyEpoch kx.1) || !kx.2.unacked.isEmpty) } }

/-- A seat takes a new epoch (R395). -/
def State.setEpoch (s : State) (seat epoch : Nat) : State :=
  let s := State.applyReleased (2 * s.ni.lineOps.length + 1) s seat
  (s.onSeat seat (fun x => { x with epoch := BitVec.ofNat 32 epoch })).forgetStreams

end Sys2Proof.Machine
end

