-- ==== Sys2Proof/Machine/Actions.lean ====
section
/-!
DEFINITION. Triggered operations: NITRIG and its checks (R164, R165, R370, R386, R398 to R405, R443, R444), firing, the
SIGNAL and memory actions, and the end of an action; and COPY, inside the package and to other nodes (R152 to R155,
R369).
-/

namespace Sys2Proof.Machine

/-! ### Arguments -/

/-- Memory actions (R370). -/
def maTarget (b : Bytes) : Nat := fld b 0 8
def maLocal (b : Bytes) : Nat := fld b 8 8
def maKey (b : Bytes) : Nat := fld b 16 4
def maVl (b : Bytes) : Nat := byteAt b 20 % 16
def maAdaptive (b : Bytes) : Bool := bit (byteAt b 20) 4
def maFetch (b : Bytes) : Bool := bit (byteAt b 20) 5
def maAop (b : Bytes) : Nat := byteAt b 21 % 16
def maResult (b : Bytes) : Nat := fld b 24 8

/-- Collective actions (R405). -/
def caSrc (b : Bytes) : Nat := fld b 0 8
def caDst (b : Bytes) : Nat := fld b 8 8
def caGroup (b : Bytes) : Nat := fld b 16 2
def caArg (b : Bytes) : Nat := fld b 18 2
def caSeq (b : Bytes) : Nat := fld b 20 4
def caHorizon (b : Bytes) : Nat := fld b 24 4
def caFmt (b : Bytes) : Nat := byteAt b 28

/-- EXCHANGE and RETURN (R443, R444). -/
def exOut (b : Bytes) : Nat := fld b 0 8
def exSpace (b : Bytes) : Nat := fld b 8 2
def exGroup (b : Bytes) : Nat := fld b 10 2
def exRowBytes (b : Bytes) : Nat := fld b 12 2
def exHorizon (b : Bytes) : Nat := fld b 16 4
def exRxCtr (b : Bytes) : Nat := fld b 20 4
def exRecord (b : Bytes) : Nat := fld b 24 8
def reCombine (b : Bytes) : Nat := fld b 8 8
def reHorizon (b : Bytes) : Nat := fld b 16 4
def reSpace (b : Bytes) : Nat := fld b 20 2
def reGroup (b : Bytes) : Nat := fld b 22 2
def rePart (b : Bytes) : Nat := byteAt b 24
def reParts (b : Bytes) : Nat := byteAt b 25

/-- Fields of a group record (R407). -/
def grRank (r : Bytes) : Nat := fld r 2 2
def grMembers (r : Bytes) : Nat := fld r 4 2
def grFanout (r : Bytes) : Nat := byteAt r 6
def grVl (r : Bytes) : Nat := byteAt r 7 % 16
def grSlack (r : Bytes) : Nat := fld r 8 4
def grStall (r : Bytes) : Nat := fld r 12 4
def grNodes (r : Bytes) : Nat := fld r 16 8
def grRxBase (r : Bytes) : Nat := fld r 24 8
def grRxLen (r : Bytes) : Nat := fld r 32 8
def grRecords (r : Bytes) : Nat := fld r 40 8

/-- A group that a seat has defined. -/
def State.groupOf (s : State) (seat g : Nat) : Option Group :=
  match FMap.find? s.ni.groups g with
  | some x => if x.seat = seat then some x else none
  | none => none

/-! ### The checks of a NITRIG (R370, R403 to R405, R443, R444) -/

/-- A place in the package that the seat reaches, n bytes of it. -/
def State.reach (s : State) (x : Seat) (a n : Nat) : Bool := (s.descAddr x a n).isSome

/-- The places of the package that an action's arguments name, with the bytes that must be reached there. -/
def memoryPlaces (action len : Nat) (b : Bytes) : List (Nat × Nat) :=
  (maLocal b, if action = 0x12 then 16 else if action = 0x13 then 128 + len else max 1 len)
    :: (if maResult b = 0 then [] else [(maResult b, 16)])

def collPlaces (action len blocks : Nat) (b : Bytes) : List (Nat × Nat) :=
  (if action = 0x24 || action = 0x23 then [] else [(caSrc b, max 1 len)])
    ++ (if action = 0x24 then [] else
      [(caDst b, if action = 0x23 then 32 * blocks else if action = 0x21 then max 1 (len * blocks) else max 1 len)])

def exchangePlaces (b : Bytes) : List (Nat × Nat) := [(exOut b, 64), (exRecord b, 64)]
def returnPlaces (b : Bytes) : List (Nat × Nat) := [(exOut b, 64), (reCombine b, 320)]

def State.reachAll (s : State) (x : Seat) (ps : List (Nat × Nat)) : Bool := ps.all (fun p => s.reach x p.1 p.2)

def checkMemory (s : State) (x : Seat) (action tc len : Nat) (b : Bytes) : Option Status :=
  let own := s.ownNode (maTarget b / 2 ^ 48)
  let at_ := action == 0x12
  firstFail [
    ((tc == 2 || tc == 3) && (tc == 2 || action == 0x10 || action == 0x11), .descInvalid),
    (byteAt b 20 < 64 && byteAt b 21 < 16 && zeros b 22 24, .descInvalid),
    (at_ || (!maFetch b && maAop b == 0), .descInvalid),
    (!at_ || (maAop b != 0 && maAop b != 15), .descInvalid),
    (!own || maKey b == 0, .descInvalid),
    (action != 0x13 || (len % 64 == 0 && 64 ≤ len && len ≤ 512), .descInvalid),
    (maLocal b % 16 == 0 && maResult b % 16 == 0, .descInvalid),
    (s.reachAll x (memoryPlaces action len b), .addrInvalid)]

/-- The range of a collective action's arguments that depends on its group (R405). -/
def collArgsOk (g : Group) (action : Nat) (b : Bytes) : Bool :=
  let m := grMembers g.record
  match action with
  | 0x20 => caArg b < m
  | 0x22 =>
    let d := caArg b
    d != 0 && (if d < 32768 then d < m else 65536 - d < m)
  | _ => caArg b == 0

/-- The blocks of a collective action: its group's members. -/
def State.collBlocks (s : State) (seat : Nat) (b : Bytes) : Nat :=
  match s.groupOf seat (caGroup b % 1024) with
  | some g => grMembers g.record
  | none => 1

def checkColl (s : State) (seat : Nat) (x : Seat) (action tc len : Nat) (b : Bytes) : Option Status :=
  let bare := action == 0x24
  let per := action == 0x23
  firstFail [
    (if bare then tc == 0 || tc == 1 else tc == 1 || tc == 3, .descInvalid),
    (caGroup b < 1024 && zeros b 29 32 && 10 ≤ caHorizon b && caHorizon b ≤ 10000000, .descInvalid),
    (!(bare || per) || (len == 0 && caSrc b == 0), .descInvalid),
    (!bare || caDst b == 0, .descInvalid),
    (len % 16 == 0 && caSrc b % 16 == 0 && caDst b % 16 == 0, .descInvalid),
    ((s.groupOf seat (caGroup b)).isSome, .descInvalid),
    (match s.groupOf seat (caGroup b) with | some g => collArgsOk g action b | none => false, .descInvalid),
    (s.reachAll x (collPlaces action len (s.collBlocks seat b) b), .addrInvalid)]

def checkExchange (s : State) (x : Seat) (tc len : Nat) (b : Bytes) : Option Status :=
  let rec_ := FMap.find? x.spaces (exSpace b)
  firstFail [
    (tc == 1 && len == 0 && zeros b 14 16, .descInvalid),
    (exGroup b == 0xFFFF || exGroup b < 1024, .descInvalid),
    (exRowBytes b % 16 == 0 && 16 ≤ exRowBytes b
      && (match rec_ with | some r => decide (exRowBytes b ≤ fld r.record 40 2) | none => true), .descInvalid),
    (10 ≤ exHorizon b && exHorizon b ≤ 10000000, .descInvalid),
    (exRxCtr b == 0xFFFFFFFF || (exRxCtr b < 65536 && niHeld x (exRxCtr b)), .descInvalid),
    (exOut b % 16 == 0 && exRecord b % 64 == 0, .descInvalid),
    (s.reachAll x (exchangePlaces b), .addrInvalid)]

def checkReturn (s : State) (x : Seat) (tc len : Nat) (b : Bytes) : Option Status :=
  firstFail [
    (tc == 1 && len == 0 && zeros b 26 32, .descInvalid),
    (reGroup b == 0xFFFF || reGroup b < 1024, .descInvalid),
    (10 ≤ reHorizon b && reHorizon b ≤ 10000000, .descInvalid),
    (1 ≤ reParts b && reParts b ≤ 15, .descInvalid),
    (exOut b % 16 == 0 && reCombine b % 16 == 0, .descInvalid),
    (s.reachAll x (returnPlaces b), .addrInvalid)]

/-- A SIGNAL action's counter (R404). -/
def signalTarget (x : Seat) (b : Bytes) : Option Target :=
  if bits (fld b 0 4) 31 28 = 0 then none else crefTarget x 0 (fld b 0 4)

/-- The checks of a NITRIG's action at its installation. -/
def checkAction (s : State) (seat : Nat) (x : Seat) (action tc len : Nat) (b : Bytes) : Option Status :=
  if action = 0x01 then
    (if (signalTarget x b).isSome && zeros b 8 32 then none else some .descInvalid)
  else if action = 0x28 then checkExchange s x tc len b
  else if action = 0x29 then checkReturn s x tc len b
  else if 0x20 ≤ action then checkColl s seat x action tc len b
  else checkMemory s x action tc len b

/-- The offending address of an action that ends with ADDR_INVALID (R166): the first place that the seat does not reach. -/
def State.offending (s : State) (seat : Nat) (x : Seat) (action len : Nat) (b : Bytes) : Nat :=
  let ps := if action = 0x28 then exchangePlaces b else if action = 0x29 then returnPlaces b
    else if 0x20 ≤ action then collPlaces action len (s.collBlocks seat b) b else memoryPlaces action len b
  match ps.find? (fun p => !s.reach x p.1 p.2) with
  | some p => p.1
  | none => 0

/-! ### Installing and firing (R165, R400, R401) -/

/-- The number of a trigger entry of a seat on a hub. -/
def trigKey (seat hub slot : Nat) : Nat := (seat * 2 + hub) * 2048 + slot

/-- NITRIG: the entry on the hub of CTR becomes ARMED, or the descriptor ends with DESC_INVALID, ADDR_INVALID or, while
the entry is not FREE, TRIGGER_BUSY (R165, R400). -/
def State.nitrig (s : State) (t c : Nat) : State :=
  match s.inExec t c 10 with
  | none => s
  | some (v, e) =>
    let d := e.desc
    let b := d.drop 32
    match checkAction s v.seatNo v.seat (ntAction d) (ntClass d) (ntLen d) b with
    | some st =>
      s.faultCtx t c st (if st = .addrInvalid then s.offending v.seatNo v.seat (ntAction d) (ntLen d) b else 0)
    | none =>
      let k := trigKey v.seatNo (niHub (ntCtr d)) (ntSlot d)
      if (FMap.find? s.ni.triggers k).isSome then s.faultCtx t c .triggerBusy 0
      else
        let tr : Trigger := { running := false, action := ntAction d, tclass := ntClass d, ctr := ntCtr d,
                              thresh := ntThresh d, next := if ntNext d = 0xFFFFFFFF then none else some (ntNext d),
                              len := ntLen d, args := b }
        let s := { s with ni := { s.ni with triggers := FMap.insert s.ni.triggers k tr } }
        s.markDone t c

def execNitrig (tile ctx : Nat) (s : State) : Out := .next (s.nitrig tile ctx)

/-- The actions of a hub that fired in this hc and have not begun, by ascending slot and then seat (R401). -/
def State.firedNow (s : State) (hub : Nat) : List Nat :=
  let mine := s.ni.actions.filter (fun ka => ka.2.hub == hub && ka.2.fired == s.hcNow && !ka.2.begun && ka.2.status.isNone)
  let rank (a : Action) : Nat := a.slot * 64 + a.seat
  (mine.foldl (fun (l : List (Nat × Action)) ka =>
    l.filter (fun x => rank x.2 ≤ rank ka.2) ++ [ka] ++ l.filter (fun x => rank ka.2 < rank x.2)) []).map (·.1)

/-- The actions that fired in this hc share the free engines in their order, and the others wait in it (R401). -/
def State.giveEngines (s : State) (hub : Nat) : State :=
  let ids := s.firedNow hub
  let held := (s.ni.actions.filter (fun ka => ka.2.hub == hub && ka.2.engine && !ids.contains ka.1)).length
  let n := 256 - held
  { s with ni := { s.ni with
      actions := s.ni.actions.map (fun ka => if ids.contains ka.1 then (ka.1, { ka.2 with engine := (ids.take n).contains ka.1 }) else ka)
      waiting := s.ni.waiting.filter (fun id => !ids.contains id) ++ ids.drop n } }

/-- TRIGGER_FIRE: an ARMED entry whose counter has reached its threshold becomes RUNNING; its action gets an engine, or
waits in firing order while all 256 are busy (R401). -/
def State.fire (s : State) (seat hub slot : Nat) : State :=
  let k := trigKey seat hub slot
  match FMap.find? s.ni.triggers k with
  | none => s
  | some tr =>
    if tr.running || (s.readCtr seat (.ni tr.ctr)).toNat < tr.thresh then s
    else
      let id := s.ni.nextAction
      let a : Action := { seat := seat, hub := hub, slot := slot, trig := tr, fired := s.hcNow, engine := false, begun := false,
                          outstanding := 0, first := none, status := none, old := 0, perm := none }
      { s with ni := { s.ni with
          triggers := FMap.insert s.ni.triggers k { tr with running := true }
          actions := FMap.insert s.ni.actions id a
          nextAction := id + 1 } }.giveEngines hub

def execTriggerFire (seat hub slot : Nat) (s : State) : Out := .next (s.fire seat hub slot)

/-- The action of a number changed. -/
def State.setAction (s : State) (id : Nat) (f : Action → Action) : State :=
  { s with ni := { s.ni with actions := FMap.upd s.ni.actions id f } }

/-- The action ends with a status; its ACTION_END follows. -/
def State.actionOver (s : State) (id : Nat) (st : Status) : State :=
  s.setAction id (fun a => { a with begun := true, status := some st })

/-- A descriptor address names one of a seat's stores. -/
def State.inStores (s : State) (a : Nat) : Bool := s.ownNode (a / 2 ^ 48) && clusterBase ≤ a % 2 ^ 48

/-- An action names a store or counter of its seat that pre-emption holds (R516). -/
def State.actionHeld (s : State) (a : Action) : Bool :=
  let b := a.trig.args
  let held : Bool := match s.seat? a.seat with
    | some q => !(decide (q.preempt.phase = .none))
    | none => false
  held && (match a.trig.action with
    | 0x01 => bits (fld b 0 4) 31 28 != 3
    | 0x28 => true
    | 0x29 => true
    | 0x24 => false
    | n => if n < 0x20 then s.inStores (maTarget b) || s.inStores (maLocal b) || s.inStores (maResult b)
      else s.inStores (caSrc b) || s.inStores (caDst b))

/-- A fired action of a code that may begin now: it has an engine and pre-emption does not hold it. -/
def State.beginning (s : State) (id code : Nat) : Option (Action × Seat) :=
  match FMap.find? s.ni.actions id with
  | none => none
  | some a =>
    if a.trig.action = code && a.engine && !a.begun && a.status.isNone && !s.actionHeld a then
      (s.seat? a.seat).map (fun q => (a, q))
    else none

/-! ### SIGNAL (R404) -/

/-- A tile or cluster counter's unit is backed. -/
def State.targetBacked (s : State) (x : Seat) : Target → Bool
  | .tile t _ => match x.tile? t with | some lt => (s.tilePhys lt).isSome | none => false
  | .cluster c _ => match x.cluster? c with | some lc => (s.clusterPhys lc).isSome | none => false
  | .ni _ => true

/-- ACTION_SIGNAL: VALUE is added to the counter, once its unit is backed (R404). -/
def State.signalAction (s : State) (id : Nat) : State :=
  match s.beginning id 0x01 with
  | none => s
  | some (a, x) =>
    match signalTarget x a.trig.args with
    | none => s.actionOver id .descInvalid
    | some g =>
      if !s.targetBacked x g then s
      else
        let sig : Signal := { seat := a.seat, target := g, isSet := false, value := BitVec.ofNat 32 (fld a.trig.args 4 4),
                              tile := 1024, ctx := 0, parks := false }
        (s.applySignal sig).actionOver id .success

def execActionSignal (action : Nat) (s : State) : Out := .next (s.signalAction action)

/-! ### Memory actions (R370, R386) -/

/-- Waiting operations on the lines of an HBM range. -/
def State.linesBusy (s : State) (a n : Nat) : Bool := a < hbmEnd && s.ni.lineOps.any (fun o => o.line < a + n && a < o.line + 64)

/-- The lines of a local access pass through the caches, HBM bytes are counted; a store is reached over its die's links and its
cluster's port (R18, R107, R111). -/
def State.localAccess (s : State) (seat hub a n : Nat) (write : Bool) : State :=
  if a < hbmEnd then s.homeAccess seat a n write else s.carryHub hub a n write

/-- Bytes moved between two places of the package by the NI of a hub. -/
def State.niMove (s : State) (seat hub src dst n : Nat) : State :=
  let s := (s.localAccess seat hub src n false).localAccess seat hub dst n true
  s.move src dst n

/-- A local action's operations at a home. -/
def localFrom (s : State) (a : Action) (id : Nat) : OpFrom :=
  { src := s.fab.node, tc := 2, vl := 0, epoch := 0, seq := id, seat := a.seat, hub := a.hub, reliable := false,
    adaptive := false, last := true, owner := some (.action id) }

/-- The action is at work, with one or more things outstanding. -/
def State.actionBusy (s : State) (id n : Nat) : State :=
  s.setAction id (fun a => { a with begun := true, outstanding := a.outstanding + n })

/-- ACTION_READ: LEN bytes of TARGET to LOCAL: at the line's home in the own package, else by READ packets (R370). -/
def State.readAction (s : State) (id : Nat) : State :=
  match s.beginning id 0x10 with
  | none => s
  | some (a, x) =>
    let b := a.trig.args
    let n := a.trig.len
    match s.descAddr x (maLocal b) n with
    | none => s.actionOver id .addrInvalid
    | some l =>
      if s.ownNode (maTarget b / 2 ^ 48) then
        match s.resolve x (maTarget b % 2 ^ 48) n with
        | none => s.actionOver id .addrInvalid
        | some t => if s.linesBusy t n then s else (s.niMove a.seat a.hub t l n).actionOver id .success
      else if maTarget b % 64 ≠ 0 || n % 64 ≠ 0 || n = 0 then s.actionOver id .addrInvalid
      else
        let s := s.actionBusy id (cutRange (n + 1) 4096 (maTarget b % 2 ^ 48) 0 n).length
        s.openReads a.hub a.seat (maTarget b / 2 ^ 48) a.trig.tclass (maVl b) (maKey b) (maTarget b % 2 ^ 48) l n
          (maAdaptive b) (.action id)

/-- ACTION_WRITE: LEN bytes of LOCAL to TARGET (R370). -/
def State.writeAction (s : State) (id : Nat) : State :=
  match s.beginning id 0x11 with
  | none => s
  | some (a, x) =>
    let b := a.trig.args
    let n := a.trig.len
    match s.descAddr x (maLocal b) n with
    | none => s.actionOver id .addrInvalid
    | some l =>
      if s.ownNode (maTarget b / 2 ^ 48) then
        match s.resolve x (maTarget b % 2 ^ 48) n with
        | none => s.actionOver id .addrInvalid
        | some t => if s.linesBusy t n then s else (s.niMove a.seat a.hub l t n).actionOver id .success
      else if maTarget b % 64 ≠ 0 || n % 64 ≠ 0 || n = 0 then s.actionOver id .addrInvalid
      else
        let s := s.actionBusy id (cutRange (n + 1) 4032 (maTarget b % 2 ^ 48) 0 n).length
        s.openWrites a.hub a.seat (maTarget b / 2 ^ 48) a.trig.tclass (maVl b) (maKey b) (maTarget b % 2 ^ 48) l n
          (maAdaptive b) (.action id)

/-- ACTION_ATOMIC: the operation with the OPERAND and COMPARE at LOCAL on TARGET (R368, R370). -/
def State.atomicAction (s : State) (id : Nat) : State :=
  match s.beginning id 0x12 with
  | none => s
  | some (a, x) =>
    let b := a.trig.args
    let aop := maAop b
    let w := aopWidth aop
    match s.descAddr x (maLocal b) 16 with
    | none => s.actionOver id .addrInvalid
    | some l =>
      let operand := leNat (s.bytes l 8)
      let compare := leNat (s.bytes (l + 8) 8)
      if maTarget b % w ≠ 0 then s.actionOver id .addrInvalid
      else if (s.rangePoison l 16).isSome then s.actionOver id (poisonStatus ((s.rangePoison l 16).getD 0))
      else
      let s := if aop = 3 || aop = 14 || maFetch b then
          s.onSeat a.seat (fun q => { q with facts := { q.facts with fpAtomic := true } }) else s
      if s.ownNode (maTarget b / 2 ^ 48) then
        match s.resolve x (maTarget b % 2 ^ 48) w with
        | none => s.actionOver id .addrInvalid
        | some t =>
          if t < hbmEnd && !s.lineRoom [t / 64 * 64] then s
          else
          let s := s.actionBusy id 1
          if t < hbmEnd then s.queueAtomic (localFrom s a id) t aop operand compare (maFetch b)
          else
            match s.rangePoison t w with
            | some _ => s.actionPart id (some .dataPoisoned)
            | none =>
              let old := leNat (s.bytes t w)
              let s := s.store t (natLe w (aopNew aop old (operand % 2 ^ (8 * w)) compare))
              s.answerAtomic (localFrom s a id) (maFetch b || aop == 14) old none
      else
        let s := s.actionBusy id 1
        let p := mkPacket (maTarget b / 2 ^ 48) 5 2 (maVl b) (maKey b) (s.epochOf a.seat)
          (opHeader (maTarget b % 2 ^ 48) 0 aop (maFetch b) 0 0 ++ natLe 8 (operand % 2 ^ (8 * w))
            ++ natLe 8 (if aop = 14 then compare else 0))
        s.openRequest a.hub a.seat { p with adaptive := maAdaptive b } [] .atomic (.action id)

/-- ACTION_TXN: the parts of the transaction record at LOCAL, as one group (R384 to R386). -/
def State.txnAction (s : State) (id : Nat) : State :=
  match s.beginning id 0x13 with
  | none => s
  | some (a, x) =>
    let b := a.trig.args
    match s.descAddr x (maLocal b) (128 + a.trig.len) with
    | none => s.actionOver id .addrInvalid
    | some l =>
      let r := s.bytes l 128
      let parts := byteAt r 0 % 8
      let offs := (List.range (parts + 1)).map (fun i => fld r (8 + 8 * i) 8)
      if (s.rangePoison l 128).isSome then s.actionOver id (poisonStatus ((s.rangePoison l 128).getD 0))
      else if 8 ≤ byteAt r 0 || !zeros r 1 8 || !zeros r (8 + 8 * (parts + 1)) 72 || a.trig.len ≠ 64 * (parts + 1) || !decide offs.Nodup then
        s.actionOver id .descInvalid
      else if offs.any (fun o => o % 64 != 0) then s.actionOver id .addrInvalid
      else if s.ownNode (maTarget b / 2 ^ 48) then
        let places := offs.filterMap (fun o => s.resolve x o 64)
        if places.length ≠ parts + 1 || places.any (fun p => hbmEnd ≤ p) then s.actionOver id .addrInvalid
        else
          let have_ := ((List.range (parts + 1)).zip places).map (fun ip =>
            let o := l + 128 + 64 * ip.1
            ({ part := ip.1, line := ip.2, data := s.bytes o 64,
               bad := (List.range 64).filterMap (fun j => (s.wordPoison (wordBase (o + j))).map (fun c => (j, c))),
               seq := ip.1, status := none } : TxnPart))
          if !s.lineRoom places then s
          else
          let s := s.actionBusy id 1
          s.startTxn { from_ := localFrom s a id, parts := parts, have_ := have_ }
      else
        let s := s.actionBusy id 1
        let dst := maTarget b / 2 ^ 48
        ((List.range (parts + 1)).zip offs).foldl (fun s io =>
          let p := mkPacket dst 7 2 (maVl b) (maKey b) (s.epochOf a.seat) (opHeader io.2 63 0 false io.1 parts)
          let p := { p with adaptive := maAdaptive b }
          if io.1 = parts then s.openRequest a.hub a.seat p [(l + 128 + 64 * io.1, 64)] .txn (.action id)
          else (s.startPacket a.hub (some a.seat) p [(l + 128 + 64 * io.1, 64)] none).1) s

def execActionRead (action : Nat) (s : State) : Out := .next (s.readAction action)
def execActionWrite (action : Nat) (s : State) : Out := .next (s.writeAction action)
def execActionAtomic (action : Nat) (s : State) : Out := .next (s.atomicAction action)
def execActionTxn (action : Nat) (s : State) : Out := .next (s.txnAction action)

/-! ### The end of an action (R370, R402) -/

/-- n is added to a seat's NI counter (R399). -/
def State.niSignal (s : State) (seat n v : Nat) : State :=
  s.writeCtr seat (.ni n) (s.readCtr seat (.ni n) + BitVec.ofNat 32 v)

/-- The result record of a memory action (R370). -/
def State.writeResult (s : State) (a : Action) (st : Status) : State :=
  let b := a.trig.args
  if 0x10 ≤ a.trig.action && a.trig.action ≤ 0x13 && maResult b ≠ 0 then
    match (s.seat? a.seat).bind (fun x => s.descAddr x (maResult b) 16) with
    | none => s
    | some r =>
      let s := s.localAccess a.seat a.hub r 16 true
      s.store r (natLe 8 a.old ++ natLe 2 (statusCode st) ++ List.replicate 6 0)
  else s

/-- The first waiting action of a hub gets the engine that has come free. -/
def State.nextEngine (s : State) (hub : Nat) : State :=
  match s.ni.waiting.find? (fun id => match FMap.find? s.ni.actions id with | some a => a.hub == hub | none => false) with
  | none => s
  | some id =>
    let s := { s with ni := { s.ni with waiting := s.ni.waiting.erase id } }
    s.setAction id (fun a => { a with engine := true })

/-- ACTION_END: an action that has its final status writes its result record, adds 1 to NEXT, and its entry is FREE
(R402). An error of the action fails the turn as its record says; the chain goes on. -/
def State.actionEnd (s : State) (id : Nat) : State :=
  match FMap.find? s.ni.actions id with
  | none => s
  | some a =>
    match a.status with
    | none => s
    | some st =>
      let s := s.writeResult a st
      let s := { s with ni := { s.ni with actions := FMap.erase s.ni.actions id,
                                          waiting := s.ni.waiting.erase id,
                                          triggers := FMap.erase s.ni.triggers (trigKey a.seat a.hub a.slot) } }
      let s := match a.trig.next with | some n => s.niSignal a.seat n 1 | none => s
      s.nextEngine a.hub

/-! ### COPY (R152 to R155, R369) -/

/-- The hub that is linked to a tile's die (R18, R130). -/
def State.tileHub (s : State) (t : Nat) : Nat := if (s.clusterRegion (t / 8)).getD 0 < 8 then 0 else 1

/-- A place in a cluster's store. -/
def isClusterPlace (p : Nat) : Bool := clusterBase ≤ p && p < tileBase

/-- One piece of a COPY inside the package, counted (R153, R524), with the ports, banks and links that it meets (R18, R107,
R111). -/
def State.copyPiece (s : State) (seat src dst n : Nat) : State :=
  let s := (s.hbmMoved seat src n false).hbmMoved seat dst n true
  let s := if isClusterPlace src && tileBase ≤ dst || isClusterPlace dst && tileBase ≤ src then s.charge seat acctCluBytes n else s
  (s.carry src dst n).move src dst n

/-- The first address of a COPY's pieces that the seat does not reach (R166). -/
def State.copyOffending (s : State) (v : DescEnv) (ps : List (Nat × Nat × Nat)) (rs rd : Bool) : Option Nat :=
  ps.findSome? (fun p =>
    if !rs && (s.descAddr v.seat p.1 p.2.2).isNone then some p.1
    else if !rd && (s.descAddr v.seat p.2.1 p.2.2).isNone then some p.2.1
    else none)

/-- COPY: its pieces in order, inside the package; or READ packets from, or WRITE packets to, another node in TC3, on
lane 0, RELIABLE and ADAPTIVE (R153, R369); after the earlier accesses of the tile in its directions (R103). -/
def State.copyRun (s : State) (t c : Nat) : State :=
  match s.inExec t c 5 with
  | none => s
  | some (v, e) =>
    if s.owned (.ctx t c) || ((s.ctx t c).state = .parked && s.portHeld t e.order (e.inbound, e.outbound)) then s
    else
      let d := e.desc
      let ps := copyPieces s v.base d
      let rs := !s.ownNode (cpSrc d / 2 ^ 48)
      let rd := !s.ownNode (cpDst d / 2 ^ 48)
      let bad (p : Nat × Nat × Nat) : Bool := (if rs then p.1 else p.2.1) % 64 != 0 || p.2.2 % 64 != 0
      if rs && rd then s.faultCtx t c .addrInvalid (cpDst d)
      else if (rs || rd) && ps.any bad then s.faultCtx t c .descInvalid 0
      else
        match s.copyOffending v ps rs rd with
        | some a => s.faultCtx t c .addrInvalid a
        | none =>
          if !(rs || rd) then
            (ps.foldl (fun s p =>
              match s.descAddr v.seat p.1 p.2.2, s.descAddr v.seat p.2.1 p.2.2 with
              | some a, some b => s.copyPiece v.seatNo a b p.2.2
              | _, _ => s) s).markDone t c
          else
            ps.foldl (fun s p =>
              if (s.ctx t c).state = .faulted then s
              else
                let hub := s.tileHub t
                if rs then
                  match s.descAddr v.seat p.2.1 p.2.2 with
                  | some b => s.openReads hub v.seatNo (p.1 / 2 ^ 48) 3 0 (cpKey d) (p.1 % 2 ^ 48) b p.2.2 true (.ctx t c)
                  | none => s
                else
                  match s.descAddr v.seat p.1 p.2.2 with
                  | some a => s.openWrites hub v.seatNo (p.2.1 / 2 ^ 48) 3 0 (cpKey d) (p.2.1 % 2 ^ 48) a p.2.2 true (.ctx t c)
                  | none => s) s

def execCopy (tile ctx : Nat) (s : State) : Out := .next (s.copyRun tile ctx)

end Sys2Proof.Machine
end

