-- ==== Sys2Proof/Machine/Collectives.lean ====
section
/-!
DEFINITION. REDUCE and the collective calls of a group: trees, digests, the agreement round, the data phases, the close
and the result record (R147 to R151, R405 to R437, R495).
-/

namespace Sys2Proof.Machine

/-! ### Trees (R414, R415) -/

def lowbit (r : Nat) : Nat :=
  if r = 0 then 65536
  else match (List.range 17).find? (fun i => bit r i) with
    | some i => 2 ^ i
    | none => 65536

/-- The children of a rank in the reduction tree of m members, ascending. -/
def treeChildren (r m : Nat) : List Nat :=
  (List.range 16).filterMap (fun i => if 2 ^ i < lowbit r && r + 2 ^ i < m then some (r + 2 ^ i) else none)

def treeParent (r : Nat) : Nat := r - lowbit r
/-- The number of ranks in a rank's range. -/
def treeSpan (r m : Nat) : Nat := min (r + lowbit r) m - r
def treeHeight (r m : Nat) : Nat := (treeChildren r m).length

/-- The children of a rank in the Overcast tree over a list with its root first (R415). -/
def overcast (l : List Nat) (f x : Nat) : List Nat :=
  match l.idxOf? x with
  | some v => (l.drop (f * v + 1)).take f
  | none => []

def overcastParent (l : List Nat) (f x : Nat) : Option Nat :=
  match l.idxOf? x with
  | some v => if v = 0 then none else l[(v - 1) / f]?
  | none => none

/-! ### Records (R416) -/

/-- Ascending ranks as runs of consecutive ones. -/
def runsOf (rs : List Nat) : List (Nat × Nat) :=
  rs.foldl (fun a r =>
    match a.getLast? with
    | some (f, n) => if f + n = r then a.dropLast ++ [(f, n + 1)] else a ++ [(r, 1)]
    | none => [(r, 1)]) []

def OpenRec.names (f : OpenRec) (r : Nat) : Bool := f.runs.any (fun x => x.1 ≤ r && r < x.1 + x.2)

/-- The ranks that a FINAL leaves to take part, ascending. -/
def OpenRec.present (f : OpenRec) (m : Nat) : List Nat := (List.range m).filter (fun r => !f.names r)

def OpenRec.encode (r : OpenRec) : Bytes :=
  natLe 4 r.digest ++ natLe 4 r.contrib ++ natLe 2 r.runs.length ++ [BitVec.ofNat 8 (b2n r.mismatch + 2 * b2n r.abort), 0]
    ++ natLe 4 r.badRank ++ r.runs.flatMap (fun x => natLe 2 x.1 ++ natLe 2 x.2)

def decodeOpen (b : Bytes) : OpenRec :=
  { digest := fld b 0 4, contrib := fld b 4 4, mismatch := bit (byteAt b 10) 0, abort := bit (byteAt b 10) 1,
    badRank := fld b 12 4,
    runs := (List.range (min (fld b 8 2) ((b.length - 16) / 4))).map (fun i => (fld b (16 + 4 * i) 2, fld b (18 + 4 * i) 2)) }

def CloseRec.encode (r : CloseRec) : Bytes :=
  natLe 2 r.status ++ [0, 0] ++ natLe 4 r.elem ++ natLe 4 r.rank ++ [0, 0, 0, 0]

def decodeClose (b : Bytes) : CloseRec := { status := fld b 0 2, elem := fld b 4 4, rank := fld b 8 4 }

/-- No failed check (R416). -/
def noRank : Nat := 0xFFFFFFFF
def lostRec : CloseRec := { status := statusCode .memberLost, elem := noRank, rank := noRank }

/-! ### Calls -/

def kindReduce : Nat := 0x04

def State.setGroup (s : State) (g : Nat) (x : Group) : State := { s with ni := { s.ni with groups := FMap.insert s.ni.groups g x } }

/-- The call in progress of a group. -/
def State.callOf (s : State) (g : Nat) : Option (Group × Call) :=
  match FMap.find? s.ni.groups g with
  | some x => x.call.map (fun c => (x, c))
  | none => none

def State.setCall (s : State) (g : Nat) (c : Call) : State :=
  { s with ni := { s.ni with groups := FMap.upd s.ni.groups g (fun x => { x with call := some c }) } }

/-- The digest of R412. -/
def callDigest (s : State) (g : Nat) (grp : Group) (c : Call) : Nat :=
  let red := c.kind = kindReduce
  crc32c ([BitVec.ofNat 8 c.kind, BitVec.ofNat 8 (if red then rdOp c.desc else 0), BitVec.ofNat 8 c.fmt, BitVec.ofNat 8 s.cpl]
    ++ natLe 4 c.len ++ natLe 2 g ++ natLe 2 c.arg ++ natLe 2 (if red then rdRoot c.desc else 0) ++ [0, 0]
    ++ natLe 4 c.seq ++ natLe 4 (crc32c (grp.nodes.flatMap (fun n => natLe 2 n))))

/-- The ranks that the seat's exclusion records name for this turn, a scope, a group and a key: SEQ for scope 1, SPACE
for the others (R494, R495). -/
def Seat.excluded (x : Seat) (scope g key m : Nat) : List Nat :=
  (List.range m).filter (fun r => x.exclusions.any (fun e =>
    fld e 0 8 == x.turn.toNat && fld e 8 2 == g && byteAt e 10 == scope
      && (if scope = 1 then fld e 16 4 == key else fld e 12 2 == key) && bit (byteAt e (64 + r / 8)) (r % 8)))

/-- A call with its fields, nothing begun. -/
def newCall (seq kind tc : Nat) (action : Option Nat) (members : List (Nat × Nat)) (desc : Bytes)
    (horizon arg fmt len src dst : Nat) (abort : Option Status) (contrib : List (Nat × Option Nat)) : Call :=
  { seq := seq, kind := kind, tc := tc, action := action, members := members, desc := desc, begun := none,
    horizon := horizon, arg := arg, fmt := fmt, len := len, src := src, dst := dst, digest := 0, abort := abort,
    contrib := contrib, opens := [], gone := [], openSent := false, final := none, landed := [], whole := [], formed := 0,
    result := [], resultSent := false, closes := [], closeSent := false, finalClose := none, poisoned := false,
    checked := false, lengthBad := false, sentTo := [] }

/-! ### Sending (R409, R413) -/

/-- A packet of a call to a rank. -/
def State.collSend (s : State) (g : Nat) (grp : Group) (c : Call) (rank step : Nat) (payload : Bytes) (bad : List Nat)
    (pieces : List (Nat × Nat)) (tree last : Bool) : State :=
  let data := step = 2 || step = 0x12
  let tc := if data || c.tc ≠ 3 then c.tc else 1
  let p := mkPacket (grp.nodes.getD rank 0) (if data then 0x10 else if c.kind = 0x24 then 0x13 else 0x11) tc
    (if tc = 0 then grVl grp.record % 4 else grVl grp.record) (collTag g c.seq step) (s.epochOf grp.seat) payload
  s.sendSeat (g % 2) grp.seat { p with reliable := tc != 0, adaptive := true, tree := tree, last := last, bad := bad,
                                       empty := payload.isEmpty && pieces.isEmpty } pieces none

/-- A string cut into pieces of at most n bytes. -/
def cutBytes : Nat → Nat → Bytes → List Bytes
  | 0, _, _ => []
  | fuel + 1, n, b => if b.length ≤ n then [b] else b.take n :: cutBytes fuel n (b.drop n)

/-- A control record of a call to a rank, in packets of its class (R339, R430). -/
def State.collCtrl (s : State) (g : Nat) (grp : Group) (c : Call) (rank step : Nat) (rec : Bytes) : State :=
  let cs := cutBytes (rec.length + 1) (if c.tc = 0 then 256 else 4096) rec
  ((List.range cs.length).zip cs).foldl (fun s ic => s.collSend g grp c rank step ic.2 [] [] false (ic.1 + 1 == cs.length)) s

/-! ### The end of a call (R402, R431, R432) -/

/-- A member's context is still at the REDUCE of the call. -/
def State.atReduce (s : State) (t k seat : Nat) (d : Bytes) : Bool :=
  let x := s.ctx t k
  match x.cur with
  | some e => x.seat == seat && dType e.desc == 4 && rdGroup e.desc == rdGroup d && rdSeq e.desc == rdSeq d && !e.done
      && x.state != .faulted && x.state != .free
  | none => false

/-- The members' descriptors, or the action, end with the call's status; SHORT is no error at a tile. -/
def State.callOwners (s : State) (seat : Nat) (c : Call) (st : Status) : State :=
  match c.action, s.seat? seat with
  | some id, _ => s.actionOver id st
  | none, some x => c.members.foldl (fun s vk =>
      match x.tile? vk.1 with
      | none => s
      | some t =>
        if !s.atReduce t vk.2 seat c.desc then s
        else if st = .success || st = .short then
          (s.markDone t vk.2).remoteComplete t vk.2
        else s.faultCtx t vk.2 st 0) s
  | none, none => s

/-- The result record of R431. -/
def State.callRecord (s : State) (g : Nat) (grp : Group) (c : Call) (st : Status) : State :=
  let m := grMembers grp.record
  let ps : List Nat := match c.final with | some f => f.present m | none => []
  let cut : Bool := match c.final with | some f => !f.runs.isEmpty | none => false
  let fc := c.finalClose.getD lostRec
  let check := st == .checkFail
  let rs := (64 + (m + 7) / 8 + 63) / 64 * 64
  let bitmap := (List.range ((m + 7) / 8)).map (fun i =>
    (BitVec.ofNat 8 ((List.range 8).foldl (fun a j => if ps.contains (8 * i + j) then a + 2 ^ j else a) 0) : Byte))
  let rec_ : Bytes := natLe 2 (statusCode st) ++ [BitVec.ofNat 8 (b2n cut + 2 * b2n c.checked), BitVec.ofNat 8 c.kind]
    ++ natLe 4 c.seq ++ natLe 4 (match c.final with | some f => f.contrib | none => 0) ++ natLe 2 ps.length ++ List.replicate 2 (0 : Byte)
    ++ natLe 4 (match c.final with | some f => f.digest | none => 0)
    ++ natLe 4 (if check then fc.rank else match c.final with | some f => f.badRank | none => noRank)
    ++ natLe 4 (match c.finalClose with | some r => r.elem | none => noRank) ++ List.replicate 36 (0 : Byte) ++ bitmap
  match (s.seat? grp.seat).bind (fun x => s.descAddr x (grRecords grp.record + c.seq % 64 * rs) rec_.length) with
  | none => s
  | some a => (s.localAccess grp.seat (g % 2) a rec_.length true).store a rec_

/-- The call in progress ends with a status: its record is written, then its completion is made known. -/
def State.callEnd (s : State) (g : Nat) (st : Status) : State :=
  match s.callOf g with
  | none => s
  | some (grp, c) =>
    let s := s.callRecord g grp c st
    let cut : Bool := match c.final with | some f => !f.runs.isEmpty | none => false
    let s := if cut || st = .short then
        s.onSeat grp.seat (fun x => { x with facts := { x.facts with short := true
                                                                     shortCalls := x.facts.shortCalls + (if st = .short then 1 else 0) } })
      else s
    let s := s.setGroup g { grp with call := none, gather := [] }
    s.callOwners grp.seat c st

/-- A call that ends at once with a status, its SEQ not used up (R405, R411). -/
def State.callRefuse (s : State) (g : Nat) (grp : Group) (c : Call) (st : Status) : State :=
  (s.callRecord g grp c st).callOwners grp.seat c st

/-- The status of a call in which nothing failed here: LENGTH_MISMATCH (R354), DATA_POISONED (R437), SHORT (R424) or
success. -/
def goodEnd (c : Call) : Status :=
  if c.lengthBad then .lengthMismatch
  else if c.poisoned then .dataPoisoned
  else match c.final with
    | some f => if f.runs.isEmpty then .success else .short
    | none => .success

/-! ### Data of a REDUCE (R420 to R426) -/

/-- Bytes of the whole result, and of what this member receives (R422). -/
def reduceBytes (c : Call) (m : Nat) : Nat := if rdShape c.desc = 2 then 4 * c.len / m else 4 * c.len

/-- Bytes of the received result land at the members' DST from an offset on (R422, R423). -/
def State.landResult (s : State) (grp : Group) (c : Call) (off : Nat) (bs : Bytes) (bad : List Nat) : State :=
  match s.seat? grp.seat with
  | none => s
  | some x =>
    let tiles := rdTiles c.desc
    let total := reduceBytes c (grMembers grp.record)
    c.members.foldl (fun s vk =>
      let i := vk.1 - rdFirst c.desc
      let lo := if rdShape c.desc = 2 then total / tiles * i else 0
      let n := if rdShape c.desc = 2 then total / tiles
        else if rdShape c.desc = 0 && vk.1 ≠ rdRoot c.desc then 0
        else total
      let a := max lo off
      let e := min (lo + n) (off + bs.length)
      match x.tile? vk.1 with
      | none => s
      | some t =>
        if e ≤ a || !s.atReduce t vk.2 grp.seat c.desc then s
        else
          match s.tilePhys t, (s.ctx t vk.2).cur with
          | some b, some r => s.land (b + rdDst r.desc + (a - lo)) ((bs.drop (a - off)).take (e - a))
              ((bad.filter (fun p => a - off ≤ p && p < e - off)).map (fun p => p - (a - off)))
          | _, _ => s) s

/-- The binary32 bits of results as bytes, and the places of their poisoned bytes. -/
def resultBytes (es : List (Nat × Option Nat)) : Bytes × List Nat :=
  (es.flatMap (fun e => natLe 4 e.1),
   ((List.range es.length).zip es).flatMap (fun ie => if ie.2.2.isSome then [4 * ie.1, 4 * ie.1 + 1, 4 * ie.1 + 2, 4 * ie.1 + 3] else []))

/-- Results to a rank, in packets of 4,096 bytes, from an offset of the whole message on (R421, R433). -/
def State.sendResults (s : State) (g : Nat) (grp : Group) (c : Call) (rank step off total : Nat) (tree : Bool)
    (es : List (Nat × Option Nat)) : State :=
  (List.range (ceilDiv es.length 1024)).foldl (fun s k =>
    let part := resultBytes ((es.drop (1024 * k)).take 1024)
    s.collSend g grp c rank step part.1 part.2 [] tree (off + 4096 * k + part.1.length == total)) s

/-- The children of this member in the tree of the FINAL (R417). -/
def downChildren (grp : Group) (f : OpenRec) : List Nat :=
  let m := grMembers grp.record
  overcast (0 :: (f.present m).filter (· ≠ 0)) (grFanout grp.record) (grRank grp.record)

/-- The FINAL_CLOSE is formed or received: forwarded, then the call ends when the result is there too (R425, R426). -/
def State.finalCloseIn (s : State) (g : Nat) (r : CloseRec) : State :=
  match s.callOf g with
  | none => s
  | some (grp, c) =>
    match c.final with
    | none => s
    | some f =>
      if c.finalClose.isSome then s
      else
        let s := (downChildren grp f).foldl (fun s k => s.collCtrl g grp c k 0x13 r.encode) s
        s.setCall g { c with finalClose := some r }

/-- A REDUCE ends when it holds the FINAL_CLOSE and, where one is due, the result. -/
def State.reduceEnd (s : State) (g : Nat) : State :=
  match s.callOf g with
  | none => s
  | some (grp, c) =>
    match c.finalClose with
    | none => s
    | some fc =>
      let has := rdShape c.desc = 0 || grRank grp.record = 0 || c.whole.contains 65536
      if fc.status = statusCode .memberLost then s.callEnd g (c.abort.getD (if c.lengthBad then .lengthMismatch else .memberLost))
      else if !has then s
      else s.callEnd g (if fc.status = 0 then goodEnd c else statusOf fc.status)

/-- MEMBER_LOST goes toward rank 0, or at rank 0 to every member that takes part (R425). -/
def State.callLost (s : State) (g : Nat) : State :=
  match s.callOf g with
  | none => s
  | some (grp, c) =>
    if c.closeSent then s
    else
      let s := s.setCall g { c with closeSent := true }
      if grRank grp.record = 0 then (s.finalCloseIn g lostRec).reduceEnd g
      else s.collCtrl g grp c (treeParent (grRank grp.record)) 3 lostRec.encode

/-- Children of this member that take part. -/
def kidsHere (grp : Group) (f : OpenRec) : List Nat :=
  (treeChildren (grRank grp.record) (grMembers grp.record)).filter (fun k => !f.names k)

/-- The CLOSE goes up after the last partial, once every child's has come (R426). -/
def State.reduceClose (s : State) (g : Nat) : State :=
  match s.callOf g with
  | none => s
  | some (grp, c) =>
    match c.final with
    | none => s
    | some f =>
      let kids := kidsHere grp f
      if c.closeSent || c.formed < 4 * c.len || kids.any (fun k => (FMap.find? c.closes k).isNone) then s
      else
        let own : CloseRec := { status := if c.poisoned then statusCode .dataPoisoned else 0, elem := noRank, rank := noRank }
        let r := kids.foldl (fun (a : CloseRec) k =>
          match FMap.find? c.closes k with
          | some x => { status := if a.status = 0 then x.status else a.status, elem := min a.elem x.elem, rank := min a.rank x.rank }
          | none => a) own
        let s := s.setCall g { c with closeSent := true }
        if grRank grp.record = 0 then (s.finalCloseIn g r).reduceEnd g
        else s.collCtrl g grp c (treeParent (grRank grp.record)) 3 r.encode

/-- Rank 0 delivers its result (R422). -/
def State.reduceDeliverAll (s : State) (g : Nat) (grp : Group) (c : Call) (f : OpenRec) : State :=
  let m := grMembers grp.record
  let total := reduceBytes c m
  let here := if rdShape c.desc = 2 then c.result.take (c.len / m) else c.result
  let bs := resultBytes here
  let s := s.landResult grp c 0 bs.1 bs.2
  match rdShape c.desc with
  | 1 =>
    let s := (downChildren grp f).foldl (fun s k => s.sendResults g grp c k 0x12 0 total true c.result) s
    ((List.range m).filter (fun r => r ≠ 0 && f.names r)).foldl (fun s k => s.sendResults g grp c k 0x12 0 total false c.result) s
  | 2 => ((List.range m).drop 1).foldl (fun s r =>
      s.sendResults g grp c r 0x12 0 total false ((c.result.drop (r * (c.len / m))).take (c.len / m))) s
  | _ => s

/-- The chunks that have landed from every child are added in ascending rank and sent up, or at rank 0 become the
result (R420, R421). Floating-point events count at the member tile that forms the element. -/
def State.reduceAdvance (s : State) (g : Nat) : State :=
  match s.callOf g with
  | none => s
  | some (grp, c) =>
    match c.final, s.seat? grp.seat with
    | some f, some x =>
      let m := grMembers grp.record
      let rank := grRank grp.record
      let total := 4 * c.len
      let all := treeChildren rank m
      let kids := kidsHere grp f
      let have_ := kids.foldl (fun a k => min a (FMap.get 0 c.landed k)) total
      let target := if have_ = total then total else have_ / 4096 * 4096
      if target ≤ c.formed then s
      else
        let places := kids.filterMap (fun k => s.quotaAddr x (grRxBase grp.record + ((all.idxOf? k).getD 0) * total) total)
        let op := rdOp c.desc
        let one (i : Nat) : (Nat × Option Nat) × FpEvents :=
          let own := c.contrib.getD i (0, none)
          let vs := decodeElem 1 own.1 :: places.map (fun p => decodeElem 1 (leNat (s.bytes (p + 4 * i) 4)))
          let r := reduceElem (if op = 1 && rank ≠ 0 then 0 else op) f.contrib vs
          let o := convert 1 .rne false r.1
          ((o.1, own.2.orElse (fun _ => places.findSome? (fun p => s.rangePoison (p + 4 * i) 4))), r.2.add o.2)
        let es := (List.range ((target - c.formed) / 4)).map (fun i => one (c.formed / 4 + i))
        let s := ((List.range es.length).zip es).foldl (fun s ie =>
          s.countFp grp.seat (rdFirst c.desc + (c.formed / 4 + ie.1) * rdTiles c.desc / c.len) ie.2.2) s
        let rs := es.map (·.1)
        let bad : Bool := rs.any (fun r => r.2.isSome)
        let c' := { c with formed := target, result := if rank = 0 then c.result ++ rs else [],
                           poisoned := c.poisoned || (rank == 0 && bad) }
        let s := s.setCall g c'
        if rank ≠ 0 then s.sendResults g grp c' (treeParent rank) 2 c.formed total false rs
        else if target = total then s.reduceDeliverAll g grp c' f
        else s
    | _, _ => s

/-! ### Data of the other collectives (R427 to R429) -/

/-- The ranks that take part, from a root on in ring order (R415, R427). -/
def ringFrom (f : OpenRec) (m root : Nat) : List Nat :=
  ((List.range m).map (fun i => (root + i) % m)).filter (fun r => !f.names r)

/-- The roots of a broadcasting call that take part. -/
def castRoots (f : OpenRec) (m : Nat) (c : Call) : List Nat :=
  if c.kind = 0x21 then f.present m else if f.names c.arg then [] else [c.arg]

/-- The descriptor address of a root's block at this member. -/
def blockAddr (c : Call) (root : Nat) : Nat := if c.kind = 0x21 then c.dst + root * c.len else c.dst

/-- The packets of a block that are at hand and not yet sent go to a child (R427, R440). -/
def State.castTo (s : State) (g child root : Nat) : State :=
  match s.callOf g with
  | none => s
  | some (grp, c) =>
    let key := child * 65536 + root
    let own := root = grRank grp.record
    let avail := if own then c.len else FMap.get 0 c.landed root
    let sent := FMap.get 0 c.sentTo key
    match (s.seat? grp.seat).bind (fun x => s.descAddr x (if own then c.src else blockAddr c root) (max 1 c.len)) with
    | none => s
    | some a =>
      if c.len = 0 then
        if sent = 0 && (own || c.whole.contains root) then
          (s.collSend g grp c child 0x12 [] [] [] true true).setCall g { c with sentTo := FMap.insert c.sentTo key 1 }
        else s
      else
        let ks := (List.range (ceilDiv c.len 4096)).filter (fun k => sent ≤ 4096 * k && min (4096 * k + 4096) c.len ≤ avail)
        let s := ks.foldl (fun s k =>
          let n := min 4096 (c.len - 4096 * k)
          s.collSend g grp c child 0x12 [] [] [(a + 4096 * k, n)] true (4096 * k + n == c.len)) s
        match ks.getLast? with
        | some k => s.setCall g { c with sentTo := FMap.insert c.sentTo key (min (4096 * k + 4096) c.len) }
        | none => s

/-- A block has wholly gone to a child. -/
def castDone (c : Call) (child root : Nat) : Bool := max 1 c.len ≤ FMap.get 0 c.sentTo (child * 65536 + root)

/-- The blocks that go to a child, whole and one after the other, in ascending distance of their root (log 19). -/
def rootsTo (grp : Group) (f : OpenRec) (c : Call) (me child : Nat) : List Nat :=
  let m := grMembers grp.record
  let rs := (castRoots f m c).filter (fun a => (overcast (ringFrom f m a) (grFanout grp.record) me).contains child)
  (List.range m).filterMap (fun p => rs.find? (fun a => (ringFrom f m a).idxOf? me == some p))

/-- Everything that may be sent now is sent. -/
def State.castAll (s : State) (g : Nat) : State :=
  match s.callOf g with
  | none => s
  | some (grp, c0) =>
    match c0.final with
    | none => s
    | some f =>
      (f.present (grMembers grp.record)).foldl (fun s child =>
        (rootsTo grp f c0 (grRank grp.record) child).foldl (fun (a : State × Bool) root =>
          if a.2 then a
          else
            let s := a.1.castTo g child root
            (s, match s.callOf g with | some (_, c) => !castDone c child root | none => true)) (s, false) |>.1) s

/-- An entry of the permutation table: SEND_ADDR, SEND_LEN, RECV_LEN, RECV_ADDR, reserved bytes 0. -/
structure PermEntry where
  sendAddr : Nat
  sendLen : Nat
  recvLen : Nat
  recvAddr : Nat
  ok : Bool
deriving DecidableEq, Repr

def State.permEntry (s : State) (x : Seat) (c : Call) (i : Nat) : Option PermEntry :=
  (s.descAddr x (c.dst + 32 * i) 32).map (fun a =>
    let b := s.bytes a 32
    { sendAddr := fld b 0 8, sendLen := fld b 8 4, recvLen := fld b 12 4, recvAddr := fld b 16 8, ok := zeros b 24 32 })

/-- The check of a permutation table when its call begins. -/
def State.permTable (s : State) (x : Seat) (grp : Group) (c : Call) : Option Status :=
  (List.range (grMembers grp.record)).foldl (fun r i =>
    match r with
    | some st => some st
    | none =>
      match s.permEntry x c i with
      | none => some .addrInvalid
      | some e => firstFail [
          (e.ok && e.sendLen % 16 == 0 && (i != grRank grp.record || e.sendLen == e.recvLen), .descInvalid),
          (s.reach x e.sendAddr (max 1 e.sendLen) && s.reach x e.recvAddr (max 1 e.recvLen), .addrInvalid)]) none

/-- What a member of SHIFT or PERMUTE expects from a rank: bytes and where they land. -/
def State.expects (s : State) (x : Seat) (c : Call) (rank : Nat) : Option (Nat × Nat) :=
  if c.kind = 0x22 then some (c.len, c.dst) else (s.permEntry x c rank).map (fun e => (e.recvLen, e.recvAddr))

/-- The distance of a SHIFT as a rank step from 0 to m - 1. -/
def shiftStep (c : Call) (m : Nat) : Nat := if c.arg < 32768 then c.arg % m else (m - (65536 - c.arg) % m) % m

/-- The messages of a SHIFT or PERMUTE: to each rank in turn, one packet to each (R429). -/
def State.pairSends (s : State) (g : Nat) (grp : Group) (c : Call) (f : OpenRec) (x : Seat) : State :=
  let m := grMembers grp.record
  let me := grRank grp.record
  let dests : List (Nat × Nat × Nat) :=
    if c.kind = 0x22 then
      let dest := (me + shiftStep c m) % m
      if f.names dest then [] else [(dest, c.src, c.len)]
    else
      ((List.range m).drop 1).filterMap (fun i =>
        let dest := (me + i) % m
        if f.names dest then none else (s.permEntry x c dest).map (fun e => (dest, e.sendAddr, e.sendLen)))
  let most := dests.foldl (fun a d => max a (max 1 (ceilDiv d.2.2 4096))) 0
  (List.range most).foldl (fun s k =>
    dests.foldl (fun s d =>
      if d.2.2 = 0 then (if k = 0 then s.collSend g grp c d.1 0x12 [] [] [] false true else s)
      else if d.2.2 ≤ 4096 * k then s
      else
        let n := min 4096 (d.2.2 - 4096 * k)
        match s.descAddr x d.2.1 d.2.2 with
        | none => s
        | some a => s.collSend g grp c d.1 0x12 [] [] [(a + 4096 * k, n)] false (4096 * k + n == d.2.2)) s) s

/-- The ranks from which a call expects a message: the source of a SHIFT, or every other of a PERMUTE that takes part. -/
def pairSources (grp : Group) (c : Call) (f : OpenRec) : List Nat :=
  let m := grMembers grp.record
  let me := grRank grp.record
  if c.kind = 0x22 then
    let from_ := (me + m - shiftStep c m) % m
    if f.names from_ then [] else [from_]
  else (f.present m).filter (· ≠ me)

/-- A data call ends when every message that it expects is whole. -/
def State.dataEnd (s : State) (g : Nat) : State :=
  match s.callOf g with
  | none => s
  | some (grp, c) =>
    match c.final with
    | none => s
    | some f =>
      let m := grMembers grp.record
      let me := grRank grp.record
      let need := if c.kind = 0x20 || c.kind = 0x21 then (castRoots f m c).filter (· ≠ me) else pairSources grp c f
      if need.all (fun r => c.whole.contains r) then s.callEnd g (goodEnd c) else s

/-- The data phase of a member that takes part begins (R420, R427 to R429). -/
def State.dataBegin (s : State) (g : Nat) : State :=
  match s.callOf g with
  | none => s
  | some (grp, c) =>
    match c.final, s.seat? grp.seat with
    | some f, some x =>
      let m := grMembers grp.record
      let me := grRank grp.record
      let copy (s : State) (from_ dest n : Nat) : State :=
        if n = 0 then s
        else match s.descAddr x from_ n, s.descAddr x dest n with
          | some a, some b => if a = b then s else s.niMove grp.seat (g % 2) a b n
          | _, _ => s
      if c.kind = kindReduce then (s.reduceAdvance g).reduceClose g
      else if c.kind = 0x20 || c.kind = 0x21 then
        let s := if (castRoots f m c).contains me then copy s c.src (blockAddr c me) c.len else s
        (s.castAll g).dataEnd g
      else if c.kind = 0x22 then (s.pairSends g grp c f x).dataEnd g
      else
        let s := match s.permEntry x c me with
          | some e => copy s e.sendAddr e.recvAddr e.sendLen
          | none => s
        (s.pairSends g grp c f x).dataEnd g
    | _, _ => s

/-! ### The agreement round (R416 to R419) -/

/-- A FINAL is formed or received: forwarded, and then the call ends or its data phase begins (R417 to R419, R423,
R430). -/
def State.finalIn (s : State) (g : Nat) (f : OpenRec) : State :=
  match s.callOf g with
  | none => s
  | some (grp, c) =>
    if c.final.isSome then s
    else
      let me := grRank grp.record
      let m := grMembers grp.record
      let s := (downChildren grp f).foldl (fun s k => s.collCtrl g grp c k 0x11 f.encode) s
      let s := if me = 0 then
          ((List.range m).filter (fun r => r ≠ 0 && f.names r)).foldl (fun s k => s.collCtrl g grp c k 0x11 f.encode) s
        else s
      let s := s.setCall g { c with final := some f, openSent := true }
      let st0 : Status := if f.runs.isEmpty then .success else .short
      if f.mismatch || f.digest ≠ c.digest then s.callEnd g .descMismatch
      else match c.abort with
        | some st => if c.kind = kindReduce then s.callLost g else s.callEnd g st
        | none =>
          if c.kind = 0x24 then s.callEnd g st0
          else if f.names me then
            (if c.kind = kindReduce && rdShape c.desc ≠ 0 then s else s.callEnd g .short)
          else s.dataBegin g

/-- The member's OPEN, or at rank 0 the FINAL, is formed from the children's records (R417 to R419, R495). -/
def State.openForm (s : State) (g : Nat) : State :=
  match s.callOf g with
  | none => s
  | some (grp, c) =>
    let m := grMembers grp.record
    let me := grRank grp.record
    let ex : Bool := match s.seat? grp.seat with
      | some x => (x.excluded 1 g c.seq m).contains me
      | none => false
    let out := ex || c.abort.isSome
    let span (k : Nat) : List Nat := (List.range (treeSpan k m)).map (k + ·)
    let here := if c.kind = kindReduce then rdTiles c.desc else 1
    let start : Nat × List Nat × List Nat := (if out then 0 else here, if out then [me] else [], [])
    let r := (treeChildren me m).foldl (fun (a : Nat × List Nat × List Nat) k =>
      match FMap.find? c.opens k with
      | none => (a.1, a.2.1 ++ span k, a.2.2)
      | some o =>
        if o.abort then (a.1, a.2.1 ++ span k, a.2.2 ++ (if o.digest ≠ c.digest then [k] else if o.mismatch then [o.badRank] else []))
        else (a.1 + o.contrib, a.2.1 ++ o.runs.flatMap (fun x => (List.range x.2).map (x.1 + ·)),
              a.2.2 ++ (if o.digest ≠ c.digest then [k] else []) ++ (if o.mismatch then [o.badRank] else []))) start
    let f : OpenRec := { digest := c.digest, contrib := if c.abort.isSome && me ≠ 0 then 0 else r.1, mismatch := !r.2.2.isEmpty, abort := c.abort.isSome,
                         badRank := r.2.2.foldl min noRank, runs := runsOf r.2.1 }
    if me = 0 then s.finalIn g f
    else
      let s := (s.collCtrl g grp c (treeParent me) 1 f.encode).setCall g { c with openSent := true }
      match c.abort with
      | some st => s.callEnd g st
      | none => s

/-- The OPEN is sent once every child's record has come or is given up. -/
def State.openIfReady (s : State) (g : Nat) : State :=
  match s.callOf g with
  | none => s
  | some (grp, c) =>
    if c.openSent then s
    else if (treeChildren (grRank grp.record) (grMembers grp.record)).all (fun k =>
        (FMap.find? c.opens k).isSome || c.gone.contains k) then s.openForm g
    else s

/-- CALL_BEGIN: the group's next call begins, or ends at once where its SEQ is not the next (R411, R412, R417, R421,
R422, R495). -/
def State.callBegin (s : State) (g : Nat) : State :=
  match FMap.find? s.ni.groups g with
  | none => s
  | some grp =>
    match grp.call, grp.waiting, s.seat? grp.seat with
    | none, c :: rest, some x =>
      let s := s.setGroup g { grp with waiting := rest }
      if c.seq ≠ seqNext grp.lastSeq then s.callRefuse g grp c .descInvalid
      else
        let m := grMembers grp.record
        let me := grRank grp.record
        let ex := x.excluded 1 g c.seq m
        let abort := c.abort.orElse (fun _ =>
          if c.kind = kindReduce then
            (if grRxLen grp.record < 4 * c.len * treeHeight me m
                || (rdShape c.desc = 2 && c.len % (m * rdTiles c.desc) ≠ 0) then some .descInvalid else none)
          else if c.kind = 0x23 then s.permTable x grp c
          else none)
        let c := { c with begun := some s.time, digest := callDigest s g grp c, abort := abort,
                          gone := (treeChildren me m).filter (fun k => ex.contains k),
                          checked := c.kind == kindReduce && abort.isNone && !ex.contains me }
        (s.setGroup g { grp with waiting := rest, lastSeq := c.seq, call := some c, gather := [] }).openIfReady g
    | _, _, _ => s

def execCallBegin (group : Nat) (s : State) : Out := .next (s.callBegin group)

/-- AGREEMENT_DEADLINE: the children whose OPEN has not come are absent with their ranges (R417). -/
def State.agreementDeadline (s : State) (g : Nat) : State :=
  match s.callOf g with
  | none => s
  | some (grp, c) =>
    if c.openSent then s
    else
      let kids := treeChildren (grRank grp.record) (grMembers grp.record)
      (s.setCall g { c with gone := kids.filter (fun k => (FMap.find? c.opens k).isNone) }).openForm g

def execAgreementDeadline (group : Nat) (s : State) : Out := .next (s.agreementDeadline group)

/-! ### Packets of a call (R410, R411) -/

/-- The hub of a group (R406). -/
def groupHub (g : Nat) : Nat := g % 2

/-- A packet of a group is taken: refused where R410 does not let it in, kept for the call after the current one,
discarded as stale for any other, and else handed to f with the group, its call and the sender's rank. -/
def State.collTake (s : State) (i : Nat) (types : List Nat) (f : State → Nat → Group → Call → Nat → Packet → State)
    (holds : Group → Call → Packet → Bool) : State :=
  match s.taken i types with
  | none => s
  | some q =>
    let p := q.pkt
    let g := tagGroup p.tag
    let reject (s : State) : State := (s.dropTaken i false).count 0x9008 none (groupHub g) 1
    let stale (s : State) : State := ((s.dropTaken i true).count 0x9009 none (groupHub g) 1).ackIfDue p.rxKey
    match FMap.find? s.ni.groups g with
    | none => reject s
    | some grp =>
      match grp.nodes.idxOf? p.src with
      | none => reject s
      | some rank =>
        if s.epochOf grp.seat ≠ p.epoch then reject s
        else
          match grp.call with
          | none => if tagInst p.tag = seqNext grp.lastSeq % 64 then s else stale s
          | some c =>
            if tagInst p.tag = c.seq % 64 then
              (if holds grp c p then s else (f (s.dropTaken i true) g grp c rank p).ackIfDue p.rxKey)
            else if tagInst p.tag = seqNext c.seq % 64 then s
            else stale s

/-- A control record is gathered from its packets, and with the last handed to f. -/
def State.ctrlTake (s : State) (i : Nat) (types steps : List Nat)
    (f : State → Nat → Group → Call → Nat → Nat → Bytes → State) : State :=
  match s.taken i types with
  | none => s
  | some q =>
    if !steps.contains (tagStep q.pkt.tag) then s
    else s.collTake i types (fun s g grp c rank p =>
      let key := tagStep p.tag * 65536 + rank
      let b := FMap.get [] grp.gather key ++ p.payload
      if p.last then f (s.setGroup g { grp with gather := FMap.erase grp.gather key }) g grp c rank (tagStep p.tag) b
      else s.setGroup g { grp with gather := FMap.insert grp.gather key b }) (fun _ _ _ => false)

/-- OPEN_RECORD: a child's OPEN is kept, where it is not given up, and the own OPEN follows the last (R417 to R419). A
control packet of a STEP that R413 does not name is discarded. -/
def execOpenRecord (index : Nat) (s : State) : Out :=
  .next (match s.taken index [0x11, 0x13] with
    | none => s
    | some q =>
      if [3, 0x11, 0x13].contains (tagStep q.pkt.tag) then s
      else s.ctrlTake index [0x11, 0x13] [tagStep q.pkt.tag] (fun s g grp c rank step b =>
        let kid := (treeChildren (grRank grp.record) (grMembers grp.record)).contains rank
        if step = 1 && kid && !c.openSent && !c.gone.contains rank && (FMap.find? c.opens rank).isNone then
          (s.setCall g { c with opens := FMap.insert c.opens rank (decodeOpen b) }).openIfReady g
        else s))

/-- FINAL_RECORD: the FINAL arrives (R417, R418). -/
def execFinalRecord (index : Nat) (s : State) : Out :=
  .next (s.ctrlTake index [0x11, 0x13] [0x11] (fun s g _ _ _ _ b => s.finalIn g (decodeOpen b)))

/-- CLOSE_RECORD: a child's CLOSE is merged toward rank 0, MEMBER_LOST at once (R425, R426). -/
def execCloseRecord (index : Nat) (s : State) : Out :=
  .next (s.ctrlTake index [0x11] [3] (fun s g grp c rank _ b =>
    let r := decodeClose b
    if !(treeChildren (grRank grp.record) (grMembers grp.record)).contains rank || c.kind ≠ kindReduce then s
    else if r.status = statusCode .memberLost then s.callLost g
    else (s.setCall g { c with closes := FMap.insert c.closes rank r }).reduceClose g))

/-- FINAL_CLOSE_RECORD: the FINAL_CLOSE is forwarded and ends the call (R426, R432). -/
def execFinalCloseRecord (index : Nat) (s : State) : Out :=
  .next (s.ctrlTake index [0x11] [0x13] (fun s g _ _ _ _ b => (s.finalCloseIn g (decodeClose b)).reduceEnd g))

/-- The bytes of a message's next packet: how many of them count, and whether the message is whole with it and of
another length (R354). -/
def messageStep (len got n : Nat) (last : Bool) : Nat × Bool × Bool :=
  let take := min n (len - got)
  let whole := last || len ≤ got + n
  (take, whole, whole && (got + n != len || !last))

/-- Data lands at a place of the seat. -/
def State.niLand (s : State) (seat hub a : Nat) (bs : Bytes) (bad : List Nat) : State :=
  if bs.isEmpty then s else (s.localAccess seat hub a bs.length true).land a bs (bad.filter (· < bs.length))

/-- A packet of a message from a key of `landed`, of len bytes in all, landing at a descriptor address. -/
def State.messageIn (s : State) (g : Nat) (grp : Group) (c : Call) (key len at_ : Nat) (p : Packet) : State :=
  if c.whole.contains key then s
  else
    let got := FMap.get 0 c.landed key
    let r := messageStep len got p.payload.length p.last
    let s := match (s.seat? grp.seat).bind (fun x => s.descAddr x (at_ + got) (max 1 r.1)) with
      | some a => s.niLand grp.seat (g % 2) a (p.payload.take r.1) p.bad
      | none => s
    s.setCall g { c with landed := FMap.insert c.landed key (got + r.1),
                         whole := if r.2.1 then c.whole ++ [key] else c.whole,
                         lengthBad := c.lengthBad || r.2.2 }

/-- A packet of the result of a REDUCE (R422, R423). -/
def State.resultIn (s : State) (g : Nat) (grp : Group) (c : Call) (f : OpenRec) (p : Packet) : State :=
  if c.whole.contains 65536 || grRank grp.record = 0 || rdShape c.desc = 0 then s
  else
    let total := reduceBytes c (grMembers grp.record)
    let got := FMap.get 0 c.landed 65536
    let r := messageStep total got p.payload.length p.last
    let absent := f.names (grRank grp.record)
    let s := s.landResult grp c got (p.payload.take r.1) p.bad
    let s := if p.tree && !absent then
        (downChildren grp f).foldl (fun s k => s.collSend g grp c k 0x12 p.payload p.bad [] true p.last) s
      else s
    let c := { c with landed := FMap.insert c.landed 65536 (got + r.1),
                      whole := if r.2.1 then c.whole ++ [65536] else c.whole,
                      lengthBad := c.lengthBad || r.2.2, poisoned := c.poisoned || !p.bad.isEmpty }
    let s := s.setCall g c
    if absent then (if r.2.1 then s.callEnd g (goodEnd c) else s) else s.reduceEnd g

/-- A data packet of a call: a partial from a child, a result, a block or a message (R420 to R423, R427 to R429, R437).
A packet of a STEP or from a rank that the call does not expect is discarded. -/
def State.collData (s : State) (g : Nat) (grp : Group) (c : Call) (rank : Nat) (p : Packet) : State :=
  let m := grMembers grp.record
  let me := grRank grp.record
  if tagStep p.tag = 2 then
    let kids := treeChildren me m
    match kids.idxOf? rank with
    | none => s
    | some j =>
      if c.kind ≠ kindReduce || c.gone.contains rank then s
      else
        let s := s.messageIn g grp c rank (4 * c.len) (grRxBase grp.record + j * 4 * c.len) p
        let bad : Bool := match s.callOf g with | some (_, x) => x.lengthBad | none => false
        if bad then s.callLost g else (s.reduceAdvance g).reduceClose g
  else if tagStep p.tag ≠ 0x12 then s
  else
    match c.final, s.seat? grp.seat with
    | some f, some x =>
      if c.kind = kindReduce then s.resultIn g grp c f p
      else if c.kind = 0x20 || c.kind = 0x21 then
        let fan := grFanout grp.record
        let from_ := (List.range m).filterMap (fun d =>
          (castRoots f m c).find? (fun a => (ringFrom f m a).idxOf? rank == some d
            && overcastParent (ringFrom f m a) fan me == some rank && !c.whole.contains a))
        (match from_ with
          | [] => s
          | root :: _ => ((s.messageIn g grp c root c.len (blockAddr c root) p).castAll g).dataEnd g)
      else if !(pairSources grp c f).contains rank then s
      else match s.expects x c rank with
        | some (len, at_) => (s.messageIn g grp c rank len at_ p).dataEnd g
        | none => s
    | _, _ => s

/-- COLL_DATA: a data packet is taken; one that needs the FINAL waits for it (R418). -/
def execCollData (index : Nat) (s : State) : Out :=
  .next (s.collTake index [0x10] (fun s g grp c rank p => s.collData g grp c rank p)
    (fun _ c p => tagStep p.tag == 0x12 && c.final.isNone))

/-! ### Limits (R423, R425) -/

/-- STALL_EXPIRY: a member in its data phase that waits too long reports MEMBER_LOST; one that has reported it, and a
call without a close, ends with it (R425). -/
def State.stallExpiry (s : State) (g : Nat) : State :=
  match s.callOf g with
  | none => s
  | some (grp, c) =>
    match c.final with
    | none => s
    | some f =>
      if f.names (grRank grp.record) then s
      else if c.kind = kindReduce && !c.closeSent then s.callLost g
      else s.callEnd g .memberLost

def execStallExpiry (group : Nat) (s : State) : Out := .next (s.stallExpiry group)

/-- ABSENT_RESULT_TIMEOUT: a member without its FINAL, or an absent one without the result, ends with TIMEOUT (R423). -/
def State.absentTimeout (s : State) (g : Nat) : State :=
  match s.callOf g with
  | none => s
  | some (grp, c) =>
    let due : Bool := match c.final with
      | none => c.openSent
      | some f => f.names (grRank grp.record)
    if due then s.callEnd g .timeout else s

def execAbsentResultTimeout (group : Nat) (s : State) : Out := .next (s.absentTimeout group)

/-! ### The collective actions (R405) -/

/-- A collective action fires: its group, and the places that its blocks take, are checked as they stand, and its call joins the
group's (R126, R405, R411). -/
def State.collAction (s : State) (id code : Nat) : State :=
  match s.beginning id code with
  | none => s
  | some (a, x) =>
    let b := a.trig.args
    match s.groupOf a.seat (caGroup b) with
    | none => s.actionOver id .descInvalid
    | some grp =>
      let c := newCall (caSeq b) code a.trig.tclass (some id) [] [] (caHorizon b) (caArg b) (caFmt b) a.trig.len (caSrc b)
        (caDst b) none []
      if !collArgsOk grp code b then s.callRefuse (caGroup b) grp c .descInvalid
      else if !s.reachAll x (collPlaces code a.trig.len (grMembers grp.record) b) then s.callRefuse (caGroup b) grp c .addrInvalid
      else (s.setGroup (caGroup b) { grp with waiting := grp.waiting ++ [c] }).setAction id (fun a => { a with begun := true })

def execActionBroadcast (action : Nat) (s : State) : Out := .next (s.collAction action 0x20)
def execActionAllGather (action : Nat) (s : State) : Out := .next (s.collAction action 0x21)
def execActionShift (action : Nat) (s : State) : Out := .next (s.collAction action 0x22)
def execActionPermute (action : Nat) (s : State) : Out := .next (s.collAction action 0x23)
def execActionBarrier (action : Nat) (s : State) : Out := .next (s.collAction action 0x24)

/-! ### REDUCE (R147 to R151, R419, R432) -/

/-- Why a REDUCE cannot have its members: a member tile is unbacked or fenced, or, for a group, a member's descriptor has failed
its check (R151, R419). -/
def State.reduceBroken (s : State) (seat : Nat) (x : Seat) (d : Bytes) : Option Status :=
  (List.range (rdTiles d)).foldl (fun r i =>
    match r with
    | some st => some st
    | none =>
      match x.tile? (rdFirst d + i) with
      | none => some .memberLost
      | some t =>
        if !((FMap.find? s.units.tileMap t).any s.tileHealthy) then some .memberLost
        else if rdGroup d = 0xFFFF then none
        else (List.range 8).foldl (fun r k =>
          match r with
          | some st => some st
          | none =>
            let y := s.ctx t k
            match y.cur with
            | some e =>
              if y.state == .faulted && y.seat == seat && dType e.desc == 4 && rdGroup e.desc == rdGroup d
                  && rdSeq e.desc == rdSeq d then
                some (match (s.descEnv t k e.desc).bind (fun v => checkDesc s v e.desc) with
                  | some (st, _) => st
                  | none => .memberLost)
              else none
            | none => none) none) none

/-- The call of a REDUCE joins its group's. -/
def State.reduceCall (s : State) (seat : Nat) (members : List (Nat × Nat)) (d : Bytes) (abort : Option Status)
    (contrib : List (Nat × Option Nat)) : State :=
  match s.groupOf seat (rdGroup d) with
  | none => s
  | some grp =>
    let c := newCall (rdSeq d) kindReduce 1 none members d (rdHorizon d) (rdShape d) (rdIn d) (rdCount d) 0 0 abort contrib
    s.setGroup (rdGroup d) { grp with waiting := grp.waiting ++ [c] }

/-- The members of a REDUCE that has failed in the package: they end with the status; with a group, through an aborting
call that they join (R148, R151, R419). -/
def State.reduceAbort (s : State) (seat : Nat) (x : Seat) (members : List (Nat × Nat)) (d : Bytes) (st : Status) : State :=
  if rdGroup d = 0xFFFF then s.reduceFail x members st 0
  else
    match s.groupOf seat (rdGroup d) with
    | none => s.reduceFail x members .descInvalid 0
    | some grp =>
      let join (c : Call) : Call := { c with members := c.members ++ members }
      let mine (c : Call) : Bool := c.kind == kindReduce && c.seq == rdSeq d
      if grp.waiting.any mine then
        s.setGroup (rdGroup d) { grp with waiting := grp.waiting.map (fun c => if mine c then join c else c) }
      else match grp.call with
        | some c => if mine c then s.setCall (rdGroup d) (join c) else s.reduceCall seat members d (some st) []
        | none => if grp.lastSeq = rdSeq d then s.reduceFail x members st 0 else s.reduceCall seat members d (some st) []

/-- Every member has arrived: the package's result is formed and delivered, or becomes the contribution of the group's call
(R149, R150, R420). -/
def State.reduceComplete (s : State) (seat : Nat) (x : Seat) (members : List (Nat × Nat)) (d : Bytes) : State :=
  let sorted := (List.range (rdTiles d)).filterMap (fun i => members.find? (fun vk => vk.1 == rdFirst d + i))
  let r := s.reduceResult x sorted d
  let s := ((List.range r.length).zip r).foldl (fun s ie =>
    s.countFp seat (rdFirst d + ie.1 * rdTiles d / rdCount d) ie.2.2) s
  let es := r.map (·.1)
  if rdGroup d = 0xFFFF then s.reduceDeliver x d sorted es
  else s.reduceCall seat sorted d (if (anyPoison r).isSome then some .dataPoisoned else none) es

/-- The seat-view tiles that a REDUCE descriptor names as members. -/
def rdMembers (d : Bytes) : List Nat := (List.range (rdTiles d)).map (rdFirst d + ·)

/-- A failed REDUCE waits for the members that have not met its end (R148, R151). -/
def State.reduceEnded (s : State) (r : ReduceRun) : State :=
  if r.left.isEmpty then s else { s with sync := { s.sync with reduces := s.sync.reduces ++ [r] } }

/-- The run that an arrival joins: the first with no arrival of its tile, of whose members it is one or one of whose arrivals is
among its own (R148; DESIGN CHOICE: the spec does not say which REDUCEs of a tile's several contexts belong together, log 26). -/
def State.reduceRunOf (s : State) (x : Seat) (seat view : Nat) (d : Bytes) (r : ReduceRun) : Bool :=
  r.seat == seat && !r.arrived.any (fun a => a.1 == view) &&
    (if r.ended.isSome then r.left.contains view
     else r.arrived.any (fun a => (rdMembers (s.memberDesc x a)).contains view || (rdMembers d).contains a.1))

/-- The DETAIL of a mismatch: the first member, in ascending order of those that have arrived, that differs from the first (R166). -/
def State.firstDiffering (s : State) (x : Seat) (arrived : List (Nat × Nat)) : Option Nat :=
  let sorted := (List.range 1024).filterMap (fun v => arrived.find? (fun vk => vk.1 == v))
  match sorted with
  | [] => none
  | vk :: rest => (rest.find? (fun b => rdKey (s.memberDesc x b) != rdKey (s.memberDesc x vk))).map (·.1)

/-- An arrival joins its run: it meets the run's end, differs from an earlier member, finds a member lost, completes the run or
waits (R148, R149, R151). -/
def State.reduceJoin (s : State) (x : Seat) (seat : Nat) (me : Nat × Nat) (d : Bytes) (run : ReduceRun) : State :=
  match run.ended with
  | some e => (s.reduceFail x [me] e.1 e.2).reduceEnded { run with arrived := run.arrived ++ [me], left := run.left.filter (· ≠ me.1) }
  | none =>
    let arrived := run.arrived ++ [me]
    let all := (arrived.flatMap (fun a => rdMembers (s.memberDesc x a)) ++ rdMembers d).eraseDups
    let left := all.filter (fun v => !arrived.any (fun a => a.1 == v))
    match s.firstDiffering x arrived with
    | some v =>
      let d0 := match run.arrived with | a :: _ => s.memberDesc x a | [] => d
      let s := s.reduceFail x arrived .descMismatch v
      let s := if rdGroup d0 = 0xFFFF then s else s.reduceAbort seat x [] d0 .descMismatch
      s.reduceEnded { run with arrived := arrived, ended := some (.descMismatch, v), left := left }
    | none =>
      match s.reduceBroken seat x d with
      | some st =>
        let s := s.reduceAbort seat x arrived d st
        if rdGroup d = 0xFFFF then s.reduceEnded { run with arrived := arrived, ended := some (st, 0), left := left } else s
      | none =>
        if left.isEmpty then s.reduceComplete seat x arrived d
        else { s with sync := { s.sync with reduces := s.sync.reduces ++ [{ run with arrived := arrived }] } }

/-- REDUCE: a member's operand joins its run; the last one completes it. A member whose descriptor failed its check
reports so (R419). -/
def State.reduceArrive (s : State) (t c : Nat) : State :=
  let y := s.ctx t c
  match y.cur, s.seat? y.seat with
  | some e, some x =>
    if dType e.desc ≠ 4 || y.state = .free || e.joined then s
    else
      let d := e.desc
      let me := (s.view y.seat t, c)
      let failed := y.state == .faulted
      if !failed && (s.inExec t c 4).isNone then s
      else if failed && rdGroup d = 0xFFFF then s
      else if !failed && rdGroup d ≠ 0xFFFF && (s.groupOf y.seat (rdGroup d)).isNone then s.faultCtx t c .descInvalid 0
      else
        let mine := s.reduceRunOf x y.seat me.1 d
        let run := (s.sync.reduces.find? mine).getD { seat := y.seat, arrived := [] }
        let others := match s.sync.reduces.findIdx? mine with
          | some i => s.sync.reduces.eraseIdx i
          | none => s.sync.reduces
        let s := (s.setCtx t c { y with cur := some { e with joined := true } })
        let s := { s with sync := { s.sync with reduces := others } }
        if !failed then s.reduceJoin x y.seat me d run
        else
          let d0 := match run.arrived with | vk :: _ => s.memberDesc x vk | [] => d
          match s.reduceBroken y.seat x d0 with
          | some st => s.reduceAbort y.seat x run.arrived d0 st
          | none => { s with sync := { s.sync with reduces := others ++ (if run.arrived.isEmpty then [] else [run]) } }
  | _, _ => s

def execReduce (tile ctx : Nat) (s : State) : Out := .next (s.reduceArrive tile ctx)

/-- A member tile is fenced: the REDUCEs of its seat that have it as a member end on every other member (R151), and a
group's call reports it (R419, R425). -/
def State.reduceFenced (s : State) (seat view : Nat) : State :=
  match s.seat? seat with
  | none => s
  | some x =>
    let members (r : ReduceRun) : List Nat := (r.arrived.flatMap (fun a => rdMembers (s.memberDesc x a))).eraseDups
    let hit (r : ReduceRun) : Bool := r.seat == seat && r.ended.isNone && (members r).contains view
    let runs := s.sync.reduces.filter hit
    let left (r : ReduceRun) : List Nat := (members r).filter (fun v => v ≠ view && !r.arrived.any (fun a => a.1 == v))
    let gone (r : ReduceRun) : ReduceRun := { r with left := r.left.filter (· ≠ view) }
    let kept := ((s.sync.reduces.filter (fun r => !hit r)).map gone).filter (fun r => r.ended.isNone || !r.left.isEmpty)
    let s := { s with sync := { s.sync with reduces := kept } }
    let s := runs.foldl (fun s r =>
      match r.arrived with
      | [] => s
      | vk :: _ =>
        let d := s.memberDesc x vk
        let s := s.reduceAbort seat x (r.arrived.filter (fun a => a.1 ≠ view)) d .memberLost
        if rdGroup d = 0xFFFF then s.reduceEnded { r with ended := some (.memberLost, 0), left := left r } else s) s
    let inCall (c : Call) : Bool := c.kind == kindReduce && c.members.any (fun vk => vk.1 == view)
    let out (c : Call) : Call := { c with members := c.members.filter (fun vk => vk.1 ≠ view),
                                          abort := c.abort.orElse (fun _ => some .memberLost) }
    s.ni.groups.foldl (fun s kg =>
      if kg.2.seat ≠ seat then s
      else
        let s := s.setGroup kg.1 { kg.2 with waiting := kg.2.waiting.map (fun c => if inCall c then out c else c) }
        match kg.2.call with
        | some c =>
          if !inCall c then s
          else
            let s := s.setCall kg.1 (out c)
            if c.openSent then s.callLost kg.1 else s
        | none => s) s

end Sys2Proof.Machine
end

