-- ==== Sys2Proof/Machine/Druind.lean ====
section
/-!
DEFINITION. Druind: space records and placement banks (R204 to R212), hand-over and acceptance (R163, R198 to R203),
choices (R213 to R219), the grant phase (R220 to R231), the output area (R232 to R241) and failures (R242); the stand-in
of a failed member (R466).
-/

namespace Sys2Proof.Machine

/-! ### Space records and banks (R204, R205, R207) -/

def spE (r : Bytes) := fld r 2 2
def spPolicy (r : Bytes) := byteAt r 4 % 4
def spRenorm (r : Bytes) := bit (byteAt r 4) 2
def spProbe (r : Bytes) := byteAt r 5
def spStages (r : Bytes) := byteAt r 6
def spShared (r : Bytes) := byteAt r 7
def spHorizon (r : Bytes) := fld r 8 4
def spBankA (r : Bytes) := fld r 16 8
def spBankB (r : Bytes) := fld r 24 8
def spSrcCluster (r : Bytes) := fld r 32 2
def spTpc (r : Bytes) := fld r 34 2
def spSrcOff (r : Bytes) := fld r 36 4
def spXLd (r : Bytes) := fld r 40 2
def spRxRows (r : Bytes) := fld r 42 2
def spRxOff (r : Bytes) := fld r 44 4
def spSpillRows (r : Bytes) := fld r 48 4
def spSpillStride (r : Bytes) := fld r 52 4
def spSpillBase (r : Bytes) := fld r 56 8
/-- Stage record s. -/
def spStage (r : Bytes) (s : Nat) : Bytes := (r.drop (64 + 32 * s)).take 32
def stWBase (b : Bytes) := fld b 0 8
def stWslot (b : Bytes) := byteAt b 8 % 2
def stStride (b : Bytes) := fld b 12 4
def stWOff (b : Bytes) := fld b 16 4
def stWsOff (b : Bytes) := fld b 20 4
def stYOff (b : Bytes) := fld b 24 4
def stYLd (b : Bytes) := fld b 28 2

/-- Rounds of the grant phase (R220). -/
def spRounds (r : Bytes) : Nat := if spPolicy r = 1 then 1 + spProbe r else 1

def roundUp (n a : Nat) : Nat := (n + a - 1) / a * a

/-- The offset of the spilled outputs of stage s within a spill area (R239). -/
def spYsp (r : Bytes) (s : Nat) : Nat :=
  (List.range s).foldl (fun a i => a + roundUp ((spRxRows r + spSpillRows r) * stYLd (spStage r i)) 4096)
    (roundUp (spSpillRows r * spXLd r) 4096)

def bkHome (b : Bytes) (e : Nat) := fld b (8 * e) 2
def bkLocal (b : Bytes) (e : Nat) := fld b (8 * e + 2) 2 % 8192
def bkCluster (b : Bytes) (e : Nat) := byteAt b (8 * e + 4)
def bkCap (b : Bytes) (e : Nat) := fld b (8 * e + 6) 2

/-- A bank of e entries is valid but for the membership of its homes (R210, R231). -/
def bankOk (x : Seat) (own : Nat) (b : Bytes) (e : Nat) : Bool :=
  let mine := (List.range e).filter (fun i => bkHome b i == own)
  (List.range e).all (fun i => fld b (8 * i + 2) 2 < 8192 && byteAt b (8 * i + 5) == 0 && bkHome b i != 0xFFFF && 1 ≤ bkCap b i)
    && mine.all (fun i => bkCluster b i < (clustersOf x.record).length) && decide (mine.map (bkLocal b)).Nodup

/-! ### The stand-in (R448, R466) -/

/-- A PERM_DATA packet: to a rank, of a direction, part, space and turn (R448). -/
def permPacket (s : State) (g : Nat) (grp : Group) (rank dir part space turn : Nat) (payload : Bytes) (last : Bool) : Packet :=
  let vl := if dir = 1 then grVl grp.record ^^^ 8 else grVl grp.record
  { mkPacket (grp.nodes.getD rank 0) 0x12 1 vl (collTag g turn (dir * 32768 + part * 2048 + space % 2048))
      (s.epochOf grp.seat) payload with reliable := true, adaptive := true, last := last }

/-- The member becomes the stand-in for a space and turn: EMPTY messages go to every other member to which the exchange
has not begun one (R466). With no group nothing is sent. -/
def State.standIn (s : State) (seat turn space g : Nat) (begun : List Nat) : State :=
  if s.ni.standIns.any (fun i => i.seat == seat && i.turn == turn && i.space == space) then s
  else
    let mine : StandIn := { seat := seat, turn := turn, space := space, group := g, began := s.time }
    let s := { s with ni := { s.ni with standIns := s.ni.standIns ++ [mine] } }
    match s.groupOf seat g with
    | none => s
    | some grp =>
      let m := grMembers grp.record
      let me := grRank grp.record
      ((List.range m).drop 1).foldl (fun s i =>
        let r := (me + i) % m
        let s := if begun.contains r then s else s.sendSeat (g % 2) seat (permPacket s g grp r 0 0 space turn [] true) [] none
        s.sendSeat (g % 2) seat (permPacket s g grp r 1 15 space turn [] true) [] none) s

/-! ### The share and the lead engine (R163, R198 to R201) -/

/-- The engines of a seat's share that are left. -/
def State.engines (s : State) (x : Seat) : List Nat :=
  x.share.filter (fun r => !s.units.lostDruinds.contains r && !s.units.withdrawnRegions.contains r)

/-- The engine to which a ROUTE of a tile goes. -/
def State.leadOf (s : State) (x : Seat) (t : Nat) : Option Nat :=
  let live := s.engines x
  match FMap.find? x.home (t / 8) with
  | some r => if live.contains r then some r else live.head?
  | none => live.head?

/-- The nc in which a hand-over of a tile reaches an engine: that of a signal to a tile counter in another cluster of the
engine's region (R130, R163). -/
def State.handOverNc (s : State) (t lead : Nat) : Nat :=
  let r := (s.clusterRegion (t / 8)).getD lead
  let tc := if r = lead then 56 else if r / 4 = lead / 4 then 94 else 170
  (s.time + tc * tcUnits) / ncUnits

/-- Counts of an engine (17). -/
def State.dre (s : State) (lead code n : Nat) : State := s.count code none lead n

/-- nc that an engine works for a seat (R203, R524). -/
def State.dreWork (s : State) (seat region nc : Nat) : State := (s.dre region 0x3000 nc).charge seat acctDruindBusy nc

/-- ROUTEs that an engine holds, as a gauge (R201). -/
def State.dreSlots (s : State) (region : Nat) : State :=
  s.gauge 0x3005 none region (s.druind.runs.filter (fun r => r.2.lead == region)).length

def State.setRun (s : State) (id : Nat) (r : RouteRun) : State :=
  { s with druind := { s.druind with runs := FMap.insert s.druind.runs id r } }

def State.dropRun (s : State) (id : Nat) : State :=
  match FMap.find? s.druind.runs id with
  | none => s
  | some r => ({ s with druind := { s.druind with runs := FMap.erase s.druind.runs id } }).dreSlots r.lead

/-- A ROUTE ends with a status after its acceptance: fault record with its DETAIL, and the turn fails (R166, R242); an
exclusion is no failure (R495). -/
def State.routeFault (s : State) (r : RouteRun) (st : Status) (detail : Nat := 0) : State :=
  if st = .replayExcluded then s
  else
    let s := s.failTurn r.seat st
    s.faultRecord r.seat unitRank (faultBytes st r.ctx 9 (s.view r.seat r.tile) (0xFFFF * 2 ^ 48 + r.addr) r.turn detail)

/-- A ROUTE that ends with a status makes its member the stand-in (R466, R495). -/
def State.routeStandIn (s : State) (r : RouteRun) : State :=
  match r.group with
  | some g => s.standIn r.seat r.turn (fld r.record 0 2) g []
  | none => s

/-! ### Choices (R213 to R219) -/

/-- Insertion of a value into an ascending list by a comparison. -/
def insertBy {α : Type} (before : α → α → Bool) (x : α) : List α → List α
  | [] => [x]
  | y :: t => if before y x then y :: insertBy before x t else x :: y :: t

def sortBy {α : Type} (before : α → α → Bool) (l : List α) : List α := l.foldl (fun a x => insertBy before x a) []

/-- Expert a ranks before expert b (R213). -/
def rankBefore (a b : Nat × Val) : Bool :=
  if a.2.isNan then b.2.isNan && a.1 < b.1
  else if b.2.isNan then true
  else
    let c := a.2.cmp b.2
    0 < c || (c == 0 && a.1 < b.1)

/-- Binary32 arithmetic with RNE. -/
def f32 (r : Val × FpEvents) : Val := (roundTo 1 .rne r.1).1
def f32Bits (v : Val) : Nat := (convert 1 .rne false v).1
def zeroVal : Val := .num false 0 0

/-- Raw weights of experts from the logits of a token (R214). -/
def rawWeights (sigmoid : Bool) (ls : List Val) (es : List Nat) : List Val :=
  let l (e : Nat) : Val := ls.getD e .nan
  if sigmoid then es.map (fun e => if (l e).isNan then zeroVal else (vecValue 0x16 1 .rne (l e) zeroVal zeroVal false).1)
  else
    let v := ls.filter (fun x => !x.isNan)
    match v with
    | [] => es.map (fun _ => zeroVal)
    | x :: rest =>
      let m := rest.foldl Val.max x
      if m.isInf && !m.isNeg then
        let w := f32 ((Val.ofInt 1 0).div (Val.ofInt (v.filter (fun x => x.isInf && !x.isNeg)).length 0))
        es.map (fun e => if (l e).isInf && !(l e).isNeg then w else zeroVal)
      else if m.isInf then
        let w := f32 ((Val.ofInt 1 0).div (Val.ofInt v.length 0))
        es.map (fun e => if (l e).isNan then zeroVal else w)
      else
        let d (x : Val) : Val := (vecValue 0x10 1 .rne (f32 (x.add m.neg)) zeroVal zeroVal false).1
        let sum := v.foldl (fun a x => f32 (a.add (d x))) zeroVal
        es.map (fun e => if (l e).isNan then zeroVal else f32 ((d (l e)).div sum))

/-- Weights divided by their sum in ascending order; a sum of +0 leaves them (R215, R227). -/
def normalised (ws : List Val) : List Val :=
  let t := ws.foldl (fun a w => f32 (a.add w)) zeroVal
  if t.isZero then ws else ws.map (fun w => f32 (w.div t))

/-- Up to 17 draws from draw a on until an expert is not excluded: the expert, the draws made and whether a draw gave it;
else the lowest expert not excluded (R217, R226). -/
def drawExpert (draw : Nat → Nat) (excl : List Nat) (e : Nat) : Nat → Nat → Nat → Nat × Nat × Bool
  | 0, _, used => (((List.range e).find? (fun x => !excl.contains x)).getD 0, used, false)
  | fuel + 1, a, used =>
    let x := draw a
    if excl.contains x then drawExpert draw excl e fuel (a + 1) (used + 1) else (x, used + 1, true)

/-- The expert of a hash draw of a token (R72, R217). -/
def hashExpert (seed : W64) (tau space e k j a : Nat) : Nat := pip seed tau space (j + a * k) * e / 2 ^ 32

/-- The choices of a hashed token, and the draws made (R217, R218). -/
def hashToken (seed : W64) (tau space e k : Nat) : Token × Nat :=
  let w := f32Bits (f32 ((Val.ofInt 1 0).div (Val.ofInt k 0)))
  let r := (List.range k).foldl (fun (a : List Choice × Nat) j =>
    let x := drawExpert (hashExpert seed tau space e k j) (a.1.map (·.expert)) e 17 0 0
    let next := if x.2.2 then x.2.1 else 18
    (a.1 ++ [{ expert := x.1, state := 3, round := 0, weight := w, nextDraw := next }], a.2 + x.2.1)) ([], 0)
  ({ choices := r.1, reserve := [], refused := [] }, r.2)

/-- The choices of a scored token (R213 to R215). -/
def scoreToken (sigmoid norm : Bool) (ls : List Val) (k reserve : Nat) : Token :=
  let order := (sortBy rankBefore ((List.range ls.length).zip ls)).map (·.1)
  let es := order.take k
  let ws := rawWeights sigmoid ls es
  let ws := if norm then normalised ws else ws
  { choices := (es.zip ws).map (fun ew => ({ expert := ew.1, state := 3, round := 0, weight := f32Bits ew.2, nextDraw := 0 } : Choice))
    reserve := (order.drop k).take reserve
    refused := [] }

/-! ### Count and grant messages (R220 to R222) -/

def encodeGrant (space round turn : Nat) (m : GrantMsg) : Bytes :=
  natLe 2 space ++ [BitVec.ofNat 8 round, BitVec.ofNat 8 (b2n m.entries.isEmpty + 2 * b2n m.abort + 4 * m.mismatch)]
    ++ natLe 4 turn ++ natLe 4 m.rdigest ++ natLe 4 m.pdigest ++ natLe 4 m.entries.length ++ List.replicate 4 (0 : Byte)
    ++ m.entries.flatMap (fun e => natLe 4 (e.1 + e.2 * 8192))

def decodeGrant (reply : Bool) (b : Bytes) : GrantMsg :=
  let f := byteAt b 3
  { abort := !reply && bit f 1, mismatch := if reply then f / 4 % 4 else 0, rdigest := fld b 8 4, pdigest := fld b 12 4,
    entries := (List.range (min (fld b 16 4) ((b.length - 24) / 4))).map (fun i =>
      (fld b (24 + 4 * i) 4 % 8192, fld b (24 + 4 * i) 4 / 8192)) }

/-- The route digest (R228). -/
def routeDigest (r : RouteRun) : Nat :=
  crc32c (natLe 2 (fld r.record 0 2) ++ natLe 2 (spE r.record) ++ [BitVec.ofNat 8 (roK r.desc), BitVec.ofNat 8 (byteAt r.desc 12),
    BitVec.ofNat 8 (byteAt r.record 4), BitVec.ofNat 8 (spProbe r.record)] ++ natLe 8 r.turn)

/-- The placement digest (R208). -/
def placementDigest (b : Bytes) : Nat := crc32c b

def msgKey (round rank : Nat) : Nat := round * 65536 + rank

/-- The rank of an expert's home. -/
def homeRank (r : RouteRun) (e : Nat) : Nat := (r.members.idxOf? (bkHome r.bank e)).getD 0

/-- The experts that the tokens request in this round, ascending, with the number of requests. -/
def requestsOf (r : RouteRun) : List (Nat × Nat) :=
  let m := r.tokens.foldl (fun (a : FMap Nat) t => t.choices.foldl (fun a c =>
    if c.state = 3 then FMap.insert a c.expert (FMap.get 0 a c.expert + 1) else a) a) ([] : FMap Nat)
  m.map (fun e => (e.1, e.2))

/-- A count or grant message goes to a rank, in TC0 packets of 256 bytes (R220, R339, R409). -/
def State.grantSend (s : State) (r : RouteRun) (type round rank : Nat) (m : GrantMsg) : State :=
  match r.group with
  | none => s
  | some g =>
    match FMap.find? s.ni.groups g with
    | none => s
    | some grp =>
      let b := encodeGrant (fld r.record 0 2) round (r.turn % 2 ^ 32) m
      let cs := cutBytes (b.length + 1) 256 b
      ((List.range cs.length).zip cs).foldl (fun s ic =>
        let p := mkPacket (grp.nodes.getD rank 0) type 0 (grVl grp.record % 4) (collTag g r.turn round) (s.epochOf grp.seat) ic.2
        s.sendSeat (g % 2) grp.seat { p with last := ic.1 + 1 == cs.length } [] none) s

/-- The count messages of the run's round go to every member, the own one through the engine (R220, R221, R230). -/
def State.sendCounts (s : State) (id : Nat) : State :=
  match FMap.find? s.druind.runs id with
  | none => s
  | some r =>
    let reqs := if r.status.isSome then [] else requestsOf r
    let rd := routeDigest r
    let pd := placementDigest r.bank
    let msg (d : Nat) : GrantMsg :=
      { abort := r.status.isSome, mismatch := 0, rdigest := rd, pdigest := pd,
        entries := reqs.filter (fun e => bkHome r.bank e.1 == r.members.getD d 0) }
    let s := s.setRun id { r with counts := FMap.insert r.counts (msgKey r.round r.rank) (msg r.rank) }
    (List.range r.members.length).foldl (fun s d => if d = r.rank then s else s.grantSend r 0x18 r.round d (msg d)) s

/-! ### The home's decision (R223, R228 to R230) -/

/-- The grants of one member's entries, in list order. -/
def grantEntries (r : RouteRun) (rank : Nat) (es : List (Nat × Nat)) : RouteRun × List (Nat × Nat) :=
  let last := spPolicy r.record = 0 || (spPolicy r.record = 1 && r.decided + 1 = spRounds r.record)
  es.foldl (fun (a : RouteRun × List (Nat × Nat)) eq =>
    let q := a.1
    let e := eq.1
    let c := bkCluster q.bank e
    let mine := bkHome q.bank e = q.members.getD q.rank 0
    let left := FMap.get (bkCap q.bank e) q.rem e
    let room := FMap.get (spRxRows q.record + spSpillRows q.record) q.room c
    let g := if mine then min eq.2 (min left room) else 0
    let add (m : FMap Nat) (v : Nat) : FMap Nat := FMap.insert m e ((FMap.get 0 m e + v) % 2 ^ 32)
    ({ q with
        rem := FMap.insert q.rem e (left - g)
        room := FMap.insert q.room c (room - g)
        received := add q.received eq.2
        granted := add q.granted g
        overflowed := add q.overflowed (eq.2 - g)
        dropped := if last then add q.dropped (eq.2 - g) else q.dropped
        grants := if g = 0 then q.grants else q.grants ++ [(q.decided, rank, e, g)] }, a.2 ++ [(e, g)])) (r, [])

/-- The home decides its next round with the count messages that it holds (R223, R228 to R230). The digests of every
count message are compared, one with ABORT among them. DESIGN CHOICE (log 28): a grant message carries the home's own
digests; R222 gives it the header of the count message without saying whose digests stand there. -/
def State.decideRound (s : State) (id : Nat) : State :=
  match FMap.find? s.druind.runs id with
  | none => s
  | some r =>
    let m := r.members.length
    let round := r.decided
    let got (d : Nat) : Option GrantMsg := FMap.find? r.counts (msgKey round d)
    let ranks := List.range m
    let missing := ranks.filter (fun d => (got d).isNone)
    let rd := routeDigest r
    let pd := placementDigest r.bank
    let held := ranks.filterMap got
    let mis := if held.any (fun g => g.rdigest != rd) then 1 else if held.any (fun g => g.pdigest != pd) then 2 else 0
    let res : RouteRun × List (List (Nat × Nat)) := ranks.foldl (fun a d =>
      let es := match got d with | some g => if g.abort then [] else g.entries | none => []
      if mis = 0 then
        let x := grantEntries a.1 d es
        (x.1, a.2 ++ [x.2])
      else (a.1, a.2 ++ [es.map (fun e => (e.1, 0))])) (r, [])
    let q := res.1
    let reply (d : Nat) : GrantMsg := { abort := false, mismatch := mis, rdigest := rd, pdigest := pd, entries := res.2.getD d [] }
    let sum (f : RouteRun → FMap Nat) : Nat := (f q).foldl (fun a e => a + e.2) 0 - (f r).foldl (fun a e => a + e.2) 0
    let s := ((((s.dre r.lead 0x3006 (sum (·.received))).dre r.lead 0x3007 (sum (·.granted))).dre
      r.lead 0x3008 (sum (·.overflowed))).dre r.lead 0x3009 (sum (·.dropped)))
    let s := s.dreWork r.seat r.lead (ceilDiv (res.2.foldl (fun a es => a + es.length) 0) 32)
    let s := s.setRun id { q with decided := round + 1,
                                  short := q.short ++ missing.filter (fun d => !q.short.contains d),
                                  replies := FMap.insert q.replies (msgKey round r.rank) (reply r.rank) }
    ranks.foldl (fun s d => if d = r.rank then s else s.grantSend r 0x19 round d (reply d)) s

/-! ### The source's side of a round (R224 to R227) -/

/-- One token takes its grants: the grants left by expert, in token order (R224, R225). -/
def tokenRound (r : RouteRun) (seed : W64) (tau : Nat) (left : FMap Nat) (t : Token) : Token × FMap Nat × Nat :=
  let last := r.round + 1 = spRounds r.record
  let k := roK r.desc
  let e := spE r.record
  let pass := t.choices.foldl (fun (a : List (Choice × Bool) × FMap Nat) c =>
    if c.state ≠ 3 then (a.1 ++ [(c, false)], a.2)
    else
      let n := FMap.get 0 a.2 c.expert
      let c := { c with round := r.round }
      if n = 0 then (a.1 ++ [(c, true)], a.2)
      else (a.1 ++ [({ c with state := 0 }, false)], FMap.insert a.2 c.expert (n - 1))) ([], left)
  let refused := t.refused ++ (pass.1.filter (·.2)).map (fun c => c.1.expert)
  let done := (List.range k).foldl (fun (a : List (Choice × Bool) × Nat) j =>
    match a.1[j]? with
    | some (c, true) =>
      if spPolicy r.record = 2 then (a.1.set j ({ c with state := 2 }, false), a.2)
      else if spPolicy r.record = 1 && !last then
        let excl := a.1.map (fun x => x.1.expert) ++ refused
        if roMode r.desc = 2 then
          let x := drawExpert (hashExpert seed tau (fld r.record 0 2) e k j) excl e 17 c.nextDraw 0
          (a.1.set j ({ c with expert := x.1, nextDraw := c.nextDraw + x.2.1 }, false), a.2 + x.2.1)
        else
          let x := (t.reserve.find? (fun x => !excl.contains x)).getD c.expert
          (a.1.set j ({ c with expert := x }, false), a.2)
      else (a.1.set j ({ c with state := 1 }, false), a.2)
    | _ => a) (pass.1, 0)
  ({ t with choices := done.1.map (·.1), refused := refused }, pass.2, done.2)

/-- The final weights of a token (R227). -/
def finalWeights (r : RouteRun) (t : Token) : Token :=
  let dropped := t.choices.any (fun c => c.state == 1)
  let keep := t.choices.filter (fun c => c.state != 1)
  let ws := keep.map (fun c => decodeElem 1 c.weight)
  let ws := if spPolicy r.record = 0 && spRenorm r.record && dropped && !keep.isEmpty then normalised ws else ws
  let cs := t.choices.foldl (fun (a : List Choice × List Val) c =>
    if c.state = 1 then (a.1 ++ [{ c with weight := 0 }], a.2)
    else (a.1 ++ [{ c with weight := f32Bits (a.2.headD zeroVal) }], a.2.drop 1)) ([], ws)
  { t with choices := cs.1 }

/-- The source's round ends with the grant messages that it holds: a mismatch ends the ROUTE; else the grants are
applied, and the next round begins or the phase is over (R224 to R230). -/
def State.endRound (s : State) (id : Nat) : State :=
  match FMap.find? s.druind.runs id with
  | none => s
  | some r =>
    let ranks := List.range r.members.length
    let got (d : Nat) : Option GrantMsg := FMap.find? r.replies (msgKey r.round d)
    let missing := ranks.filter (fun d => (got d).isNone)
    let ms := ranks.filterMap got
    let finish (s : State) (r : RouteRun) (st : Status) : State :=
      let s := if r.status.isNone then s.routeFault r st else s
      (s.dropRun id).routeStandIn r
    if ms.any (fun g => g.mismatch == 1) then finish s r .descMismatch
    else if ms.any (fun g => g.mismatch == 2) then finish s r .placementMismatch
    else
      let short := r.short ++ missing.filter (fun d => !r.short.contains d)
      let left : FMap Nat := ranks.foldl (fun a d =>
        match got d with
        | some g => g.entries.foldl (fun a e => if homeRank r e.1 = d then FMap.insert a e.1 e.2 else a) a
        | none => a) []
      let seed : W64 := match s.seat? r.seat with | some x => x.seedTurn | none => 0
      let base := roTokenBase r.desc
      let ts := r.tokens.foldl (fun (a : List Token × FMap Nat × Nat) t =>
        let x := tokenRound r seed ((base + a.1.length) % 2 ^ 64) a.2.1 t
        (a.1 ++ [x.1], x.2.1, a.2.2 + x.2.2)) ([], left, 0)
      let s := s.dre r.lead 0x3002 ts.2.2
      let next := r.round + 1
      let r := { r with tokens := ts.1, short := short, round := next }
      if next < spRounds r.record then (s.setRun id r).sendCounts id
      else if r.status.isSome then (s.dropRun id).routeStandIn r
      else s.setRun id { r with tokens := r.tokens.map (finalWeights r), finished := true }

/-- Every decision and round that is ready is taken. -/
def State.routePump : Nat → State → Nat → State
  | 0, s, _ => s
  | fuel + 1, s, id =>
    match FMap.find? s.druind.runs id with
    | none => s
    | some r =>
      let ranks := List.range r.members.length
      if r.decided < spRounds r.record && r.decided ≤ r.round
          && ranks.all (fun d => (FMap.find? r.counts (msgKey r.decided d)).isSome) then
        State.routePump fuel (s.decideRound id) id
      else if !r.finished && r.round < spRounds r.record
          && ranks.all (fun d => (FMap.find? r.replies (msgKey r.round d)).isSome) then
        State.routePump fuel (s.endRound id) id
      else s

/-! ### The output area (R232) -/

/-- Offsets in the output area: choice list, counters, dispatch table, variable part. -/
def ouChoices (record : Bytes) : Nat := 64 + spStages record * (64 + 64 * spE record)
def ouCounters (record : Bytes) (t k : Nat) : Nat := ouChoices record + roundUp (t * k * 8) 64
def ouDispatch (record : Bytes) (t k : Nat) : Nat := ouCounters record t k + roundUp (spE record * 16) 64
def ouVar (record : Bytes) (t k m : Nat) : Nat := ouDispatch record t k + 64 + 64 * m

/-- The bytes that OUT_LEN must cover. -/
def ouNeeded (record : Bytes) (t k m l : Nat) : Nat :=
  let nr := spRounds record
  ouVar record t k m + 16 * min (t * k) (spE record * nr) + 4 * t * k + 16 * m * l * nr + 192

/-! ### Hand-over and acceptance (R163, R199, R201, R209, R210, R218, R219, R231, R242) -/

/-- The ROUTE that a context hands over, as its lead engine takes it up: its copy of the active bank, its members, its
rank (R200, R209). None where the bank does not lie in the seat's quota. -/
def State.newRun (s : State) (t c lead : Nat) (x : Seat) (e : Exec) (sp : SpaceRec) : Option RouteRun :=
  let d := e.desc
  let r := sp.record
  let seat := (s.ctx t c).seat
  let group := if roGrant d then s.groupOf seat (roGroup d) else none
  (s.quotaAddr x (if sp.bankB then spBankB r else spBankA r) (8 * spE r)).map (fun ba =>
    { seat := seat, tile := t, ctx := c, addr := e.addr, desc := d, turn := x.turn.toNat, lead := lead,
      share := s.engines x, record := r, bankB := sp.bankB, bank := s.bytes ba (8 * spE r),
      group := if group.isSome then some (roGroup d) else none,
      members := match group with | some g => g.nodes | none => [s.fab.node],
      rank := match group with | some g => grRank g.record | none => 0,
      status := none, round := 0, tokens := [], counts := [], replies := [], decided := 0, rem := [], room := [],
      received := [], granted := [], overflowed := [], dropped := [], grants := [], short := [], finished := false })

/-- A ROUTE begins its grant phase: the messages that came early join it, and its first counts go out (R220, R229). -/
def State.startRun (s : State) (run : RouteRun) : State :=
  let id := s.druind.nextRun
  let s := { s with druind := { s.druind with runs := FMap.insert s.druind.runs id run, nextRun := id + 1 } }
  let s := s.dreSlots run.lead
  let mine (m : EarlyMsg) : Bool :=
    run.group == some m.group && fld m.bytes 0 2 == fld run.record 0 2 && fld m.bytes 4 4 == run.turn % 2 ^ 32
  let ms := s.druind.early.filter mine
  let s := { s with druind := { s.druind with early := s.druind.early.filter (fun m => !mine m) } }
  let run := ms.foldl (fun (r : RouteRun) m =>
    let key := msgKey (byteAt m.bytes 2) m.rank
    if m.reply then { r with replies := FMap.insert r.replies key (decodeGrant true m.bytes) }
    else { r with counts := FMap.insert r.counts key (decodeGrant false m.bytes) }) run
  State.routePump 12 ((s.setRun id run).sendCounts id) id

/-- A ROUTE of a context ends at hand-over with a status. With a known group its member stands in at once (R466), and
with a known space and an engine left it takes part in the grant phase all the same: its counts ask for nothing, and it
decides as a home (R230). -/
def State.routeRefuse (s : State) (t c : Nat) (x : Seat) (d : Bytes) (st : Status) (detail : Nat) : State :=
  let y := s.ctx t c
  let run : Option RouteRun :=
    match y.cur, FMap.find? x.spaces (roSpace d), s.leadOf x t with
    | some e, some sp, some lead => (s.newRun t c lead x e sp).filter (fun r => r.group.isSome)
    | _, _, _ => none
  let s := s.faultCtx t c st detail
  let s := if roGrant d then s.standIn y.seat x.turn.toNat (roSpace d) (roGroup d) [] else s
  match run with
  | some r => s.startRun { r with status := some st }
  | none => s

/-- ROUTE: handed over to its lead engine, or ended at hand-over (R163, R199, R218, R219, R231). -/
def State.routeHandOver (s : State) (t c : Nat) : State :=
  match s.inExec t c 9 with
  | none => s
  | some (v, e) =>
    let d := e.desc
    let x := v.seat
    if s.druind.asks.any (fun a => a.tile == t && a.ctx == c) then s
    else
      match FMap.find? x.spaces (roSpace d) with
      | none => s.routeRefuse t c x d .spaceUnknown 0
      | some rec_ =>
        let k := roK d
        let r := rec_.record
        if x.routed.contains (roSpace d) then s.faultCtx t c .spaceBusy 0
        else
          let s := s.onSeat v.seatNo (fun q => { q with routed := q.routed ++ [roSpace d] })
          if spE r < k || (spPolicy r = 1 && spE r < k * (1 + spProbe r))
              || (roGrant d && (s.groupOf v.seatNo (roGroup d)).isNone) then s.routeRefuse t c x d .descInvalid 0
          else
            match s.leadOf x t with
            | none => s.routeRefuse t c x d .routeAborted 0
            | some lead =>
              let ask : RouteAsk := { tile := t, ctx := c, lead := lead, nc := s.handOverNc t lead }
              { s with druind := { s.druind with asks := s.druind.asks ++ [ask] } }

def execRoute (tile ctx : Nat) (s : State) : Out := .next (s.routeHandOver tile ctx)

/-- The tokens that each engine of a share takes, by ascending region: engine, first token, end (R200). -/
def engineTokens (engines : List Nat) (tokens : Nat) : List (Nat × Nat × Nat) :=
  let n := engines.length
  ((List.range n).zip engines).map (fun ie => (ie.2, ie.1 * tokens / n, (ie.1 + 1) * tokens / n))

/-- The choices of a hashed ROUTE; every engine draws for its own tokens (R200, R203, R217, R218). -/
def State.routeHash (s : State) (seat : Nat) (x : Seat) (engines : List Nat) (d : Bytes) (e : Nat) : State × List Token :=
  (engineTokens engines (roTokens d)).foldl (fun (a : State × List Token) q =>
    let ts := (List.range (q.2.2 - q.2.1)).map (fun i =>
      hashToken x.seedTurn ((roTokenBase d + q.2.1 + i) % 2 ^ 64) (roSpace d) e (roK d))
    let dice := ts.foldl (fun a t => a + t.2) 0
    let work := ceilDiv dice 8 + ceilDiv (ts.length * roK d) 64
    ((a.1.dre q.1 0x3002 dice).dreWork seat q.1 work, a.2 ++ ts.map (·.1))) (s, [])

/-- The choices of a scored ROUTE from its rows of logits at an address; every engine scores its own tokens, at half rate in
an A0 module (R9, R200, R203, R213 to R216). -/
def State.routeScore (s : State) (seat : Nat) (engines : List Nat) (d record : Bytes) (a : Nat) : State × List Token :=
  let e := spE record
  let f := roLogitFmt d
  let sz := fmtBits f / 8
  let p := roundUp (e * sz) 16
  let reserve := if spPolicy record = 1 then roK d * spProbe record else 0
  (engineTokens engines (roTokens d)).foldl (fun (r : State × List Token) q =>
    let n := q.2.2 - q.2.1
    let rows := (List.range n).map (fun i =>
      let row := leNat (s.bytes (a + (q.2.1 + i) * p) (e * sz))
      (List.range e).map (fun j => decodeElem f (elemBits f row j)))
    let nans := rows.foldl (fun a r => a + (r.filter Val.isNan).length) 0
    let work := ceilDiv (n * e) (if s.ident.b1 then 256 else 128) + ceilDiv (n * roK d) 64
    (((r.1.dre q.1 0x3001 (n * e)).dre q.1 0x3003 nans).dreWork seat q.1 work,
      r.2 ++ rows.map (fun l => scoreToken (roMode d == 1) (roNorm d) l (roK d) reserve))) (s, [])

/-- The tokens of a ROUTE, or the cause of the first poison among its logits (R213 to R218, R242). -/
def State.routeTokens (s : State) (seat : Nat) (x : Seat) (engines : List Nat) (d record : Bytes) :
    State × Except Nat (List Token) :=
  let e := spE record
  if roMode d = 2 then
    let r := s.routeHash seat x engines d e
    (r.1, .ok r.2)
  else
    let sz := fmtBits (roLogitFmt d) / 8
    let p := roundUp (e * sz) 16
    match s.descAddr x (roLogits d) (p * roTokens d) with
    | none => (s, .ok [])
    | some a =>
      match (List.range (roTokens d)).findSome? (fun t => s.rangePoison (a + t * p) (e * sz)) with
      | some cause => (s, .error cause)
      | none =>
        let r := (s.hbmMoved seat a (p * roTokens d) false).routeScore seat engines d record a
        (r.1, .ok r.2)

/-- The status with which a ROUTE ends as its lead engine takes it up: an exclusion, poison in its bank, a bank that is
not valid (R210, R242, R264, R495). -/
def State.bankStatus (s : State) (x : Seat) (run : RouteRun) : Option Status :=
  let r := run.record
  let excluded : Bool := match run.group with
    | some g => (x.excluded 2 g (fld r 0 2) run.members.length).contains run.rank
    | none => false
  let poison := (s.quotaAddr x (if run.bankB then spBankB r else spBankA r) (8 * spE r)).bind (fun a => s.rangePoison a (8 * spE r))
  if excluded then some .replayExcluded
  else match poison with
    | some cause => some (poisonStatus cause)
    | none =>
      if bankOk x s.fab.node run.bank (spE r) && (List.range (spE r)).all (fun e => run.members.contains (bkHome run.bank e)) then none
      else some .placementInvalid

/-- A ROUTE is taken up by its lead engine: its bank is loaded and checked, its choices made, and its first counts sent;
its context goes on, or ends with PLACEMENT_INVALID (R200, R203, R210). -/
def State.routeBegin (s : State) (x : Seat) (run : RouteRun) : State :=
  let d := run.desc
  let r := run.record
  let s := match s.quotaAddr x (if run.bankB then spBankB r else spBankA r) (8 * spE r) with
    | some ba => s.hbmMoved run.seat ba (8 * spE r) false
    | none => s
  match s.bankStatus x run with
  | some .placementInvalid => s.routeRefuse run.tile run.ctx x d .placementInvalid 0
  | early =>
    let s := s.markDone run.tile run.ctx
    let s := s.dreWork run.seat run.lead (ceilDiv (8 * spE r) 64)
    let tk : State × Except Nat (List Token) :=
      if early.isSome then (s, .ok []) else s.routeTokens run.seat x run.share d r
    let st : Option Status := early.orElse (fun _ => match tk.2 with | .error c => some (poisonStatus c) | .ok _ => none)
    let run := { run with status := st, tokens := match tk.2 with | .ok ts => ts | .error _ => [] }
    match st with
    | none => tk.1.startRun run
    | some v =>
      let s := (tk.1.routeFault run v).routeStandIn run
      if run.group.isNone then s else s.startRun run

/-- ROUTE_ACCEPT: the first of the hand-overs to an engine, by the nc of its arrival and then by tile, is accepted while
the engine, and the seat on it, has a working slot; an output area that is too small or an address outside the seat ends it
at hand-over (R163, R201, R232). -/
def State.routeAccept (s : State) (i : Nat) : State :=
  match s.druind.asks[i]? with
  | none => s
  | some a =>
    let y := s.ctx a.tile a.ctx
    let drop (s : State) : State := { s with druind := { s.druind with asks := s.druind.asks.eraseIdx i } }
    match y.cur, s.seat? y.seat with
    | some e, some x =>
      if y.state = .faulted || dType e.desc ≠ 9 then drop s
      else
        let d := e.desc
        let seat := y.seat
        let place (b : RouteAsk) : Nat × Nat := (b.nc, s.view (s.ctx b.tile b.ctx).seat b.tile)
        let before (p q : Nat × Nat) : Bool := p.1 < q.1 || (p.1 == q.1 && p.2 < q.2)
        match s.leadOf x a.tile with
        | none => (drop s).routeRefuse a.tile a.ctx x d .routeAborted 0
        | some lead =>
          let held := s.druind.runs.filter (fun r => r.2.lead == lead)
          if s.druind.asks.any (fun b => b.lead == a.lead && before (place b) (place a)) then s
          else if 4 ≤ held.length || recDreSlots x.record ≤ (held.filter (fun r => r.2.seat == seat)).length then s
          else
            let s := drop s
            match FMap.find? x.spaces (roSpace d) with
            | none => s.routeRefuse a.tile a.ctx x d .spaceUnknown 0
            | some sp =>
              let n := roTokens d
              let rowBytes := roundUp (spE sp.record * (fmtBits (roLogitFmt d) / 8)) 16
              match s.newRun a.tile a.ctx lead x e sp with
              | none => s.routeRefuse a.tile a.ctx x d .addrInvalid (if sp.bankB then spBankB sp.record else spBankA sp.record)
              | some run =>
                let l := ((List.range (spE sp.record)).filter (fun e => bkHome run.bank e == s.fab.node)).length
                if (s.descAddr x (roOut d) (max 1 (roOutLen d))).isNone then s.routeRefuse a.tile a.ctx x d .addrInvalid (roOut d)
                else if roOutLen d < ouNeeded sp.record n (roK d) run.members.length l then
                  s.routeRefuse a.tile a.ctx x d .descInvalid 0
                else if roMode d ≠ 2 && (s.descAddr x (roLogits d) (rowBytes * n)).isNone then
                  s.routeRefuse a.tile a.ctx x d .addrInvalid (roLogits d)
                else s.routeBegin x run
    | _, _ => drop s

def execRouteAccept (route : Nat) (s : State) : Out := .next (s.routeAccept route)

/-! ### Messages of the grant phase (R229, R410) -/

/-- A whole message reaches its ROUTE, waits for it, or comes too late and is discarded (R229). -/
def State.grantDeliver (s : State) (reply : Bool) (g rank : Nat) (grp : Group) (b : Bytes) : State :=
  let space := fld b 0 2
  let round := byteAt b 2
  let turn := fld b 4 4
  let mine (kr : Nat × RouteRun) : Bool := kr.2.group == some g && kr.2.seat == grp.seat && fld kr.2.record 0 2 == space
    && kr.2.turn % 2 ^ 32 == turn
  match List.find? mine s.druind.runs with
  | some (id, r) =>
    let late := if reply then round < r.round || r.finished else round < r.decided
    if late then s.dre r.lead 0x3004 1
    else
      let key := msgKey round rank
      let r := if reply then { r with replies := FMap.insert r.replies key (decodeGrant true b) }
        else { r with counts := FMap.insert r.counts key (decodeGrant false b) }
      State.routePump 12 (s.setRun id r) id
  | none =>
    match s.seat? grp.seat with
    | none => s
    | some x =>
      let waits := s.druind.asks.any (fun a => let y := s.ctx a.tile a.ctx
                                             y.seat == grp.seat && (match y.cur with | some e => roSpace e.desc == space | none => false))
      let now := x.turn.toNat % 2 ^ 32
      if seqBefore turn now || (turn = now && x.routed.contains space && !waits) then
        s.dre ((s.engines x).headD 0) 0x3004 1
      else { s with druind := { s.druind with
          early := s.druind.early ++ [{ reply := reply, group := g, rank := rank, bytes := b }] } }

/-- A packet of a count or grant message is admitted by R410 and gathered; the whole message is delivered. -/
def State.grantIn (s : State) (i type : Nat) : State :=
  match s.taken i [type] with
  | none => s
  | some q =>
    let p := q.pkt
    let g := tagGroup p.tag
    let reject (s : State) : State := (s.dropTaken i false).count 0x9008 none (groupHub g) 1
    match FMap.find? s.ni.groups g with
    | none => reject s
    | some grp =>
      match grp.nodes.idxOf? p.src with
      | none => reject s
      | some rank =>
        if s.epochOf grp.seat ≠ p.epoch then reject s
        else
          let s := s.dropTaken i false
          let key := (type * 1024 + g) * 65536 + rank
          let b := FMap.get [] s.druind.gather key ++ p.payload
          let need := if b.length < 20 then 24 else 24 + 4 * fld b 16 4
          let keep (s : State) (v : Bytes) : State :=
            { s with druind := { s.druind with gather := FMap.put [] s.druind.gather key v } }
          if need ≤ b.length then (keep s []).grantDeliver (type == 0x19) g rank grp (b.take need)
          else if p.last then keep s []
          else keep s b

def execGrantCount (index : Nat) (s : State) : Out := .next (s.grantIn index 0x18)
def execGrantReply (index : Nat) (s : State) : Out := .next (s.grantIn index 0x19)

/-- GRANT_HORIZON: the round's wait is over; as a home the member decides with what it has, as a source it takes the homes
that are missing as refusing (R229). -/
def State.grantHorizon (s : State) (id : Nat) : State :=
  match FMap.find? s.druind.runs id with
  | none => s
  | some r =>
    if r.finished || spRounds r.record ≤ r.round then s
    else
      let s := if r.decided = r.round then s.decideRound id else s
      State.routePump 12 (s.endRound id) id

def execGrantHorizon (route : Nat) (s : State) : Out := .next (s.grantHorizon route)

/-! ### The outputs (R232 to R241) -/

/-- The experts homed here with granted rows, ascending: expert, rows, receive cluster, first row in the cluster, rows of
the experts before it (R239). -/
def homedRows (r : RouteRun) : List (Nat × Nat × Nat × Nat × Nat) :=
  let own := r.members.getD r.rank 0
  ((List.range (spE r.record)).foldl (fun (a : List (Nat × Nat × Nat × Nat × Nat) × FMap Nat × Nat) e =>
    let g := FMap.get 0 r.granted e
    if bkHome r.bank e = own && 0 < g then
      let c := bkCluster r.bank e
      let q := FMap.get 0 a.2.1 c
      (a.1 ++ [(e, g, c, q, a.2.2)], FMap.insert a.2.1 c (q + g), a.2.2 + g)
    else a) ([], [], 0)).1

/-- The descriptor address of a seat-view cluster's store. -/
def clusterDesc (c : Nat) : Nat := 0xFFFF * 2 ^ 48 + clusterBase + c * clusterBytes

/-- The Y_PTR of stage s for rows of a cluster (R239). -/
def yPtr (record : Bytes) (s g c q : Nat) : Nat :=
  let st := spStage record s
  if q + g ≤ spRxRows record then clusterDesc c + stYOff st + q * stYLd st
  else spSpillBase record + c * spSpillStride record + spYsp record s + q * stYLd st

/-- An entry of the group table of stage s; additions to a slot reference change only its offset (R138, R239). -/
def groupEntry (r : RouteRun) (s : Nat) (h : Nat × Nat × Nat × Nat × Nat) : Bytes :=
  let (e, g, c, q, rb) := h
  let rec_ := r.record
  let st := spStage rec_ s
  let at_ (k : Nat) : Nat := if stWslot st = 1 then slotAdd (stWBase st) k else stWBase st + k
  let w (k : Nat) : Nat := at_ (bkLocal r.bank e * stStride st + k)
  let sp := spSpillBase rec_ + c * spSpillStride rec_
  let x : Nat × Nat × Nat :=
    if 0 < s then (yPtr rec_ (s - 1) g c q, g, 0)
    else if q + g ≤ spRxRows rec_ then (clusterDesc c + spRxOff rec_ + q * spXLd rec_, g, 0)
    else if q < spRxRows rec_ then (clusterDesc c + spRxOff rec_ + q * spXLd rec_, spRxRows rec_ - q, sp)
    else (sp + (q - spRxRows rec_) * spXLd rec_, 0, sp + (q - spRxRows rec_) * spXLd rec_)
  natLe 2 e ++ [BitVec.ofNat 8 (stWslot st), (0 : Byte)] ++ natLe 4 g ++ natLe 8 x.1 ++ natLe 8 (w (stWOff st)) ++ natLe 8 (yPtr rec_ s g c q)
    ++ natLe 8 0 ++ natLe 8 (if stWsOff st = 0xFFFFFFFF then 0 else w (stWsOff st)) ++ natLe 8 x.2.2 ++ natLe 4 x.2.1 ++ natLe 4 rb

/-- The group table of stage s (R137). -/
def groupTableBytes (r : RouteRun) (s : Nat) : Bytes :=
  let hs := homedRows r
  natLe 4 hs.length ++ natLe 4 (hs.foldl (fun a h => a + h.2.1) 0) ++ natLe 8 r.turn ++ natLe 2 (fld r.record 0 2)
    ++ List.replicate 46 (0 : Byte) ++ hs.flatMap (groupEntry r s)

/-- The send runs toward each member: expert, round, tokens (R237). -/
def sendRuns (r : RouteRun) (rank : Nat) : List (Nat × Nat × List Nat) :=
  let node := r.members.getD rank 0
  ((List.range (spE r.record)).filter (fun e => bkHome r.bank e == node)).flatMap (fun e =>
    (List.range (spRounds r.record)).filterMap (fun k =>
      let ts := ((List.range r.tokens.length).zip r.tokens).filterMap (fun it =>
        if it.2.choices.any (fun c => c.expert == e && c.state == 0 && c.round == k) then some it.1 else none)
      if ts.isEmpty then none else some (e, k, ts)))

/-- The receive runs from each member: expert, round, rows, first row, receive cluster (R238, R239). -/
def recvRuns (r : RouteRun) (rank : Nat) : List (Nat × Nat × Nat × Nat × Nat) :=
  (homedRows r).flatMap (fun h =>
    (List.range (spRounds r.record)).filterMap (fun k =>
      let n (k' d : Nat) : Nat := (r.grants.filter (fun g => g.1 == k' && g.2.1 == d && g.2.2.1 == h.1)).foldl (fun a g => a + g.2.2.2) 0
      let before := (List.range k).foldl (fun a k' => (List.range r.members.length).foldl (fun a d => a + n k' d) a) 0
        + (List.range rank).foldl (fun a d => a + n k d) 0
      if n k rank = 0 then none else some (h.1, k, n k rank, h.2.2.2.1 + before, h.2.2.1)))

/-- The choice list (R234). -/
def choiceBytes (r : RouteRun) : Bytes :=
  r.tokens.flatMap (fun t => t.choices.flatMap (fun c =>
    natLe 2 c.expert ++ [BitVec.ofNat 8 c.state, BitVec.ofNat 8 c.round] ++ natLe 4 c.weight))

/-- The expert counters (R235). -/
def counterBytes (r : RouteRun) : Bytes :=
  let own := r.members.getD r.rank 0
  (List.range (spE r.record)).flatMap (fun e =>
    if bkHome r.bank e = own then
      natLe 4 (FMap.get 0 r.received e) ++ natLe 4 (FMap.get 0 r.granted e) ++ natLe 4 (FMap.get 0 r.overflowed e)
        ++ natLe 4 (FMap.get 0 r.dropped e)
    else List.replicate 16 (0 : Byte))

/-- The route header (R233). -/
def routeHeader (r : RouteRun) : Bytes :=
  let hs := homedRows r
  let n (st : Nat) : Nat := r.tokens.foldl (fun a t => a + (t.choices.filter (fun c => c.state == st)).length) 0
  let spilled := hs.foldl (fun a h => a + min h.2.1 (h.2.2.2.1 + h.2.1 - spRxRows r.record)) 0
  let own := r.members.getD r.rank 0
  let l := ((List.range (spE r.record)).filter (fun e => bkHome r.bank e == own)).length
  natLe 8 r.turn ++ natLe 2 (fld r.record 0 2) ++ [BitVec.ofNat 8 (roK r.desc),
    BitVec.ofNat 8 (b2n (!r.short.isEmpty) + 2 * b2n r.bankB + 4 * b2n (0 < spilled))]
    ++ natLe 4 (roTokens r.desc) ++ natLe 4 (n 0) ++ natLe 4 (n 1) ++ natLe 4 (n 2) ++ natLe 4 spilled ++ natLe 4 l
    ++ natLe 4 hs.length ++ natLe 2 r.members.length ++ natLe 2 r.short.length ++ natLe 4 (placementDigest r.bank)
    ++ [BitVec.ofNat 8 (spRounds r.record)] ++ List.replicate 15 (0 : Byte)

/-- Everything that a ROUTE writes, at offsets of its output area, in the order of R241; the header last (R232 to R241). -/
def routeOutputs (r : RouteRun) : List (Nat × Bytes) :=
  let t := roTokens r.desc
  let k := roK r.desc
  let m := r.members.length
  let ranks := List.range m
  let sends := ranks.map (sendRuns r)
  let recvs := ranks.map (recvRuns r)
  let v := ouVar r.record t k m
  let nSend := sends.foldl (fun a x => a + x.length) 0
  let rowsAt := roundUp (v + 16 * nSend) 64
  let nRows := sends.foldl (fun a x => x.foldl (fun a q => a + q.2.2.length) a) 0
  let recvAt := roundUp (rowsAt + 4 * nRows) 64
  let runBytes := (sends.foldl (fun a x => x.foldl (fun (a : Bytes × Nat) q =>
    (a.1 ++ natLe 2 q.1 ++ [BitVec.ofNat 8 q.2.1, 0] ++ natLe 4 q.2.2.length ++ natLe 4 a.2 ++ List.replicate 4 (0 : Byte), a.2 + q.2.2.length)) a) (([] : Bytes), 0)).1
  let rowBytes := sends.flatMap (fun x => x.flatMap (fun q => q.2.2.flatMap (fun t => natLe 4 t)))
  let recvBytes := recvs.flatMap (fun x => x.flatMap (fun q =>
    natLe 2 q.1 ++ [BitVec.ofNat 8 q.2.1, 0] ++ natLe 4 q.2.2.1 ++ natLe 4 q.2.2.2.1 ++ natLe 2 q.2.2.2.2 ++ List.replicate 2 (0 : Byte)))
  let entry (a : Bytes × Nat × Nat) (d : Nat) : Bytes × Nat × Nat :=
    let sr := sends.getD d []
    let rr := recvs.getD d []
    let sn := sr.foldl (fun a q => a + q.2.2.length) 0
    let rn := rr.foldl (fun a q => a + q.2.2.1) 0
    (a.1 ++ natLe 2 (r.members.getD d 0) ++ natLe 2 d
      ++ [BitVec.ofNat 8 (b2n (sn == 0) + 2 * b2n (rn == 0) + 4 * b2n (r.short.contains d)), 0, 0, 0]
      ++ natLe 4 sn ++ natLe 4 sr.length ++ natLe 8 (roOut r.desc + v + 16 * a.2.1)
      ++ natLe 4 rn ++ natLe 4 rr.length ++ natLe 8 (roOut r.desc + recvAt + 16 * a.2.2) ++ List.replicate 24 (0 : Byte),
     a.2.1 + sr.length, a.2.2 + rr.length)
  let dispatch := natLe 8 r.turn ++ natLe 2 m ++ natLe 2 r.rank ++ List.replicate 52 (0 : Byte) ++ (ranks.foldl entry (([] : Bytes), 0, 0)).1
  [(ouChoices r.record, choiceBytes r), (ouCounters r.record t k, counterBytes r), (v, runBytes), (rowsAt, rowBytes),
   (recvAt, recvBytes), (ouDispatch r.record t k, dispatch)]
  ++ (List.range (spStages r.record)).map (fun st => (64 + st * (64 + 64 * spE r.record), groupTableBytes r st))
  ++ [(0, routeHeader r)]

/-- ROUTE_TABLES_WRITTEN: a ROUTE whose grant phase is over writes its outputs and makes its completion signal, and its
working slot frees (R201, R229, R241). -/
def State.routeWritten (s : State) (id : Nat) : State :=
  match FMap.find? s.druind.runs id with
  | none => s
  | some r =>
    match s.seat? r.seat with
    | none => s.dropRun id
    | some x =>
      if !r.finished then s
      else
        match s.descAddr x (roOut r.desc) (roOutLen r.desc) with
        | none => ((s.routeFault r .addrInvalid (roOut r.desc)).dropRun id).routeStandIn r
        | some a =>
          let outs := routeOutputs r
          let s := outs.foldl (fun s ob => s.seatStore r.seat (a + ob.1) ob.2) s
          let s := s.dreWork r.seat r.lead (ceilDiv (outs.foldl (fun a ob => a + ob.2.length) 0) 64)
          let s := if r.short.isEmpty then s else
            s.onSeat r.seat (fun q => { q with facts := { q.facts with short := true, shortCalls := q.facts.shortCalls + 1 } })
          let view := s.view r.seat r.tile
          let s := if dSig r.desc then (match crefTarget x view (dSigRef r.desc) with
              | some g =>
                let sig : Signal := { seat := r.seat, target := g, isSet := false, value := BitVec.ofNat 32 (dSigVal r.desc),
                                      tile := view, ctx := r.ctx, parks := false }
                s.sendSignal sig
              | none => s) else s
          s.dropRun id

def execRouteTablesWritten (route : Nat) (s : State) : Out := .next (s.routeWritten route)

/-! ### Failures (R242) and the end of a drain (R614) -/

/-- A ROUTE in flight ends with a status, taking no further part. -/
def State.routeKill (s : State) (id : Nat) (st : Status) : State :=
  match FMap.find? s.druind.runs id with
  | none => s
  | some r =>
    let s := if r.status.isNone then s.routeFault r st else s
    (s.dropRun id).routeStandIn r

/-- An engine is lost: every ROUTE of its share that has not written its tables ends with ROUTE_ABORTED; with its lead
left, one that is before the end of its grant phase goes on with it by R230 (R242). -/
def State.druindLost (s : State) (region : Nat) : State :=
  if s.units.lostDruinds.contains region then s
  else
    let s := { s with units := { s.units with lostDruinds := s.units.lostDruinds ++ [region] } }
    let move (a : RouteAsk) : RouteAsk :=
      if a.lead ≠ region then a
      else { a with lead := ((s.seat? (s.ctx a.tile a.ctx).seat).bind (fun x => s.leadOf x a.tile)).getD region }
    let s := { s with druind := { s.druind with asks := s.druind.asks.map move } }
    s.druind.runs.foldl (fun s kr =>
      let r := kr.2
      if r.lead = region then s.routeKill kr.1 .routeAborted
      else if r.share.contains region && r.status.isNone then
        if r.group.isNone || r.finished then s.routeKill kr.1 .routeAborted
        else (s.routeFault r .routeAborted).setRun kr.1 { r with status := some .routeAborted, tokens := [] }
      else s) s

/-- DRUIND_ENGINE_FAILURE: an engine fails (R242); the withdrawal of its region is REGION_WITHDRAWN's (R20). -/
def execDruindEngineFailure (region : Nat) (s : State) : Out := .next (if region < 16 then s.druindLost region else s)

end Sys2Proof.Machine
end

