-- ==== Sys2Proof/Machine/Exchange.lean ====
section
/-!
DEFINITION. Expert exchange between packages: EXCHANGE and RETURN (R443 to R447, R459 to R462), PERM_DATA (R448 to R456),
the combine (R463, R464), the result records (R465), the end of an action (R402, R457).
-/

namespace Sys2Proof.Machine

/-! ### The tables of a ROUTE (R232 to R239, R447) -/

/-- n bytes at a descriptor address of the seat, 0 where it does not reach them. -/
def State.rdAt (s : State) (x : Seat) (a n : Nat) : Nat :=
  match s.descAddr x a n with
  | some p => leNat (s.bytes p n)
  | none => 0

/-- The fields of the route header at `out`, with the space record in force. -/
structure RouteTab where
  out : Nat
  turn : Nat
  space : Nat
  k : Nat
  bankB : Bool
  tokens : Nat
  nShared : Nat
  members : Nat
  record : Bytes
deriving DecidableEq, Repr

def State.routeTab (s : State) (x : Seat) (out : Nat) (record : Bytes) : RouteTab :=
  { out := out, turn := s.rdAt x out 8, space := s.rdAt x (out + 8) 2, k := s.rdAt x (out + 10) 1,
    bankB := bit (s.rdAt x (out + 11) 1) 1, tokens := s.rdAt x (out + 12) 4, nShared := s.rdAt x (out + 24) 4,
    members := s.rdAt x (out + 40) 2, record := record }

/-- The descriptor address of the dispatch entry of a rank. -/
def RouteTab.entry (q : RouteTab) (r : Nat) : Nat := q.out + ouDispatch q.record q.tokens q.k + 64 + 64 * r

/-- The send row list: the first multiple of 64 of the output area after the last send run (R447). -/
def State.sendRowList (s : State) (x : Seat) (q : RouteTab) : Nat :=
  let e := q.entry (q.members - 1)
  q.out + roundUp (s.rdAt x (e + 16) 8 + 16 * s.rdAt x (e + 12) 4 - q.out) 64

/-- The rows sent to a rank in order: token and expert (R237). -/
def State.sendRows (s : State) (x : Seat) (q : RouteTab) (r : Nat) : List (Nat × Nat) :=
  let e := q.entry r
  let rows := s.sendRowList x q
  (List.range (s.rdAt x (e + 12) 4)).flatMap (fun i =>
    let run := s.rdAt x (e + 16) 8 + 16 * i
    (List.range (s.rdAt x (run + 4) 4)).map (fun k =>
      (s.rdAt x (rows + 4 * (s.rdAt x (run + 8) 4 + k)) 4, s.rdAt x run 2)))

/-- The receive runs from a rank: expert, rows, first row, cluster (R238). -/
def State.rxRuns (s : State) (x : Seat) (q : RouteTab) (r : Nat) : List (Nat × Nat × Nat × Nat) :=
  let e := q.entry r
  (List.range (s.rdAt x (e + 28) 4)).map (fun i =>
    let run := s.rdAt x (e + 32) 8 + 16 * i
    (s.rdAt x run 2, s.rdAt x (run + 4) 4, s.rdAt x (run + 8) 4, s.rdAt x (run + 12) 2))

/-- The rows received from a rank in order: expert, row, cluster. -/
def State.rxRows (s : State) (x : Seat) (q : RouteTab) (r : Nat) : List (Nat × Nat × Nat) :=
  (s.rxRuns x q r).flatMap (fun u => (List.range u.2.1).map (fun k => (u.1, u.2.2.1 + k, u.2.2.2)))

/-- The descriptor address of a token's source row (R204). -/
def srcRow (record : Bytes) (t : Nat) : Nat :=
  let tpc := max 1 (spTpc record)
  clusterDesc (spSrcCluster record + t / tpc) + spSrcOff record + t % tpc * spXLd record

/-- The descriptor address of received row n of a cluster (R271). -/
def rxRow (record : Bytes) (c n : Nat) : Nat :=
  if n < spRxRows record then clusterDesc c + spRxOff record + n * spXLd record
  else spSpillBase record + c * spSpillStride record + (n - spRxRows record) * spXLd record

/-- The place of an expert's entry in the group table of the last stage. -/
def State.lastEntry (s : State) (x : Seat) (q : RouteTab) (e : Nat) : Option Nat :=
  let t := q.out + 64 + (spStages q.record - 1) * (64 + 64 * spE q.record)
  ((List.range (min (s.rdAt x t 4) (spE q.record))).map (fun i => t + 64 + 64 * i)).find? (fun a => s.rdAt x a 2 == e)

/-- The part of an expert homed at a node: ⌊x × PARTS / L⌋ (R459). -/
def State.partOf (s : State) (x : Seat) (q : RouteTab) (parts e : Nat) : Nat :=
  let b := if q.bankB then spBankB q.record else spBankA q.record
  let home (i : Nat) : Nat := s.rdAt x (b + 8 * i) 2
  let here := (List.range (spE q.record)).filter (fun i => home i == home e)
  (here.idxOf? e).getD 0 * parts / max 1 here.length

/-- The row from which a home returns the output of received row n of an expert (R460). -/
def State.outRow (s : State) (x : Seat) (q : RouteTab) (e n : Nat) : Nat :=
  let q0 := (List.range q.members).foldl (fun a r =>
    (s.rxRuns x q r).foldl (fun a u => if u.1 = e then min a u.2.2.1 else a) a) n
  match s.lastEntry x q e with
  | some g => s.rdAt x (g + 24) 8 + (n - q0) * stYLd (spStage q.record (spStages q.record - 1))
  | none => 0

/-! ### The combine record (R445) -/

def cbBase (b : Bytes) := fld b 0 8
def cbLd (b : Bytes) := fld b 8 4
def cbFmt (b : Bytes) := byteAt b 12
def cbOutFmt (b : Bytes) := byteAt b 13
def cbCvt (b : Bytes) := byteAt b 14
def cbOutCs (b : Bytes) := bit (byteAt b 15) 0
def cbOutBase (b : Bytes) := fld b 16 8
def cbOutLd (b : Bytes) := fld b 24 4
def cbElems (b : Bytes) := fld b 28 2
def cbMask (b : Bytes) := fld b 30 2
def cbRecords (b : Bytes) := fld b 32 8
def cbStage (b : Bytes) := fld b 40 4
def cbStageLen (b : Bytes) := fld b 44 4
def cbShBase (b : Bytes) (i : Nat) := fld b (64 + 16 * i) 8
def cbShLd (b : Bytes) (i : Nat) := fld b (72 + 16 * i) 4
def cbGate (b : Bytes) (i : Nat) := fld b (76 + 16 * i) 4

/-- The return row length RB. -/
def cbRow (b : Bytes) : Nat := packedLen (cbFmt b) (cbElems b)

/-- The combine record of a RETURN. -/
def State.combineRec (s : State) (x : Seat) (b : Bytes) : Bytes :=
  match s.descAddr x (reCombine b) 320 with
  | some a => s.bytes a 320
  | none => []

/-- The place where the row of a token and expert returns (R461). -/
def State.retRow (s : State) (x : Seat) (q : RouteTab) (cb : Bytes) (t e : Nat) : Nat :=
  let at_ (j : Nat) : Nat := q.out + ouChoices q.record + (t * q.k + j) * 8
  let j := ((List.range q.k).find? (fun j => s.rdAt x (at_ j) 2 == e && s.rdAt x (at_ j + 2) 1 == 0)).getD 0
  cbBase cb + (t * q.k + j) * cbLd cb

/-! ### Messages as rows (R450, R453, R460, R461) -/

/-- The fields of an EXCHANGE or RETURN that both have. -/
structure PermEnv where
  isReturn : Bool
  args : Bytes
  space : Nat
  group : Nat
  part : Nat
  parts : Nat
  row : Nat
  tab : RouteTab
  cb : Bytes
deriving DecidableEq, Repr

/-- What an EXCHANGE or RETURN takes from its arguments, with the space record in force when it fired (R447). -/
def State.permEnv (s : State) (a : Action) (x : Seat) : PermEnv :=
  let b := a.trig.args
  let ret := a.trig.action == 0x29
  let space := if ret then reSpace b else exSpace b
  let record := match a.perm, FMap.find? x.spaces space with
    | some p, _ => p.record
    | none, some r => r.record
    | none, none => []
  let cb := match a.perm with
    | some p => p.cb
    | none => if ret then s.combineRec x b else []
  { isReturn := ret, args := b, space := space, group := if ret then reGroup b else exGroup b,
    part := if ret then rePart b else 0, parts := if ret then reParts b else 1,
    row := if ret then cbRow cb else exRowBytes b, tab := s.routeTab x (exOut b) record, cb := cb }

/-- The descriptor addresses of the rows of the message that an action expects from a rank. -/
def State.rowsFrom (s : State) (x : Seat) (v : PermEnv) (r : Nat) : List Nat :=
  if v.isReturn then
    ((s.sendRows x v.tab r).filter (fun te => s.partOf x v.tab v.parts te.2 == v.part)).map (fun te => s.retRow x v.tab v.cb te.1 te.2)
  else (s.rxRows x v.tab r).map (fun q => rxRow v.tab.record q.2.2 q.2.1)

/-- The descriptor addresses of the rows that an action sends to a rank; a RETURN sends what the exchange message of the
rank delivered whole. -/
def State.rowsTo (s : State) (x : Seat) (v : PermEnv) (whole : List Nat) (r : Nat) : List Nat :=
  if v.isReturn then
    (((s.rxRows x v.tab r).take (whole.getD r 0)).filter (fun q => s.partOf x v.tab v.parts q.1 == v.part)).map (fun q =>
      s.outRow x v.tab q.1 q.2.1)
  else (s.sendRows x v.tab r).map (fun te => srcRow v.tab.record te.1)

/-- The places of rows of n bytes, or none where the seat does not reach one. -/
def State.rowPlaces (s : State) (x : Seat) (n : Nat) : List Nat → Option (List (Nat × Nat))
  | [] => some []
  | a :: t =>
    match s.descAddr x a n, s.rowPlaces x n t with
    | some p, some l => some ((p, n) :: l)
    | _, _ => none

/-- The first n bytes of pieces of memory, and the rest. -/
def takePieces : List (Nat × Nat) → Nat → List (Nat × Nat) × List (Nat × Nat)
  | [], _ => ([], [])
  | p :: t, n =>
    if n = 0 then ([], p :: t)
    else if p.2 ≤ n then
      let r := takePieces t (n - p.2)
      (p :: r.1, r.2)
    else ([(p.1, n)], (p.1 + n, p.2 - n) :: t)

/-- Pieces cut into packets of 4,096 bytes (R450). -/
def cutPieces : Nat → List (Nat × Nat) → List (List (Nat × Nat))
  | 0, _ => []
  | fuel + 1, ps =>
    if ps.isEmpty then []
    else
      let r := takePieces ps 4096
      r.1 :: cutPieces fuel r.2

/-! ### Result records (R465) -/

/-- Members of an action's group, one without a group. -/
def State.permMembers (s : State) (seat g : Nat) : Nat :=
  match s.groupOf seat g with
  | some grp => grMembers grp.record
  | none => 1

/-- Ranks whose message came whole, but for those that an exclusion record names for the space (R465, R495). -/
def State.wholeRanks (s : State) (seat : Nat) (p : PermRun) : List Nat :=
  let m := p.msgs.length
  let out : List Nat := match s.seat? seat with
    | some x => x.excluded 2 p.group p.space m ++ x.excluded 3 p.group p.space m
    | none => []
  (List.range m).filter (fun r => (p.msgs.getD r {}).end_ == 1 && !out.contains r)

/-- The bytes of a result record. -/
def State.permRecord (s : State) (seat kind : Nat) (p : PermRun) (st : Status) (standin : Bool) : Bytes :=
  let m := p.msgs.length
  let whole := s.wholeRanks seat p
  let cut := p.msgs.any (fun q => q.end_ == 2 || q.end_ == 3)
  natLe 2 (statusCode st) ++ [BitVec.ofNat 8 (b2n cut + 2 * b2n standin), BitVec.ofNat 8 kind] ++ natLe 4 p.turn ++ natLe 2 p.space
    ++ [BitVec.ofNat 8 p.part, (0 : Byte)] ++ natLe 2 whole.length ++ [(0 : Byte), 0] ++ natLe 4 p.rowsOut ++ natLe 4 p.rowsIn
    ++ natLe 4 p.rowsZero ++ natLe 4 p.emptyIn ++ List.replicate 32 (0 : Byte)
    ++ natLe ((m + 7) / 8) (whole.foldl (fun a r => a + 2 ^ r) 0)

/-- A result record is written at its address. -/
def State.permWrite (s : State) (a : Action) (x : Seat) (p : PermRun) (st : Status) (standin : Bool) : State :=
  let v := s.permEnv a x
  let rs := 64 + roundUp ((p.msgs.length + 7) / 8) 64
  let at_ := if v.isReturn then cbRecords v.cb + p.part * rs else exRecord v.args
  let r := s.permRecord a.seat a.trig.action p st standin
  match s.descAddr x at_ r.length with
  | some q => (s.localAccess a.seat a.hub q r.length true).store q r
  | none => s

/-! ### The end of an EXCHANGE or RETURN (R446, R454, R457, R462, R466) -/

/-- An error of an action is noted for its turn, with a fault record; SHORT is no error, an exclusion no failure (R168,
R495). -/
def State.permError (s : State) (a : Action) (turn : Nat) (st : Status) : State :=
  if st = .success || st = .replayExcluded then s
  else if st = .short then
    s.onSeat a.seat (fun q => { q with facts := { q.facts with short := true, shortCalls := q.facts.shortCalls + 1 } })
  else
    (s.failTurn a.seat st).faultRecord a.seat unitRank (faultBytes st 0 10 0 0 turn 0)

def State.addPermDone (s : State) (d : PermDone) : State := { s with ni := { s.ni with permDone := s.ni.permDone ++ [d] } }

/-- The EXCHANGE of a seat, turn and space that has ended. -/
def State.exchangeDone (s : State) (seat turn space : Nat) : Option PermDone :=
  s.ni.permDone.find? (fun d => d.seat == seat && d.turn == turn && d.space == space && d.kind == 0x28)

def State.isStandIn (s : State) (seat turn space : Nat) : Bool :=
  s.ni.standIns.any (fun i => i.seat == seat && i.turn == turn && i.space == space)

/-- The members to which the EXCHANGE of a space and turn has begun a message (R466): every one, once it has ended. -/
def State.exchangeBegun (s : State) (seat turn space : Nat) : List Nat :=
  match s.ni.actions.findSome? (fun ka => if ka.2.seat = seat && ka.2.trig.action = 0x28 then
      ka.2.perm.bind (fun p => if p.turn = turn && p.space = space then some p.begunTo else none) else none) with
  | some l => l
  | none => if (s.exchangeDone seat turn space).isSome then List.range 65536 else []

/-- The action ends as a stand-in: its record with STANDIN, EMPTY messages to those that have none, its status. -/
def State.permFail (s : State) (id : Nat) (a : Action) (x : Seat) (p : PermRun) (st : Status) : State :=
  let s := s.permWrite a x p st true
  let s := s.permError a p.turn st
  let s := s.standIn a.seat p.turn p.space p.group (s.exchangeBegun a.seat p.turn p.space)
  let s := s.addPermDone { seat := a.seat, turn := p.turn, space := p.space, kind := a.trig.action, part := p.part, status := st,
                           wholeRows := [] }
  s.actionOver id st

/-- An action changed in its progress. -/
def State.setPerm (s : State) (id : Nat) (p : PermRun) : State := s.setAction id (fun a => { a with perm := some p })

/-- No packet that an action sent waits for an acknowledgement (R457, R462). -/
def State.permAcked (s : State) (id : Nat) : Bool :=
  !(s.ni.tx.any (fun k => k.2.unacked.any (fun u => decide (u.owner = some (.action id)))))

/-- The status with which its traffic and messages leave an action (R359, R441, R454, R455). -/
def permStatus (p : PermRun) : Status :=
  if let some st := p.lost then st
  else if p.msgs.any (fun q => q.end_ == 4) then .lengthMismatch
  else if p.msgs.any (fun q => q.end_ == 2 || q.end_ == 3) then .short
  else .success

/-- The action's receiving ends when a message from every member has; the EXCHANGE signals RX_CTR (R457). -/
def State.permSettle (s : State) (id : Nat) (a : Action) (p : PermRun) : State :=
  if p.received || p.waiting || p.msgs.any (fun q => q.end_ == 0) then s.setPerm id p
  else
    let s := s.setPerm id { p with received := true }
    if a.trig.action = 0x28 && exRxCtr a.trig.args ≠ 0xFFFFFFFF then s.niSignal a.seat (exRxCtr a.trig.args) 1 else s

/-! ### Receiving (R453 to R455) -/

/-- Rows of a message that lie in spill areas are counted, by region, and cost the kernels on their stacks their exact time
(R258, R272). -/
def State.spillCount (s : State) (seat : Nat) (x : Seat) (v : PermEnv) (rows : List Nat) : State :=
  if v.isReturn then s
  else rows.foldl (fun s a =>
    match s.descAddr x a v.row with
    | some p => if p < hbmEnd then ((s.count 0x5000 (some seat) (regionOf p) 1).count 0x5001 (some seat) (regionOf p) v.row).rangeInexact p v.row else s
    | none => s) s

/-- A rank's message to an action ends: 1 whole, 2 short, 3 abandoned, 4 of another length; rows that are not whole are
zeroed. -/
def State.messageOver (s : State) (a : Action) (x : Seat) (p : PermRun) (v : PermEnv) (r how : Nat) : State × PermRun :=
  let rows := s.rowsFrom x v r
  let q := p.msgs.getD r {}
  let n := if how = 3 then 0 else q.got / max 1 v.row
  let bad := rows.drop n
  let s := bad.foldl (fun s at_ =>
    match s.descAddr x at_ v.row with
    | some d => s.niLand a.seat a.hub d (List.replicate v.row 0) []
    | none => s) s
  let s := s.spillCount a.seat x v rows
  let hub := groupHub p.group
  let s := s.count 0x9014 (some a.seat) hub (rows.length - bad.length)
  let s := if how = 2 then s.count 0x900F (some a.seat) hub 1 else s
  (s, { p with msgs := p.msgs.set r { q with end_ := how },
               rowsIn := p.rowsIn + (rows.length - bad.length), rowsZero := p.rowsZero + bad.length })

/-- A packet of a rank's message to an action (R353, R354, R453, R454). -/
def State.messageData (s : State) (id : Nat) (a : Action) (x : Seat) (p : PermRun) (r : Nat) (k : Packet) : State :=
  let v := s.permEnv a x
  let q := p.msgs.getD r {}
  let hub := groupHub p.group
  if q.end_ ≠ 0 then (if q.end_ = 3 then s.count 0x9010 (some a.seat) hub 1
    else if k.payload.isEmpty then s
    else s.setPerm id { p with msgs := p.msgs.set r { q with end_ := 4 } })
  else
    let rows := s.rowsFrom x v r
    let len := rows.length * v.row
    let empty := k.payload.isEmpty && q.got == 0
    let s := if empty then s.count 0x9015 (some a.seat) hub 1 else s
    let p := if empty then { p with emptyIn := p.emptyIn + 1 } else p
    let step := messageStep len q.got k.payload.length k.last
    let pieces := (takePieces (takePieces ((s.rowPlaces x v.row rows).getD []) q.got).2 step.1).1
    let s := (pieces.foldl (fun (b : State × Nat) pc =>
      (b.1.niLand a.seat a.hub pc.1 ((k.payload.drop b.2).take pc.2)
         (k.bad.filterMap (fun i => if b.2 ≤ i && i < b.2 + pc.2 then some (i - b.2) else none)), b.2 + pc.2)) (s, 0)).1
    let got := q.got + step.1
    let p := { p with msgs := p.msgs.set r { q with got := got } }
    if !step.2.1 then s.setPerm id p
    else
      let how := if got < len then 2 else if step.2.2 then 4 else 1
      let z := s.messageOver a x p v r how
      z.1.permSettle id a z.2

/-- A return message for every part completes the sender's message of an action with what has come (R466). -/
def State.messageAll (s : State) (id : Nat) (a : Action) (x : Seat) (p : PermRun) (r : Nat) : State :=
  let q := p.msgs.getD r {}
  if q.end_ ≠ 0 then s
  else
    let v := s.permEnv a x
    let len := (s.rowsFrom x v r).length * v.row
    let s := if q.got = 0 then s.count 0x9015 (some a.seat) (groupHub p.group) 1 else s
    let p := if q.got = 0 then { p with emptyIn := p.emptyIn + 1 } else p
    let z := s.messageOver a x p v r (if q.got < len then 2 else 1)
    z.1.permSettle id a z.2

/-- The action of a seat that a PERM_DATA packet belongs to, by INST, DIR, PART and the space (R449). -/
def State.permMatch (s : State) (seat inst step : Nat) : Option (Nat × Action × PermRun) :=
  s.ni.actions.findSome? (fun ka =>
    match ka.2.perm with
    | none => none
    | some p =>
      if ka.2.seat = seat && ka.2.status.isNone && p.turn % 64 = inst && p.space % 2048 = step % 2048
          && (ka.2.trig.action == 0x29) = bit step 15 && p.part = bits step 14 11 then some (ka.1, ka.2, p) else none)

/-- A packet for a rank is taken: acknowledged, with the hc it was held until its action or stand-in began (R456). -/
def State.permTaken (s : State) (i : Nat) (q : Inbound) (seat hub : Nat) (began : Nat) : State :=
  let s := (s.dropTaken i true).ackIfDue q.pkt.rxKey
  s.count 0x9011 (some seat) hub ((began - q.at_) / hcUnits)

/-- PERM_DATA: admitted by R410 and matched to its action, discarded by a stand-in or as stale, or held (R449, R453 to
R456, R466). -/
def State.permData (s : State) (i : Nat) : State :=
  match s.taken i [0x12] with
  | none => s
  | some q =>
    let k := q.pkt
    let g := tagGroup k.tag
    let hub := groupHub g
    let reject (s : State) : State := (s.dropTaken i false).count 0x9008 none hub 1
    match FMap.find? s.ni.groups g with
    | none => reject s
    | some grp =>
      match grp.nodes.idxOf? k.src, s.seat? grp.seat with
      | some r, some x =>
        if s.epochOf grp.seat ≠ k.epoch then reject s
        else
          let inst := tagInst k.tag
          let step := tagStep k.tag
          let seat := grp.seat
          let here (turn space : Nat) : Bool := turn % 64 == inst && space % 2048 == step % 2048
          match s.ni.standIns.find? (fun z => z.seat == seat && here z.turn z.space) with
          | some z => s.permTaken i q seat hub z.began
          | none =>
            let now := x.turn.toNat % 64
            if bit step 15 && bits step 14 11 = 15 then
              if inst = now then
                let s := s.permTaken i q seat hub q.at_
                let space := step % 2048
                let part : AllParts := { seat := seat, turn := x.turn.toNat, space := space, rank := r }
                let s : State := { s with ni := { s.ni with allParts := s.ni.allParts ++ [part] } }
                s.ni.actions.foldl (fun (s : State) (ka : Nat × Action) =>
                  match ka.2.perm with
                  | some p =>
                    if ka.2.seat = seat && ka.2.trig.action = 0x29 && ka.2.status.isNone && here p.turn p.space
                    then s.messageAll ka.1 ka.2 x p r else s
                  | none => s) s
              else if inst = (now + 1) % 64 then s
              else (s.permTaken i q seat hub s.time).count 0x9012 (some seat) hub 1
            else
              match s.permMatch seat inst step with
              | some (id, a, p) => (s.permTaken i q seat hub p.began).messageData id a x p r k
              | none =>
                let kind := if bit step 15 then 0x29 else 0x28
                if s.ni.permDone.any (fun d => d.seat == seat && here d.turn d.space && d.kind == kind
                    && d.part == bits step 14 11 && d.turn == x.turn.toNat) then
                  (s.permTaken i q seat hub q.at_).count 0x9010 (some seat) hub 1
                else if inst = now || inst = (now + 1) % 64 then s
                else (s.permTaken i q seat hub s.time).count 0x9012 (some seat) hub 1
      | _, _ => reject s

def execPermData (index : Nat) (s : State) : Out := .next (s.permData index)

/-- EXCHANGE_HORIZON: the messages of an action that are not complete are abandoned and their rows zeroed (R455). -/
def State.permHorizon (s : State) (id : Nat) : State :=
  match FMap.find? s.ni.actions id with
  | none => s
  | some a =>
    match a.perm, s.seat? a.seat with
    | some p, some x =>
      if p.waiting || p.received || a.status.isSome then s
      else
        let v := s.permEnv a x
        let z := (List.range p.msgs.length).foldl (fun (b : State × PermRun) r =>
          if (b.2.msgs.getD r {}).end_ ≠ 0 then b else b.1.messageOver a x b.2 v r 3) (s, p)
        z.1.permSettle id a z.2
    | _, _ => s

def execExchangeHorizon (action : Nat) (s : State) : Out := .next (s.permHorizon action)

/-! ### Sending (R450 to R452, R460) -/

/-- The rows of an action go out, one packet to each member in turn from the next rank on, EMPTY where there is none; the
message to the own rank is copied (R451, R452). -/
def State.permSend (s : State) (id : Nat) (a : Action) (x : Seat) (p : PermRun) (v : PermEnv) (whole : List Nat) : State × PermRun :=
  let m := p.msgs.length
  let me : Nat := match s.groupOf a.seat p.group with | some grp => grRank grp.record | none => 0
  let places (r : Nat) : List (Nat × Nat) := (s.rowPlaces x v.row (s.rowsTo x v whole r)).getD []
  let others := ((List.range m).drop 1).map (fun i => (me + i) % m)
  let msgs : List (Nat × List (List (Nat × Nat))) := others.map (fun r =>
    let ps := places r
    (r, if ps.isEmpty then [[]] else cutPieces (ps.length * v.row / 4096 + 1) ps))
  let rounds := msgs.foldl (fun n q => max n q.2.length) 0
  let s0 := s
  let s := match s.groupOf a.seat p.group with
    | none => s
    | some grp =>
      (List.range rounds).foldl (fun s k =>
        msgs.foldl (fun (s : State) (q : Nat × List (List (Nat × Nat))) =>
          match (q.2[k]? : Option (List (Nat × Nat))) with
          | none => s
          | some (ps : List (Nat × Nat)) =>
            let base := permPacket s0 p.group grp q.1 (b2n v.isReturn) v.part v.space p.turn [] (k + 1 == q.2.length)
            let pk := { base with empty := ps.isEmpty }
            s.sendSeat (groupHub p.group) a.seat pk ps (some (.action id))) s) s
  let own := (places me).zip ((s0.rowPlaces x v.row (s0.rowsFrom x v me)).getD [])
  let s := own.foldl (fun s q => s.niMove a.seat a.hub q.1.1 q.2.1 v.row) s
  let out := others.foldl (fun n r => n + (places r).length) own.length
  let s := s.count 0x9013 (some a.seat) (groupHub p.group) out
  let lost := ((FMap.find? s.ni.actions id).bind (fun a => a.perm)).bind (fun p => p.lost)
  let p := { p with begunTo := others, rowsOut := out, lost := lost, msgs := p.msgs.set me { got := own.length * v.row, end_ := 0 } }
  let z := s.messageOver a x p v me (if own.length < (s0.rowsFrom x v me).length then 2 else 1)
  (z.1, z.2)

/-! ### The checks (R446) -/

/-- The checks of R446 that EXCHANGE and RETURN share, with the space record that they need. -/
def State.permChecks (s : State) (a : Action) (x : Seat) (v : PermEnv) : List (Bool × Status) :=
  let q := v.tab
  let m := if v.group = 0xFFFF then 1 else s.permMembers a.seat v.group
  let nodes : List Nat := match s.groupOf a.seat v.group with | some grp => grp.nodes | none => [s.fab.node]
  [(q.turn == x.turn.toNat && q.space == v.space, .tableStale),
   (!v.tab.record.isEmpty && (v.group == 0xFFFF || (s.groupOf a.seat v.group).isSome) && q.members == m
      && (List.range m).all (fun r => s.rdAt x (q.entry r) 2 == nodes.getD r 0), .descInvalid),
   (v.isReturn || v.row ≤ spXLd q.record, .descInvalid)]

/-- The checks of R446 for a RETURN and its combine record (R445). -/
def State.returnChecks (s : State) (x : Seat) (v : PermEnv) : List (Bool × Status) :=
  let q := v.tab
  let c := v.cb
  let rb := cbRow c
  let slots := (List.range 16).filter (fun i => bit (cbMask c) i || (q.nShared != 0 && i == spShared q.record))
  let n := ((List.range 16).filter (fun i => bit (cbMask c) i)).length
  let ob := roundUp (packedLen (cbOutFmt c) (cbElems c)) 16
  [(c.length == 320 && 1 ≤ cbFmt c && cbFmt c ≤ 3 && cbOutFmt c < 16 && fmtValid (cbOutFmt c) && cbCvt c < 16 && !bit (cbCvt c) 3
      && cbCvt c % 4 ≤ 1 && byteAt c 15 < 2 && zeros c 48 64 && 1 ≤ cbElems c && cbElems c ≤ 32768 && cbLd c % 16 == 0
      && cbOutLd c % 16 == 0 && cbRecords c % 64 == 0 && (!cbOutCs c || cbOutBase c < 2 ^ 23), .descInvalid),
   (v.part < v.parts && rb % 16 == 0 && rb ≤ cbLd c && rb ≤ stYLd (spStage q.record (spStages q.record - 1)), .descInvalid),
   (slots.all (fun i => cbShBase c i == 0 || s.reach x (cbShBase c i) ((q.tokens - 1) * cbShLd c i + rb)), .descInvalid),
   (2 * ((q.k + 1 + n) * rb + ob) ≤ cbStageLen c && cbStage c % 16 == 0 && cbStage c + cbStageLen c ≤ tileBytes, .descInvalid),
   (slots.all (fun i => cbShBase c i != 0), .descInvalid)]

/-- Every row that an action reads or writes lies where the seat reaches. -/
def State.permRowsOk (s : State) (x : Seat) (v : PermEnv) (whole : List Nat) : Bool :=
  (List.range v.tab.members).all (fun r =>
    (s.rowPlaces x v.row (s.rowsFrom x v r)).isSome && (s.rowPlaces x v.row (s.rowsTo x v whole r)).isSome)

/-- An action's progress at its beginning. -/
def permStart (s : State) (x : Seat) (v : PermEnv) (m : Nat) : PermRun :=
  { record := v.tab.record, cb := v.cb, turn := x.turn.toNat, space := v.space, group := v.group, part := v.part, msgs := List.replicate m {}, begunTo := [], rowsOut := 0,
    rowsIn := 0, rowsZero := 0, emptyIn := 0, received := false, waiting := false, partOver := false, began := s.time,
    lost := none }

/-- The own rank is excluded from a space, by a record of scope 2 or 3 (R495). -/
def State.permExcluded (s : State) (seat : Nat) (x : Seat) (g space : Nat) (scopes : List Nat) : Bool :=
  match s.groupOf seat g with
  | some grp => scopes.any (fun sc => (x.excluded sc g space (grMembers grp.record)).contains (grRank grp.record))
  | none => false

/-! ### EXCHANGE and RETURN begin -/

/-- A RETURN whose EXCHANGE has ended sends its part, and takes the messages that a stand-in has sent for every part
(R460, R462, R466). -/
def State.returnGo (s : State) (id : Nat) (a : Action) (x : Seat) (p : PermRun) (d : PermDone) : State :=
  let v := s.permEnv a x
  let p := { p with waiting := false }
  if d.status ≠ .success && d.status ≠ .short then s.permFail id a x p d.status
  else if !s.permRowsOk x v d.wholeRows then s.permFail id a x p .addrInvalid
  else
    let z := s.permSend id a x p v d.wholeRows
    z.1.permSettle id a z.2

/-- The RETURNs of a space and turn that wait for their EXCHANGE go on when it has ended (R462, R466). -/
def State.returnsGo (s : State) (x : Seat) (d : PermDone) : State :=
  s.ni.actions.foldl (fun s ka =>
    match ka.2.perm with
    | some r =>
      if ka.2.seat = d.seat && ka.2.trig.action = 0x29 && ka.2.status.isNone && r.waiting && r.turn = d.turn && r.space = d.space
      then s.returnGo ka.1 ka.2 x r d else s
    | none => s) s

/-- An EXCHANGE that fails before its messages, and every RETURN that waits for it (R446, R466). -/
def State.exchangeFail (s : State) (id : Nat) (a : Action) (x : Seat) (p : PermRun) (st : Status) : State :=
  (s.permFail id a x p st).returnsGo x { seat := a.seat, turn := p.turn, space := p.space, kind := 0x28, part := 0, status := st,
                                         wholeRows := [] }

/-- EXCHANGE: the checks, then its messages go out and its receiving begins (R446, R450 to R452, R466, R495). -/
def State.exchangeBegin (s : State) (id : Nat) : State :=
  match s.beginning id 0x28 with
  | none => s
  | some (a, x) =>
    let v := s.permEnv a x
    let p := permStart s x v (s.permMembers a.seat v.group)
    let s := (s.setAction id (fun a => { a with begun := true })).setPerm id p
    if s.isStandIn a.seat p.turn p.space then
      s.exchangeFail id a x p (if s.permExcluded a.seat x v.group v.space [2, 3] then .replayExcluded else .tableStale)
    else
      match firstFail (s.permChecks a x v) with
      | some st => s.exchangeFail id a x p st
      | none =>
        if !s.permRowsOk x v [] then s.exchangeFail id a x p .addrInvalid
        else if s.permExcluded a.seat x v.group v.space [3] then s.exchangeFail id a x p .replayExcluded
        else
          let z := s.permSend id a x p v []
          z.1.permSettle id a z.2

def execExchange (action : Nat) (s : State) : Out := .next (s.exchangeBegin action)

/-- RETURN: the checks; then it sends, or waits for its EXCHANGE; messages for every part that came before it complete at
once (R446, R462, R466). -/
def State.returnBegin (s : State) (id : Nat) : State :=
  match s.beginning id 0x29 with
  | none => s
  | some (a, x) =>
    let v := s.permEnv a x
    let p := { permStart s x v (s.permMembers a.seat v.group) with waiting := true }
    let s := (s.setAction id (fun a => { a with begun := true })).setPerm id p
    match s.exchangeDone a.seat p.turn p.space with
    | some d =>
      if d.status ≠ .success && d.status ≠ .short then s.permFail id a x p d.status
      else
        match firstFail (s.permChecks a x v ++ s.returnChecks x v) with
        | some st => s.permFail id a x p st
        | none =>
          let s := (s.ni.allParts.filter (fun q => q.seat == a.seat && q.turn == p.turn && q.space == p.space % 2048)).foldl (fun s q =>
            match (FMap.find? s.ni.actions id).bind (fun a => a.perm) with
            | some p => s.messageAll id a x p q.rank
            | none => s) s
          match (FMap.find? s.ni.actions id).bind (fun a => a.perm) with
          | some p => s.returnGo id a x p d
          | none => s
    | none =>
      match firstFail (s.permChecks a x v ++ s.returnChecks x v) with
      | some st => s.permFail id a x p (if s.permExcluded a.seat x v.group v.space [2, 3] then .replayExcluded else st)
      | none =>
        (s.ni.allParts.filter (fun q => q.seat == a.seat && q.turn == p.turn && q.space == p.space % 2048)).foldl (fun s q =>
          match (FMap.find? s.ni.actions id).bind (fun a => a.perm) with
          | some p => s.messageAll id a x p q.rank
          | none => s) s

def execReturnAction (action : Nat) (s : State) : Out := .next (s.returnBegin action)

/-! ### Ends -/

/-- The rows of each member's message that came whole. -/
def wholeRowsOf (p : PermRun) (row : Nat) : List Nat := p.msgs.map (fun q => if q.end_ = 3 then 0 else q.got / max 1 row)

/-- An EXCHANGE whose receiving has ended and whose packets are acknowledged ends: its record, and the RETURNs that wait
for it go on (R454, R457, R462, R466). -/
def State.exchangeEnd (s : State) (id : Nat) (a : Action) (p : PermRun) (x : Seat) : State :=
  let v := s.permEnv a x
  let st := permStatus p
  let bad := st != .success && st != .short
  let s := s.permWrite a x p st bad
  let s := s.permError a p.turn st
  let s := if bad then s.standIn a.seat p.turn p.space p.group p.begunTo else s
  let d : PermDone := { seat := a.seat, turn := p.turn, space := p.space, kind := 0x28, part := 0, status := st,
                        wholeRows := wholeRowsOf p v.row }
  ((s.addPermDone d).actionOver id st).returnsGo x d

/-- ACTION_END: an EXCHANGE first ends its exchange; an action with its final status ends (R402, R457). -/
def execActionEnd (action : Nat) (s : State) : Out :=
  .next (match FMap.find? s.ni.actions action with
    | none => s
    | some a =>
      match a.perm, s.seat? a.seat with
      | some p, some x =>
        if a.trig.action = 0x28 && a.status.isNone then
          (if p.received && s.permAcked action then (s.exchangeEnd action a p x).actionEnd action else s)
        else s.actionEnd action
      | _, _ => s.actionEnd action)

/-- RETURN_PART_END: a RETURN whose receiving has ended and whose packets are acknowledged ends its part; that of the last
part hands the combine over once every part has ended (R462, R463). -/
def State.returnPartEnd (s : State) (id : Nat) : State :=
  match FMap.find? s.ni.actions id with
  | none => s
  | some a =>
    match a.perm, s.seat? a.seat with
    | some p, some x =>
      if a.trig.action ≠ 0x29 || a.status.isSome || p.waiting || p.partOver || !p.received || !s.permAcked id then s
      else
        let v := s.permEnv a x
        let st := permStatus p
        let s := s.addPermDone { seat := a.seat, turn := p.turn, space := p.space, kind := 0x29, part := p.part, status := st,
                                 wholeRows := wholeRowsOf p v.row }
        let s := s.permError a p.turn st
        if p.part + 1 = v.parts then s.setPerm id { p with partOver := true }
        else (s.permWrite a x p st false).actionOver id st
    | _, _ => s

def execReturnPartEnd (action : Nat) (s : State) : Out := .next (s.returnPartEnd action)

/-! ### The combine (R463, R464) -/

/-- Element i of a row at a place, with the poison of its bytes. -/
def State.rowElem (s : State) (code a i : Nat) : Val × Option Nat :=
  let w := fmtBits code
  let lo := a + i * w / 8
  let n := (i * w % 8 + w + 7) / 8
  (decodeElem code (leNat (s.bytes lo n) / 2 ^ (i * w % 8) % 2 ^ w), s.rangePoison lo n)

/-- Shared slots that a combine record adds to every token, ascending. -/
def cbSlots (cb : Bytes) : List Nat := (List.range 16).filter (fun i => bit (cbMask cb) i)

/-- The terms of a token: weight, row place, and its row of a token set in the staging area, in the order of R463. A set holds the K
return rows, the row of SHARED_SLOT, the rows of SH_MASK in ascending order, and the output row (R446, R464, log 29). -/
def State.combineTerms (s : State) (x : Seat) (q : RouteTab) (cb : Bytes) (t : Nat) : List (Val × Nat × Nat) :=
  let rb := cbRow cb
  let row (a : Nat) : Option Nat := s.descAddr x a rb
  let sh (i : Nat) : Option Nat := row (cbShBase cb i + t * cbShLd cb i)
  let cs := (List.range q.k).filterMap (fun j =>
    let c := q.out + ouChoices q.record + (t * q.k + j) * 8
    let w := decodeElem 1 (s.rdAt x (c + 4) 4)
    match s.rdAt x (c + 2) 1 with
      | 0 => (row (cbBase cb + (t * q.k + j) * cbLd cb)).map (fun a => (w, a, j))
      | 2 => (sh (spShared q.record)).map (fun a => (w, a, q.k))
      | _ => none)
  let ms := (List.range (cbSlots cb).length).zip (cbSlots cb)
  cs ++ ms.filterMap (fun ni => (sh ni.2).map (fun a => (decodeElem 1 (cbGate cb ni.2), a, q.k + 1 + ni.1)))

/-- One output element: binary64 sums with RNE at each addition, converted by CVT, with its events and poison. -/
def State.combineElem (s : State) (cb : Bytes) (terms : List (Val × Nat)) (i : Nat) : (Nat × Option Nat) × FpEvents :=
  let r := terms.foldl (fun (acc : Val × FpEvents × Option Nat) wt =>
    let e := s.rowElem (cbFmt cb) wt.2 i
    let m := wt.1.mul e.1
    let z := acc.1.add m.1
    let y := roundTo 0 .rne z.1
    (y.1, ((acc.2.1.add m.2).add z.2).add y.2, acc.2.2.orElse (fun _ => e.2))) (zeroVal, FpEvents.none, none)
  let o := convert (cbOutFmt cb) (if cvtMode (cbCvt cb) = 1 then .rtz else .rne) (cvtSat (cbCvt cb)) r.1
  ((o.1, r.2.2), r.2.1.add o.2)

/-- The place of a token's set in the staging area of its tile: two sets, taken in turn (R464). -/
def State.combineStage (s : State) (x : Seat) (q : RouteTab) (cb : Bytes) (t view : Nat) : Option Nat :=
  let set := (q.k + 1 + (cbSlots cb).length) * cbRow cb + roundUp (packedLen (cbOutFmt cb) (cbElems cb)) 16
  ((x.tile? view).bind s.tilePhys).map (fun b => b + cbStage cb + t % max 1 (spTpc q.record) / 8 % 2 * set)

/-- One token combined and written: its terms brought into the staging area, its output row formed there and copied to its place;
true where a poisoned element was met (R463, R464). -/
def State.combineToken (s : State) (seat : Nat) (x : Seat) (q : RouteTab) (cb : Bytes) (t : Nat) : State × Bool :=
  let tpc := max 1 (spTpc q.record)
  let c := spSrcCluster q.record + t / tpc
  let view := 8 * c + t % tpc % 8
  let n := cbElems cb
  let len := packedLen (cbOutFmt cb) n
  let terms := s.combineTerms x q cb t
  let at_ := if cbOutCs cb then clusterDesc c + cbOutBase cb + t % tpc * cbOutLd cb else cbOutBase cb + t * cbOutLd cb
  match s.combineStage x q cb t view, s.descAddr x at_ len with
  | some b, some a =>
    let s := terms.foldl (fun s w => s.copyPiece seat w.2.1 (b + w.2.2 * cbRow cb) (cbRow cb)) s
    let es := (List.range n).map (s.combineElem cb (terms.map (fun w => (w.1, b + w.2.2 * cbRow cb))))
    let s := s.countFp seat view (es.foldl (fun a e => a.add e.2) FpEvents.none)
    let s := s.charge seat acctVectorBusy (ceilDiv (n * terms.length) 8)
    let out := b + (q.k + 1 + (cbSlots cb).length) * cbRow cb
    ((s.writeRun out (cbOutFmt cb) 0 (es.map (·.1))).copyPiece seat out a len, es.any (fun e => e.1.2.isSome))
  | _, _ => (s, false)

/-- COMBINE_END: with every part of the space ended, every token is combined and written, and the RETURN of the last part
writes its record and ends (R463, R464). -/
def State.combineEnd (s : State) (id : Nat) : State :=
  match FMap.find? s.ni.actions id with
  | none => s
  | some a =>
    match a.perm, s.seat? a.seat with
    | some p, some x =>
      let v := s.permEnv a x
      let ended (n : Nat) : Bool := s.ni.permDone.any (fun d => d.seat == a.seat && d.turn == p.turn && d.space == p.space && d.kind == 0x29 && d.part == n)
      if a.trig.action ≠ 0x29 || a.status.isSome || !p.partOver || !(List.range v.parts).all ended then s
      else
        let r := (List.range v.tab.tokens).foldl (fun (b : State × Bool) t =>
          let z := b.1.combineToken a.seat x v.tab v.cb t
          (z.1, b.2 || z.2)) (s, false)
        let st0 := permStatus p
        let st := if st0 = .lengthMismatch then st0 else if r.2 then .dataPoisoned else st0
        let s := if st = .dataPoisoned then r.1.permError a p.turn st else r.1
        (s.permWrite a x p st false).actionOver id st
    | _, _ => s

def execCombineEnd (action : Nat) (s : State) : Out := .next (s.combineEnd action)

end Sys2Proof.Machine
end

