-- ==== Sys2Proof/Machine/Flash.lean ====
section
/-!
DEFINITION. The flash tier: stripes, the map and the power-loss store (R281 to R287, R311, R314 to R318), STREAM and its
fills (R157, R294 to R300), the recovery of units (R298, R301 to R306) and the health work (R307 to R313).
-/

namespace Sys2Proof.Machine

/-! ### The map, the journal and the NAND (R284 to R287, R311, R315) -/

def stripeUnits : Nat := 56
/-- Pages of a superblock (R281). -/
def sbPages : Nat := 1152

/-- The number of a logical stripe of a namespace, and of a unit of the namespace in it (R285). -/
def lsKey (ns ls : Nat) : Nat := ns * 2 ^ 32 + ls
def unitKey (ns unit : Nat) : Nat := lsKey ns (unit / stripeUnits)

/-- The number of a block of a channel. -/
def blockKey (ch b : Nat) : Nat := ch * 2 ^ 20 + b

/-- The channel of data page j (R284). -/
def dataChannel (j : Nat) : Nat := if j < 7 then j else j + 1

/-- The hub of a channel (R281). -/
def channelHub (ch : Nat) : Nat := if ch < 8 then 0 else 1

def State.setFlash (s : State) (f : FlashSide) : State := { s with flash := f }

/-- The block of a superblock on a channel (log 20). -/
def FlashMap.block (m : FlashMap) (sb ch : Nat) : Nat := FMap.get sb m.members (sb * 16 + ch)

/-- The NAND package of a channel that holds a block (R281, log 20). -/
def blockPackage (b : Nat) : Nat := b % 2

/-- Extents of the grade (R287). -/
def Ident.extents (i : Ident) : Nat := match i.code with | .a960x64 => 3269632 | _ => 1634816

/-- Superblocks of the tier: of their raw main area, 12 of 16 bytes are offered as extents (R286, R287, log 20). -/
def Ident.superblocks (i : Ident) : Nat := (i.extents * 64 * 14 + 12 * sbPages - 1) / (12 * sbPages)

/-- The superblocks 0 to 15 are held for the two banks alone (R314, log 20). -/
def bankSbs : Nat := 16

/-- One change to the map. -/
def FlashMap.apply (m : FlashMap) : JournalRec → FlashMap
  | .ns n (some v) => { m with nss := FMap.insert m.nss n v }
  | .ns n none => { m with nss := FMap.erase m.nss n }
  | .map k (some p) => { m with map := FMap.insert m.map k p }
  | .map k none => { m with map := FMap.erase m.map k, lost := FMap.erase m.lost k }
  | .lost k v => { m with lost := FMap.put 0 m.lost k v }
  | .bad b => { m with bad := m.bad ++ [b] }
  | .member k b => { m with members := FMap.insert m.members k b }
  | .erased b n => { m with erases := FMap.insert m.erases b n, reads := FMap.erase m.reads b }
  | .reads b n => { m with reads := FMap.insert m.reads b n }

/-- A change made durable as a journal record, and then acted upon (R315). -/
def State.journal (s : State) (r : JournalRec) : State :=
  let f := s.flash
  let e : JournalEntry := { seq := f.jseq, crc := Config.journalCrc f.jseq, change := r }
  s.setFlash { f with live := f.live.apply r, journal := f.journal ++ [e], jseq := f.jseq + 1 }

/-- The stripe that a logical stripe is mapped to. -/
def State.stripe? (s : State) (key : Nat) : Option NandStripe :=
  (FMap.find? s.flash.live.map key).bind (fun p => FMap.find? s.flash.nand p)

/-- Superblocks with a mapped stripe or open. -/
def FlashSide.usedSbs (f : FlashSide) : List Nat :=
  let o (x : Option Nat) : List Nat := match x with | some p => [p / sbPages] | none => []
  f.live.map.map (fun (kp : Nat × Nat) => kp.2 / sbPages) ++ o f.openWrite ++ o f.openMove

/-- The erases of a superblock, counted at its block of channel 0. -/
def FlashSide.sbErases (f : FlashSide) (sb : Nat) : Nat := FMap.get 0 f.live.erases (blockKey 0 (f.live.block sb 0))

/-- The superblock that a block of a channel is part of. -/
def FlashMap.sbOf (m : FlashMap) (ch b : Nat) : Nat :=
  match List.find? (fun (kb : Nat × Nat) => kb.2 == b && kb.1 % 16 == ch) m.members with
  | some kb => kb.1 / 16
  | none => b

/-- The least of a list by a measure, the first among equals. -/
def leastBy (m : Nat → Nat) : List Nat → Option Nat
  | [] => none
  | x :: t => some (t.foldl (fun a n => if m n < m a then n else a) x)

/-- A free superblock of a tier with so many: for writes the least-erased one, for relocations the most-erased one, of
equals the one of lowest number (R308, log 20). A write leaves two free for relocations, so there is one. -/
def FlashSide.freeSb (f : FlashSide) (total : Nat) (move : Bool) : Nat :=
  let used := f.usedSbs
  let worn := ((f.live.erases.filter (fun (be : Nat × Nat) => be.1 < 2 ^ 20)).map (fun be => f.live.sbOf 0 be.1)).filter (fun n =>
    bankSbs ≤ n && n < total && !used.contains n)
  let fresh := ((List.range (min (total - bankSbs) (used.length + worn.length + 1))).map (· + bankSbs)).find? (fun n =>
    !used.contains n && f.sbErases n == 0)
  let first := if move then (leastBy (fun n => 2 ^ 64 - f.sbErases n) worn).orElse (fun _ => fresh)
    else fresh.orElse (fun _ => leastBy f.sbErases worn)
  first.getD total

/-- Free superblocks: those neither held for the banks nor in use. -/
def State.freeSbs (s : State) : Nat := s.ident.superblocks - bankSbs - s.flash.usedSbs.eraseDups.length

/-- The blocks of a superblock are erased: counted, their page reads forgotten, their stripes gone (R309, R315). -/
def State.eraseSb (s : State) (sb : Nat) : State :=
  let bs := (List.range 16).map (fun ch => blockKey ch (s.flash.live.block sb ch))
  let s := bs.foldl (fun (s : State) b => s.journal (.erased b (FMap.get 0 s.flash.live.erases b + 1))) s
  s.setFlash { s.flash with nand := s.flash.nand.filter (fun (ps : Nat × NandStripe) => ps.1 / sbPages != sb) }

/-- The place where the next stripe is programmed. -/
def State.newPlace (s : State) (move : Bool) : State × Nat :=
  match (if move then s.flash.openMove else s.flash.openWrite) with
  | some p => (s, p)
  | none =>
    let sb := s.flash.freeSb s.ident.superblocks move
    (s.eraseSb sb, sb * sbPages)

/-- The page of a place on a channel counts as an erasure: its channel or its NAND package has failed (R312). -/
def FlashSide.pageGone (f : FlashSide) (place ch : Nat) : Bool :=
  f.failedChannels.contains ch || f.failedPackages.contains (2 * ch + blockPackage (f.live.block (place / sbPages) ch))

/-- A block's data is to be moved, and the block retired (R306, R309, R310). -/
def State.scheduleMove (s : State) (b : Nat) (retire : Bool) : State :=
  let f := s.flash
  s.setFlash { f with moves := if f.moves.contains b then f.moves else f.moves ++ [b],
                      retire := if retire && !f.retire.contains b then f.retire ++ [b] else f.retire }

/-- Page reads of a block are counted; at 8,000,000 its data is to be moved (R309, R315). -/
def State.blockReads (s : State) (b n : Nat) : State :=
  if n = 0 then s
  else
    let c := FMap.get 0 s.flash.live.reads b + n
    let s := s.journal (.reads b c)
    if 8000000 ≤ c then s.scheduleMove b false else s

/-- Page reads of a place, on some of its channels. -/
def State.placeReads (s : State) (place : Nat) (chs : List Nat) (n : Nat) : State :=
  chs.foldl (fun (s : State) ch => s.blockReads (blockKey ch (s.flash.live.block (place / sbPages) ch)) n) s

/-- The data channels of the pages on which some units of a stripe lie. -/
def unitChannels (us : List Nat) : List Nat := (us.map (fun u => dataChannel (u / 4))).eraseDups

/-- A logical stripe written whole to a new place, its mapping replaced in one step; with no unit left it is unmapped; the
page positions of what has failed are left empty (R286, R291, R292, R312). -/
def State.program (s : State) (move : Bool) (ns ls : Nat) (units : FMap Bytes) : State :=
  if units.isEmpty then s.journal (.map (lsKey ns ls) none)
  else
    let r := s.newPlace move
    let f := r.1.flash
    let next := if (r.2 + 1) % sbPages = 0 then none else some (r.2 + 1)
    let absent := (List.range 16).filter (f.pageGone r.2)
    let stripe : NandStripe := { ns := ns, ls := ls, wseq := f.wseq, units := units, at_ := s.time, absent := absent }
    let f := { f with nand := FMap.insert f.nand r.2 stripe, wseq := f.wseq + 1,
                      openWrite := if move then f.openWrite else next, openMove := if move then next else f.openMove }
    let s := (r.1.setFlash f).journal (.map (lsKey ns ls) (some r.2))
    ((List.range 16).filter (fun ch => !absent.contains ch)).foldl (fun s ch => s.moved (60 + ch) false 16384) s

/-! ### Room and wear (R306 to R308) -/

/-- Fewer than 8 superblocks are free, until 16 are: the hc of it are counted on every channel (R307). -/
def State.gcPressure (s : State) : State :=
  let free := s.freeSbs
  match s.flash.pressure with
  | none => if free < 8 then s.setFlash { s.flash with pressure := some s.hcNow } else s
  | some t =>
    let s := (List.range 16).foldl (fun (s : State) ch => s.count 0x7004 none ch (s.hcNow - t)) s
    s.setFlash { s.flash with pressure := if 16 ≤ free then none else some s.hcNow }

/-- Stripes of a superblock, at most n, move to new places, their lost-unit masks with them; what is read is counted
(R306, R308, R309). -/
def State.relocateSome (s : State) (sb n : Nat) : State :=
  let close (o : Option Nat) : Option Nat := match o with | some p => if p / sbPages = sb then none else some p | none => none
  let s := s.setFlash { s.flash with openWrite := close s.flash.openWrite, openMove := close s.flash.openMove }
  let here : FMap Nat := s.flash.live.map.filter (fun (kp : Nat × Nat) => kp.2 / sbPages == sb)
  (here.take n).foldl (fun s (kp : Nat × Nat) =>
    match FMap.find? s.flash.nand kp.2 with
    | some t => (s.placeReads kp.2 (unitChannels (t.units.map (·.1))) 1).program true (kp.1 / 2 ^ 32) (kp.1 % 2 ^ 32) t.units
    | none => s) s

/-- The data of a superblock moves to new stripes. -/
def State.relocate (s : State) (sb : Nat) : State := s.relocateSome sb s.flash.live.map.length

/-- The superblocks in use that nothing is being written to. -/
def FlashSide.closedSbs (f : FlashSide) : List Nat := (f.live.map.map (fun (kp : Nat × Nat) => kp.2 / sbPages)).eraseDups.filter (fun n =>
  !([f.openWrite, f.openMove].any (fun o => match o with | some p => p / sbPages == n | none => false)))

/-- Before a write takes a free superblock: while fewer than three are free, the superblock with the fewest stripes is
emptied; and where the one to be taken would pass the erases of one in use, in the same packages, by more than 300, the data
of that one moves first (R307, R308, log 20). -/
def State.makeRoom : Nat → State → State
  | 0, s => s
  | fuel + 1, s =>
    let f := s.flash
    if f.openWrite.isSome then s
    else if s.freeSbs < 3 then
      match leastBy (fun n => (f.live.map.filter (fun (kp : Nat × Nat) => kp.2 / sbPages == n)).length) f.closedSbs with
      | some sb => State.makeRoom fuel (s.relocate sb)
      | none => s
    else
      let next := f.freeSb s.ident.superblocks false
      match leastBy f.sbErases (f.closedSbs.filter (fun n => n % 2 == next % 2)) with
      | some sb => if f.sbErases sb + 300 ≤ f.sbErases next then s.relocate sb else s
      | none => s

/-- The lost-unit mask of a logical stripe set (R301, R304). -/
def State.setLost (s : State) (key mask : Nat) : State :=
  if FMap.get 0 s.flash.live.lost key = mask then s else s.journal (.lost key mask)

/-- A bit of a mask cleared or set. -/
def maskSet (m i : Nat) (b : Bool) : Nat := m - (if bit m i then 2 ^ i else 0) + (if b then 2 ^ i else 0)

/-- Units of a namespace written, each as its bytes, or trimmed: every logical stripe of the range is written whole to a
new place with the rest of its units, and the units that the change covers leave quarantine (R291, R292, R304). -/
def State.writeUnits (s : State) (ns first : Nat) (units : List (Option Bytes)) : State :=
  let n := units.length
  let lo := first / stripeUnits
  let hi := (first + n + stripeUnits - 1) / stripeUnits
  ((List.range (hi - lo)).map (· + lo)).foldl (fun s ls =>
    let key := lsKey ns ls
    let old : FMap Bytes := match s.stripe? key with | some t => t.units | none => []
    let z := (List.range stripeUnits).foldl (fun (a : FMap Bytes × Nat) u =>
      let i := ls * stripeUnits + u
      if i < first || first + n ≤ i then a
      else
        match units[i - first]? with
        | some (some b) => (FMap.insert a.1 u b, maskSet a.2 u false)
        | some none => (FMap.erase a.1 u, maskSet a.2 u false)
        | none => a) (old, FMap.get 0 s.flash.live.lost key)
    let rest := (old.filter (fun ub => ls * stripeUnits + ub.1 < first || first + n ≤ ls * stripeUnits + ub.1)).map (·.1)
    let s := match FMap.find? s.flash.live.map key with
      | some p => s.placeReads p (unitChannels rest) 1
      | none => s
    let s := if z.1.isEmpty && old.isEmpty then s else ((s.makeRoom 16).program false ns ls z.1).gcPressure
    s.setLost key (if z.1.isEmpty then 0 else z.2)) s

/-- Namespace bytes that the tier is rated for (R313). -/
def Ident.ratedBytes (i : Ident) : Nat := match i.code with | .a960x64 => 72000000000000000 | _ => 36000000000000000

/-- Namespace bytes written count toward the rated life, in tenths of a percent (R313). -/
def State.nsWritten (s : State) (n : Nat) : State :=
  let w := s.flash.written + n
  (s.setFlash { s.flash with written := w }).gauge 0x7008 none 0 (w * 1000 / s.ident.ratedBytes)

/-! ### Banks (R314, R316 to R318) -/

/-- Bytes 0 to 27 of a bank's header (R314). -/
def FlashBank.header (b : FlashBank) : Bytes :=
  natLe 4 b.format.toNat ++ natLe 4 b.seq.toNat ++ natLe 8 b.length.toNat ++ natLe 8 b.jnext.toNat ++ natLe 4 b.bcrc.toNat

/-- The bank that holds a map, with its sequence number and the first journal record that it does not hold (R314). -/
def bankOf (seq : W32) (jnext : W64) (body : FlashMap) : FlashBank :=
  let b : FlashBank := { seq := seq, length := Config.bankLength seq jnext, jnext := jnext, bcrc := Config.bankCrc seq jnext, body := body }
  { b with hcrc := BitVec.ofNat 32 (crc32c b.header) }

/-- FORMAT is known and HCRC is right (R317). -/
def FlashBank.good (b : FlashBank) : Bool := b.format == 1 && b.hcrc == BitVec.ofNat 32 (crc32c b.header)

/-- A new bank is written to the bank that is not the current one, checked, and becomes current; the journal records
folded into it are released (R316). -/
def State.bankWrite (s : State) : State :=
  let f := s.flash
  let cur := FMap.get {} f.banks f.current
  let other := 1 - f.current
  s.setFlash { f with banks := FMap.insert f.banks other (bankOf (cur.seq + 1) f.jseq f.live),
                      current := other, journal := [], bankAt := s.time }

/-- BANK_WRITE: a new bank is written while the journal is not empty (R316). -/
def execBankWrite (s : State) : Out := .next (if s.flash.available && !s.flash.journal.isEmpty then s.bankWrite else s)

/-- Journal records replayed in ascending number from n on, up to the first that is missing. -/
def replay (m : FlashMap) : W64 → List JournalEntry → FlashMap × List JournalEntry
  | _, [] => (m, [])
  | n, e :: t =>
    if e.seq.toNat < n.toNat then replay m n t
    else if e.seq = n then
      let z := replay (m.apply e.change) (n + 1) t
      (z.1, e :: z.2)
    else (m, [])

/-- The sample of each start: of every superblock that holds a stripe programmed more than 30 days before, a page on each
channel is read (R310, log 20). -/
def State.sampleOld (s : State) : State :=
  let old := s.flash.nand.filter (fun (ps : Nat × NandStripe) => ps.2.at_ + 30 * 86400 * secondUnits < s.time)
  ((old.map (fun (ps : Nat × NandStripe) => ps.1 / sbPages)).eraseDups).foldl (fun (s : State) sb =>
    s.placeReads (sb * sbPages) ((List.range 16).filter (fun ch => !s.flash.pageGone (sb * sbPages) ch)) 1) s

/-- FLASH_MAP_LOAD: channels that fail training at the full rate are logged; among the banks whose checks hold the winner
is taken by SEQ and the journal records that pass theirs are replayed; with no bank the tier is unavailable (R283, R310,
R317, R318). -/
def State.flashMapLoad (s : State) (fallback goodBanks : List Nat) (goodRecords : Nat) : State :=
  if s.mod.state ≠ .init || s.mod.flashDone then s
  else
    let bad := fallback.filter (· < 16)
    let s := bad.foldl (fun s ch => s.logEvent 0x0501 none 9 ch 0 1) s
    let f := { s.flash with fallback := bad }
    let s := { s with mod := { s.mod with flashDone := true } }
    let has (b : Nat) : Option FlashBank := if goodBanks.contains b then (FMap.find? f.banks b).filter FlashBank.good else none
    let win : Option (Nat × FlashBank) := match has 0, has 1 with
      | some a, some b => if 1 ≤ (b.seq - a.seq).toNat && (b.seq - a.seq).toNat < 2 ^ 31 then some (1, b) else some (0, a)
      | some a, none => some (0, a)
      | none, some b => some (1, b)
      | none, none => none
    match win with
    | none => (s.setFlash { f with available := false }).logEvent 0x0502 none 12 0 0 0
    | some (i, b) =>
      let z := replay b.body b.jnext (f.journal.take goodRecords)
      (s.setFlash { f with available := true, current := i, live := z.1, journal := z.2, jseq := b.jnext + BitVec.ofNat 64 z.2.length,
                           openWrite := none, openMove := none, bankAt := s.time }).sampleOld

/-- Every stripe is scanned, for each logical stripe the one with the highest write sequence number is kept, and a new
bank is written (R318); a namespace that only its stripes tell of belongs to port 0 (log 20). -/
def State.flashRebuild (s : State) : State :=
  let f := s.flash
  let known := f.live.nss
  let keep := f.nand.foldl (fun (m : FMap (Nat × NandStripe)) (ps : Nat × NandStripe) =>
    let k := lsKey ps.2.ns ps.2.ls
    if f.available && (FMap.find? known ps.2.ns).isNone then m
    else
      match FMap.find? m k with
      | some (_, t) => if t.wseq < ps.2.wseq then FMap.insert m k ps else m
      | none => FMap.insert m k ps) ([] : FMap (Nat × NandStripe))
  let nss := keep.foldl (fun (m : FMap Namespace) (kt : Nat × Nat × NandStripe) =>
    let need := kt.2.2.ls / 64 + 1
    match FMap.find? m kt.2.2.ns with
    | some v => FMap.insert m kt.2.2.ns { v with extents := max v.extents need }
    | none => FMap.insert m kt.2.2.ns { port := 0, extents := need }) known
  let live := { f.live with nss := nss, map := keep.map (fun (kt : Nat × Nat × NandStripe) => (kt.1, kt.2.1)) }
  (s.setFlash { f with live := live, available := true }).bankWrite

/-! ### STREAM and the acceptance of a fill (R157, R294, R295) -/

/-- STREAM: the request goes to the hub of the tile's die (R157). -/
def State.streamAsk (s : State) (t c : Nat) : State :=
  match s.inExec t c 6 with
  | none => s
  | some _ => if s.flash.asks.contains (t, c) then s else s.setFlash { s.flash with asks := s.flash.asks ++ [(t, c)] }

def execStream (tile ctx : Nat) (s : State) : Out := .next (s.streamAsk tile ctx)

/-- Bytes of a namespace (R287). -/
def State.nsBytes (s : State) (ns : Nat) : Nat :=
  match FMap.find? s.flash.live.nss ns with
  | some v => v.extents * 64 * stripeUnits * 4096
  | none => 0

/-- The checks of R294. -/
def State.fillCheck (s : State) (x : Seat) (d : Bytes) : Option Status :=
  firstFail [
    (s.flash.available, .flashUnavailable),
    (x.ns.isSome, .namespaceAbsent),
    (match x.ns with | some n => decide (smSrc d + smLen d ≤ s.nsBytes n.1) | none => false, .addrInvalid),
    ((s.fillUnits x (smToSlot d) (smDst d) (smLen d)).isSome, .addrInvalid),
    (!smMirror d || (smNode d != 0xFFFF && smNode d != s.fab.node), .descInvalid)]

/-- Fills of a hub, and of one seat among them. -/
def State.fillsOf (s : State) (hub : Nat) : FMap Fill := s.flash.fills.filter (fun (kf : Nat × Fill) => kf.2.hub == hub)

/-- FILL_ACCEPT: a STREAM that has reached its hub is checked and, while the hub holds fewer than 256 fills and fewer than
64 of the seat, accepted; its counter is a fill counter from then on (R279), and its descriptor completes (R157, R294,
R295). -/
def State.fillAccept (s : State) (t c : Nat) : State :=
  if !s.flash.asks.contains (t, c) then s
  else
    let s' := s.setFlash { s.flash with asks := s.flash.asks.erase (t, c) }
    match s.inExec t c 6 with
    | none => s'
    | some (v, e) =>
      let d := e.desc
      match s.fillCheck v.seat d with
      | some st => s'.faultCtx t c st (if st = .addrInvalid then smDst d else 0)
      | none =>
        let hub := s.tileHub t
        let here := s.fillsOf hub
        if 256 ≤ here.length || 64 ≤ (here.filter (fun (kf : Nat × Fill) => kf.2.seat == v.seatNo)).length then s
        else
          let n := v.seat.ns.getD (0, false)
          let fill : Fill := { seat := v.seatNo, hub := hub, desc := d, ns := n.1, rw := n.2, turn := v.seat.turn.toNat,
                               places := (s.fillUnits v.seat (smToSlot d) (smDst d) (smLen d)).getD [],
                               next := 0, done := 0, outcomes := [], repairs := [], view := v.view, ctx := c }
          let f := s'.flash
          let s := s'.setFlash { f with fills := FMap.insert f.fills f.nextFill fill, nextFill := f.nextFill + 1 }
          let named := if dSig d then (crefTarget v.seat v.view (dSigRef d)).toList else []
          let s := s.onSeat v.seatNo (fun x =>
            { x with fillCtrs := x.fillCtrs ++ named.filter (fun g => !x.fillCtrs.contains g) })
          s.markDone t c

def execFillAccept (tile ctx : Nat) (s : State) : Out := .next (s.fillAccept tile ctx)

/-- A seat's STREAMs are outstanding (R276). -/
def State.fillsOpen (s : State) (seat : Nat) : Bool :=
  s.flash.fills.any (fun (kf : Nat × Fill) => kf.2.seat == seat) || s.flash.asks.any (fun a => (s.ctx a.1 a.2).seat == seat)

/-- A seat's fills stop at the next logical stripe, without a signal: the units of the stripe that each is at still land
(R300). -/
def State.stopFills (s : State) (seat : Nat) : State :=
  let f := s.flash
  let stop (x : Fill) : Fill := if x.seat = seat then { x with places := x.places.take x.next, stopped := true } else x
  s.setFlash { f with fills := f.fills.map (fun (kf : Nat × Fill) => (kf.1, stop kf.2)),
                      asks := f.asks.filter (fun a => (s.ctx a.1 a.2).seat != seat) }

/-! ### Landing a unit (R296, R297, R301 to R303) -/

def State.setFill (s : State) (id : Nat) (x : Fill) : State := s.setFlash { s.flash with fills := FMap.insert s.flash.fills id x }

/-- Fill data of n bytes goes into the fill slots of scheduled stacks, 2,048 bytes a frame (R253, R277). -/
def State.fillSlots (s : State) (a n : Nat) : State :=
  [2 * regionOf a, 2 * regionOf a + 1].foldl (fun s st =>
    if (s.stack st).demand then s
    else s.count 0x4008 none st (ceilDiv ((wordsOf a n).filter (fun w => stackOf w == st)).length 32)) s

/-- Unit i of a fill is done: its bytes land from a hub, or poison of cause 0b10; an outcome other than a plain read is
kept. -/
def State.unitDone (s : State) (id i hub : Nat) (data : Option Bytes) (outcome : Option (Nat × Nat)) : State :=
  match FMap.find? s.flash.fills id with
  | none => s
  | some x =>
    let a := x.places.getD i 0
    let s := ((s.hbmMoved x.seat a 4096 true).fillSlots a 4096).carryHub hub a 4096 true
    let s := match data with
      | some b => s.store a (padTo 4096 b)
      | none => s.poisonRange a 4096 2
    let s := (s.count 0x6002 (some x.seat) x.hub 4096).charge x.seat acctFlashRd 4096
    s.setFill id { x with done := x.done + 1,
                          outcomes := match outcome with | some o => FMap.insert x.outcomes i o | none => x.outcomes }

/-- A unit that nothing recovers: poison, and the count (R301). -/
def State.unitLost (s : State) (w : UnitWork) (mstatus : Nat) : State :=
  match FMap.find? s.flash.fills w.fill with
  | none => s
  | some x => (s.unitDone w.fill w.index x.hub none (some (if w.quarantined then 3 else 1, mstatus))).count 0x7000 none x.hub 1

/-- The number of a fill's unit in its namespace. -/
def Fill.unit (x : Fill) (i : Nat) : Nat := smSrc x.desc / 4096 + i

def State.addUnit (s : State) (w : UnitWork) : State × Nat :=
  let f := s.flash
  (s.setFlash { f with units := FMap.insert f.units f.nextUnit w, nextUnit := f.nextUnit + 1 }, f.nextUnit)

def State.dropUnit (s : State) (u : Nat) : State :=
  let f := s.flash
  s.setFlash { f with units := FMap.erase f.units u, mirrorBytes := FMap.erase f.mirrorBytes u,
                      mirrorFailed := FMap.erase f.mirrorFailed u }

/-- The fetch of a unit from the mirror begins: TC3 reads of 4,096 bytes under the seat's epoch (R302). -/
def State.mirrorFetch (s : State) (u : Nat) (x : Fill) (i : Nat) : State :=
  let d := x.desc
  s.openReads x.hub x.seat (smNode d) 3 0 (smKey d) (smOffset d + 4096 * i) 0 4096 true (.mirror u)

/-- A unit that steps 1 to 4 do not give goes to the mirror, or is lost (R298, R301, R302). -/
def State.unitMirror (s : State) (w : UnitWork) : State :=
  match FMap.find? s.flash.fills w.fill with
  | none => s
  | some x =>
    if smMirror x.desc then
      let r := s.addUnit { w with step := 5 }
      r.1.mirrorFetch r.2 x w.index
    else if w.quarantined then s.unitDone w.fill w.index x.hub none (some (3, 0))
    else s.unitLost w 0

/-! ### The turns of the fills (R296, R312) -/

/-- The fill whose turn it is on a hub: seats in ascending rotation, within a seat its fills in the order of acceptance. -/
def State.nextFillOf (s : State) (hub : Nat) : Option (Nat × Fill) :=
  let open_ : FMap Fill := (s.fillsOf hub).filter (fun (kf : Nat × Fill) => kf.2.next < kf.2.places.length)
  let seats := open_.map (fun (kf : Nat × Fill) => kf.2.seat)
  let last := FMap.get 63 s.flash.lastSeat hub
  match ((List.range 64).map (fun i => (last + 1 + i) % 64)).find? (fun n => seats.contains n) with
  | none => none
  | some n =>
    let mine := open_.filter (fun (kf : Nat × Fill) => kf.2.seat == n)
    match FMap.find? s.flash.lastFill (hub * 64 + n) with
    | some l => (List.find? (fun (kf : Nat × Fill) => l < kf.1) mine).orElse (fun _ => mine.head?)
    | none => mine.head?

/-- A page operation of a fill on a channel, which gives background work its share (R307). -/
def State.fillPage (s : State) (ch : Nat) : State :=
  s.setFlash { s.flash with share := FMap.insert s.flash.share ch (FMap.get 0 s.flash.share ch + 1) }

/-- FILL_STRIPE: the fill whose turn it is reads its next logical stripe; units that need no recovery land, those that
`failedUnits` names, by number in the stripe, go on to the recovery steps, those on a page that has failed or was left empty
at once to step 4, and those in quarantine to the mirror or to poison (R291, R296, R298, R301, R312). -/
def State.fillStripe (s : State) (hub : Nat) (failedUnits : List Nat) : State :=
  match s.nextFillOf hub with
  | none => s
  | some (id, x) =>
    let first := x.unit x.next
    let ls := first / stripeUnits
    let n := min (x.places.length - x.next) ((ls + 1) * stripeUnits - first)
    let key := lsKey x.ns ls
    let place := FMap.get 0 s.flash.live.map key
    let gone (t : NandStripe) (ch : Nat) : Bool := s.flash.pageGone place ch || t.absent.contains ch
    let stripe : NandStripe := (s.stripe? key).getD { ns := x.ns, ls := ls, wseq := 0, units := [] }
    let lost := FMap.get 0 s.flash.live.lost key
    let s := (s.setFill id { x with next := x.next + n })
    let s := s.setFlash { s.flash with lastSeat := FMap.insert s.flash.lastSeat hub x.seat,
                                       lastFill := FMap.insert s.flash.lastFill (hub * 64 + x.seat) id }
    let here := (List.range n).map (fun i => (x.next + i, (first + i) % stripeUnits))
    let read := here.filter (fun p => (FMap.find? stripe.units p.2).isSome && !bit lost p.2)
    let chs := (unitChannels (read.map (·.2))).filter (fun ch => !gone stripe ch)
    let s := chs.foldl (fun (s : State) ch => s.fillPage ch) (s.placeReads place chs 1)
    here.foldl (fun s p =>
      match FMap.find? stripe.units p.2 with
      | none => s.unitDone id p.1 hub (some []) none
      | some b =>
        let w : UnitWork := { fill := id, index := p.1, step := 2, quarantined := bit lost p.2, place := place, data := b }
        let ch := dataChannel (p.2 / 4)
        if w.quarantined then s.unitMirror w
        else if gone stripe ch then (s.addUnit { w with step := 4 }).1
        else
          let s := s.moved (60 + ch) true 4096
          if failedUnits.contains p.2 then (s.addUnit w).1 else s.unitDone id p.1 (channelHub ch) (some b) none) s

def execFillStripe (hub : Nat) (failedUnits : List Nat) (s : State) : Out := .next (s.fillStripe hub failedUnits)

/-- A rebuild gives the stripe's units: of its 16 pages at most two are missing, by the reads of the rebuild, by a failure
or because they were left empty (R284, R298, R312). -/
def State.rebuilds (s : State) (place ch : Nat) (bad : List Nat) : Bool :=
  let absent := match FMap.find? s.flash.nand place with | some t => t.absent | none => []
  decide (((List.range 16).filter (fun c => c == ch || bad.contains c || absent.contains c || s.flash.pageGone place c)).length ≤ 2)

/-- UNIT_RECOVERY: a step of R298 ends. A unit that it recovers lands as the fill found it; one that step 4 does not
recover goes into quarantine, where its stripe is still mapped there, and its block is to be retired (R293, R298, R299, R301,
R306, R309). -/
def State.unitRecovery (s : State) (u : Nat) (r : Recovery) : State :=
  match FMap.find? s.flash.units u with
  | none => s
  | some w =>
    match FMap.find? s.flash.fills w.fill with
    | none => s.dropUnit u
    | some x =>
      let n := x.unit w.index
      let key := unitKey x.ns n
      let ch := dataChannel (n % stripeUnits / 4)
      let block := blockKey ch (s.flash.live.block (w.place / sbPages) ch)
      if 5 ≤ w.step then s
      else
        let others := (List.range 16).filter (fun c => c != ch && !s.flash.pageGone w.place c)
        let read := if w.step < 4 then s.placeReads w.place [ch] (if w.step = 3 then 2 else r.reads) else s.placeReads w.place others 1
        let ok := if w.step < 4 then r.recovered else s.rebuilds w.place ch r.bad
        if ok then
          (if w.step ≤ 3 then (read.dropUnit u).scheduleMove block false else read.dropUnit u).unitDone w.fill w.index (channelHub ch)
            (some w.data) none
        else if w.step < 4 then read.setFlash { read.flash with units := FMap.insert read.flash.units u { w with step := w.step + 1 } }
        else
          let s := read.dropUnit u
          let s := if FMap.find? s.flash.live.map key = some w.place then
              s.setLost key (maskSet (FMap.get 0 s.flash.live.lost key) (n % stripeUnits) true) else s
          (s.scheduleMove block true).unitMirror w

def execUnitRecovery (unit : Nat) (recovered : Recovery) (s : State) : Out := .next (s.unitRecovery unit recovered)

/-! ### Mirrors (R302, R303) -/

/-- MIRROR_FETCH_DONE: every read of the fetch has ended: the mirror's bytes land, or the unit is lost with the status of
the fetch; a unit of a read-write namespace is to be written back. -/
def State.mirrorDone (s : State) (u : Nat) : State :=
  match FMap.find? s.flash.units u with
  | none => s
  | some w =>
    match FMap.find? s.flash.fills w.fill with
    | none => s.dropUnit u
    | some x =>
      if w.step ≠ 5 || s.owned (.mirror u) then s
      else
        match FMap.find? s.flash.mirrorFailed u with
        | some st => (s.dropUnit u).unitLost w (statusCode st)
        | none =>
          let b := FMap.get [] s.flash.mirrorBytes u
          let s := (s.dropUnit u).unitDone w.fill w.index x.hub (some b) (some (2, 0))
          if x.rw then
            match FMap.find? s.flash.fills w.fill with
            | some y => s.setFill w.fill { y with repairs := y.repairs ++ [(y.unit w.index, b)] }
            | none => s
          else s

def execMirrorFetchDone (unit : Nat) (s : State) : Out := .next (s.mirrorDone unit)

/-- MIRROR_FETCH_TIMEOUT: 100 ms have passed: the unit is lost with TIMEOUT (R302). -/
def State.mirrorTimeout (s : State) (u : Nat) : State :=
  match FMap.find? s.flash.units u with
  | none => s
  | some w =>
    if w.step ≠ 5 then s
    else
      let ni := s.ni
      let left := ni.requests.filter (fun (kr : Nat × Request) => !decide (kr.2.owner = .mirror u))
      let s : State := { s with ni := { ni with requests := left } }
      (s.dropUnit u).unitLost w (statusCode .timeout)

def execMirrorFetchTimeout (unit : Nat) (s : State) : Out := .next (s.mirrorTimeout unit)

/-! ### The end of a fill (R157, R297, R303, R305) -/

/-- Runs of consecutive units with the same outcome: first, count, event, mirror status. -/
def outcomeRuns (m : FMap (Nat × Nat)) : List (Nat × Nat × Nat × Nat) :=
  m.foldl (fun (a : List (Nat × Nat × Nat × Nat)) (io : Nat × Nat × Nat) =>
    match a.getLast? with
    | some (f, n, o) => if f + n = io.1 && o = io.2 then a.dropLast ++ [(f, n + 1, o)] else a ++ [(io.1, 1, io.2)]
    | none => [(io.1, 1, io.2)]) []

/-- A flash event record goes to the seat's queue, or is dropped and counted (R305). -/
def State.flashEvent (s : State) (x : Fill) (run : Nat × Nat × Nat × Nat) : State :=
  match s.seat? x.seat with
  | none => s
  | some q =>
    let ev := [BitVec.ofNat 8 run.2.2.1, (0 : Byte)] ++ natLe 2 run.2.2.2 ++ natLe 4 run.2.1 ++ natLe 8 (smSrc x.desc + 4096 * run.1)
      ++ natLe 8 (smDst x.desc + 4096 * run.1) ++ natLe 8 x.turn
    match s.ringAppend x.seat q q.areas.event ev with
    | some s => s.event x.seat evtFlashEvent
    | none => s.count 0x7003 (some x.seat) 0 1

/-- FILL_END: every unit of a fill is done: its event records are written, its completion signal is made unless it was
stopped, and the units taken from the mirror wait to be written back (R157, R297, R300, R303, R305). -/
def State.fillEnd (s : State) (id : Nat) : State :=
  match FMap.find? s.flash.fills id with
  | none => s
  | some x =>
    if x.done < x.places.length then s
    else
      let s := (outcomeRuns x.outcomes).foldl (fun s r => s.flashEvent x r) s
      let s := s.setFlash { s.flash with fills := FMap.erase s.flash.fills id }
      let s := x.repairs.foldl (fun s ub =>
        let f := s.flash
        let r : Repair := { hub := x.hub, ns := x.ns, unit := ub.1, data := ub.2 }
        s.setFlash { f with repairs := FMap.insert f.repairs f.nextRepair r, nextRepair := f.nextRepair + 1 }) s
      match s.seat? x.seat with
      | none => s
      | some q =>
        if dSig x.desc && !x.stopped then
          match crefTarget q x.view (dSigRef x.desc) with
          | some g =>
            let sig : Signal := { seat := x.seat, target := g, isSet := false, value := BitVec.ofNat 32 (dSigVal x.desc),
                                  tile := x.view, ctx := x.ctx, parks := false }
            s.sendSignal sig
          | none => s
        else s

/-- What is left of a seat's fills at a drain limit ends: the event records of the units that are done are written (R301,
R305, R614). -/
def State.dropFills (s : State) (seat : Nat) : State :=
  let mine := s.flash.fills.filter (fun (kf : Nat × Fill) => kf.2.seat == seat)
  let s := mine.foldl (fun s kf => (outcomeRuns kf.2.outcomes).foldl (fun s r => s.flashEvent kf.2 r) s) s
  let f := s.flash
  s.setFlash { f with fills := f.fills.filter (fun (kf : Nat × Fill) => kf.2.seat != seat),
                      units := f.units.filter (fun (ku : Nat × UnitWork) => !mine.any (fun kf => kf.1 == ku.2.fill)),
                      asks := f.asks.filter (fun a => (s.ctx a.1 a.2).seat != seat) }

def execFillEnd (fill : Nat) (s : State) : Out := .next (s.fillEnd fill)

/-- Grown bad blocks of a channel. -/
def FlashMap.badOf (m : FlashMap) (ch : Nat) : Nat := (m.bad.filter (fun b => b / 2 ^ 20 == ch)).length

/-- A channel's replacement blocks at manufacture: it has a reserve, so at least one (R311, log 1). -/
def reserveBlocks : Nat := Config.moreReserveBlocks + 1

/-- The replacement reserve of a channel in percent of that at manufacture (R311). -/
def State.reservePct (s : State) (ch : Nat) : Nat :=
  (reserveBlocks - s.flash.live.badOf ch) * 100 / reserveBlocks

/-- Every namespace is read-only: some channel's reserve is below 5 % (R311). -/
def State.flashReadOnly (s : State) : Bool := (List.range 16).any (fun ch => s.reservePct ch < 5)

/-- MIRROR_REPAIR_WRITE: a unit taken from a mirror is written back as a write of the namespace is, and leaves quarantine,
unless every namespace is read-only (R303, R304, R311, R313). -/
def State.repairWrite (s : State) (r : Nat) : State :=
  match FMap.find? s.flash.repairs r with
  | none => s
  | some x =>
    let s := s.setFlash { s.flash with repairs := FMap.erase s.flash.repairs r }
    if (s.stripe? (unitKey x.ns x.unit)).isNone || s.flashReadOnly then s
    else ((s.writeUnits x.ns x.unit [some (padTo 4096 x.data)]).nsWritten 4096).count 0x7001 none x.hub 1

def execMirrorRepairWrite (repair : Nat) (s : State) : Out := .next (s.repairWrite repair)

/-! ### Background work and health (R306 to R312) -/

/-- A block is retired as grown bad, and a replacement block takes its place in its superblock (R311). -/
def State.retireBlock (s : State) (ch b : Nat) : State :=
  let key := blockKey ch b
  if s.flash.live.bad.contains key then s
  else
    let sb := s.flash.live.sbOf ch b
    let was := s.reservePct ch
    let s := (s.journal (.bad key)).journal (.member (sb * 16 + ch) (2 ^ 19 + s.flash.live.badOf ch))
    let s := s.setFlash { s.flash with moves := s.flash.moves.erase key, retire := s.flash.retire.erase key }
    let s := (s.count 0x7005 none ch 1).gauge 0x7007 none ch (reserveBlocks - s.flash.live.badOf ch)
    if 25 ≤ was && s.reservePct ch < 25 then s.logEvent 0x0503 none 9 ch 0 (s.reservePct ch) else s

/-- The stripes that background work may move now: with no fill outstanding as many as there are; else, for 1 of every 32
page operations of each channel that fills use, or 1 of every 4 while free superblocks are few, those whose read and program
the channel's share covers (R288, R307). -/
def State.shareStripes (s : State) (n : Nat) : Nat :=
  if s.flash.fills.isEmpty then n
  else
    let each := if s.flash.pressure.isSome then 6 else 62
    ((List.range 16).filter (fun ch => ch != 7 && ch != 15)).foldl (fun a ch => min a (FMap.get 0 s.flash.share ch / each)) n

/-- Background work on a number of stripes takes the share of every channel (R307). -/
def State.takeShare (s : State) (n : Nat) : State :=
  let each := if s.flash.pressure.isSome then 6 else 62
  if s.flash.fills.isEmpty then s
  else s.setFlash { s.flash with share := s.flash.share.map (fun (cn : Nat × Nat) => (cn.1, cn.2 - each * n)) }

/-- The stripes of a superblock that are mapped. -/
def State.sbStripes (s : State) (sb : Nat) : Nat := (s.flash.live.map.filter (fun (kp : Nat × Nat) => kp.2 / sbPages == sb)).length

/-- The block's data is moved, as far as the share of background work goes; once all of it is, the block is retired where
that is due. -/
def State.moveBlock (s : State) (ch b : Nat) : State :=
  let key := blockKey ch b
  let sb := s.flash.live.sbOf ch b
  let n := s.shareStripes (s.sbStripes sb)
  let all := n = s.sbStripes sb
  let s := ((s.takeShare n).relocateSome sb n).gcPressure
  if !all then s
  else if s.flash.retire.contains key then s.retireBlock ch b
  else s.setFlash { s.flash with moves := s.flash.moves.erase key }

/-- BACKGROUND_WORK: the translation layer moves the data of a block's superblock to new stripes: a scheduled move, a
retirement, garbage collection or wear levelling (R306 to R308, R310). -/
def execBackgroundWork (channel block : Nat) (s : State) : Out :=
  .next (if s.flash.available && channel < 16 then s.moveBlock channel block else s)

/-- READ_DISTURB_RELOCATE: a block with 8,000,000 page reads since its erase, or one that is scheduled, is moved, and counted
once its data is (R309). -/
def execReadDisturbRelocate (channel block : Nat) (s : State) : Out :=
  .next (
    let key := blockKey channel block
    let n := s.sbStripes (s.flash.live.sbOf channel block)
    if s.flash.available && channel < 16 && (8000000 ≤ FMap.get 0 s.flash.live.reads key || s.flash.moves.contains key) then
      let t := s.moveBlock channel block
      if s.shareStripes n = n then t.count 0x7002 none (channelHub channel) 1 else t
    else s)

/-- PATROL_READ: every programmed page of a block is read, and a block with a weak page is to be moved; while fills are
outstanding only within the share of the channel (R307, R309, R310). -/
def State.patrolRead (s : State) (ch b : Nat) (weak : Bool) : State :=
  let key := blockKey ch b
  let sb := s.flash.live.sbOf ch b
  let n := (s.flash.nand.filter (fun (ps : Nat × NandStripe) => ps.1 / sbPages == sb)).length
  let each := if s.flash.pressure.isSome then 3 else 31
  let held := FMap.get 0 s.flash.share ch
  let free := s.flash.fills.isEmpty || ch == 7 || ch == 15
  if !free && held < each * n then s
  else
    let s := if free then s else s.setFlash { s.flash with share := FMap.insert s.flash.share ch (held - each * n) }
    let s := (s.blockReads key n).moved (60 + ch) true (16384 * n)
    if weak && 0 < n then s.scheduleMove key false else s

def execPatrolRead (channel block : Nat) (weak : Bool) (s : State) : Out :=
  .next (if s.flash.available && channel < 16 then s.patrolRead channel block weak else s)

/-- BLOCK_PROGRAM_FAIL: a block that fails a program or an erase is retired; its superblock's stripes are written elsewhere
and nothing is lost (R311). -/
def execBlockProgramFail (channel block : Nat) (s : State) : Out :=
  .next (if s.flash.available && channel < 16 then
      (s.relocate (s.flash.live.sbOf channel block)).retireBlock channel block
    else s)

/-- CHANNEL_FAILURE: a whole channel, or one NAND package of it, fails: its pages count as erasures from now on (R312). -/
def State.channelFailure (s : State) (ch : Nat) (package : Option Nat) : State :=
  match package with
  | none =>
    if s.flash.failedChannels.contains ch then s
    else (s.setFlash { s.flash with failedChannels := s.flash.failedChannels ++ [ch] }).logEvent 0x0501 none 9 ch 0 2
  | some p =>
    let k := 2 * ch + p % 2
    if s.flash.failedPackages.contains k then s
    else (s.setFlash { s.flash with failedPackages := s.flash.failedPackages ++ [k] }).logEvent 0x0501 none 9 ch 0 3

def execChannelFailure (channel : Nat) (package : Option Nat) (s : State) : Out :=
  .next (if channel < 16 then s.channelFailure channel package else s)

/-! ### Namespaces (R289 to R292) -/

/-- Extents that no namespace holds, and extents that a port's namespaces hold. -/
def State.extentsFree (s : State) : Nat :=
  s.ident.extents - s.flash.live.nss.foldl (fun a (kn : Nat × Namespace) => a + kn.2.extents) 0

def State.extentsOf (s : State) (port : Nat) : Nat :=
  s.flash.live.nss.foldl (fun a (kn : Nat × Namespace) => if kn.2.port = port then a + kn.2.extents else a) 0

/-- Seats that a namespace is attached to. -/
def State.nsSeats (s : State) (ns : Nat) : List (Nat × Bool) :=
  s.seats.filterMap (fun (ks : Nat × Seat) => match ks.2.ns with | some n => if n.1 = ns then some (ks.1, n.2) else none | none => none)

/-- The logical stripes of a namespace unmapped and the namespace gone (R292). -/
def State.nsDelete (s : State) (ns : Nat) : State :=
  let here : FMap Nat := s.flash.live.map.filter (fun (kp : Nat × Nat) => kp.1 / 2 ^ 32 == ns)
  ((here.foldl (fun s (kp : Nat × Nat) => s.journal (.map kp.1 none)) s).journal (.ns ns none)).gcPressure

/-- Units in quarantine (R301). -/
def State.quarantined (s : State) : Nat :=
  s.flash.live.lost.foldl (fun a (kl : Nat × Nat) => a + (bitsSet kl.2 stripeUnits).length) 0

/-- The gauges of the tier take their values at a start (R588, R591). -/
def State.flashGauges (s : State) : State :=
  let s := (List.range 16).foldl (fun (s : State) ch => s.gauge 0x7007 none ch (reserveBlocks - s.flash.live.badOf ch)) s
  s.gauge 0x7008 none 0 (s.flash.written * 1000 / s.ident.ratedBytes)

def execFlashMapLoad (fallback goodBanks : List Nat) (goodRecords : Nat) (s : State) : Out :=
  .next (if s.mod.state ≠ .init || s.mod.flashDone then s else (s.flashMapLoad fallback goodBanks goodRecords).flashGauges)

end Sys2Proof.Machine
end

