-- ==== Sys2Proof/Machine/Hbm.lean ====
section
/-!
DEFINITION. The HBM controllers: frames and data slots (R251 to R254, R258), error correction and poison (R261 to R268),
and the scrubbers (R267).
-/

namespace Sys2Proof.Machine

/-- Data slots of a frame (R253), and the mc of direction changes that its guard absorbs (R254). -/
def frameSlots : Nat := 941
def guardSlots : Nat := 18

/-- The channel of an HBM address (R249). -/
def channelOf (a : Nat) : Nat := a / 64 % 32

/-- A correction is counted and logged; an uncorrectable error becomes poison of a cause in its word, counted and logged
with its place (R263, R265, R268, R561). -/
def State.eccFound (s : State) (o : EccOutcome) (a cause corr poison : Nat) (seat : Option Nat) (inst kind index sub detail : Nat) :
    State :=
  match o with
  | .clean => s
  | .corrected => (s.count corr seat inst 1).logEvent 0x0101 none kind index sub detail
  | .uncorrectable =>
    ((s.poisonRange a 1 cause).count poison seat inst 1).logEvent 0x0102 none kind index sub (detail + cause * 2 ^ 62)

/-- An HBM burst read with an outcome. -/
def State.hbmEcc (s : State) (a : Nat) (o : EccOutcome) : State :=
  let st := stackOf a
  s.eccFound o (wordBase a) 0 0x4009 0x400A none st 4 st 6 (wordBase a)

/-- The data slot, counted from the frame's first, at or after a number of mc from the frame's start (R253). -/
def dataSlotAt (mc : Nat) : Nat := mc / 1024 * frameSlots + min frameSlots (mc % 1024 - 65)

/-- An access takes its data slots: the first in which every channel that it needs is free, the changes of direction counted
that the guard does not absorb; one that does not fit in its frame starts in the next, and one that fits no frame starts in
the first data slot of a frame; with the frame boundaries it waits for or spans (R254). -/
def Slots.serve (z : Slots) (arrival : Nat) (w : HbmWant) : Slots × Nat :=
  let turned (c : Nat) : Bool := match FMap.find? z.direction c with | some d => d != w.write | none => false
  let changes := w.need.foldl (fun m cn => if turned cn.1 then FMap.insert m cn.1 (FMap.get 0 m cn.1 + 1) else m) z.changes
  let after (c : Nat) : Nat := FMap.get 0 z.used c + (if turned c && guardSlots < 2 * FMap.get 0 changes c then 2 else 0)
  let free := w.need.foldl (fun a cn => max a (after cn.1)) arrival
  let most := w.need.foldl (fun a cn => max a cn.2) 0
  let fits := free % frameSlots + most ≤ frameSlots
  let start := if fits then free else roundUp free frameSlots
  ({ direction := w.need.foldl (fun m cn => FMap.insert m cn.1 w.write) z.direction
     changes := changes
     used := w.need.foldl (fun m cn => FMap.insert m cn.1 (start + cn.2)) z.used },
   if fits then 0 else if most ≤ frameSlots then 1 else (most - 1) / frameSlots)

/-- The accesses of one mc are served in the order of R105, with the boundaries that they waited for or span. -/
def Stack.serveAll (x : Stack) (ws : List HbmWant) : Slots × Nat :=
  (arbOrder 11 x.arbPtr HbmWant.req ws).foldl (fun (a : Slots × Nat) w =>
    let r := a.1.serve (dataSlotAt (x.arrivedMc - x.frameStart / mcUnits)) w
    (r.1, a.2 + r.2)) (x.mcSlots, 0)

/-- A request of an mc was refused: two of its accesses wanted one channel. -/
def anyRefused : List HbmWant → Bool
  | [] => false
  | w :: t => t.any (fun v => v.need.any (fun cn => (FMap.find? w.need cn.1).isSome)) || anyRefused t

/-- A new mc: the pointer moves on after one in which a request was refused (R105). -/
def Stack.newMc (x : Stack) (mc : Nat) : Stack :=
  { x with arbPtr := if anyRefused x.arrived then (x.arbPtr + 1) % 11 else x.arbPtr
           arrivedMc := mc, arrived := [], mcSlots := x.slots }

/-- An access reaches a controller: it is served among those of its mc, whatever order they were commanded in (R105,
R251). -/
def Stack.arrive (x : Stack) (now : Nat) (w : HbmWant) : Stack × Nat :=
  let x := if x.arrivedMc = now / mcUnits then x else x.newMc (now / mcUnits)
  let r := x.serveAll (x.arrived ++ [w])
  ({ x with arrived := x.arrived ++ [w], slots := r.1 }, r.2 - (x.serveAll x.arrived).2)

/-- The bursts of a range on each channel of a stack. -/
def burstsOn (st a n : Nat) : FMap Nat :=
  ((wordsOf a n).filter (fun w => stackOf w == st)).foldl (fun m w =>
    FMap.insert m (channelOf w) (FMap.get 0 m (channelOf w) + 1)) []

/-- HBM_ACCESS: an access of a range by a requester of R251 is served: it takes data slots of a scheduled stack; a foreign
one is counted, and the kernels on the stack lose their exact time; what the decoder found in its bursts has its effect
(R251, R254, R258, R262 to R265). -/
def State.hbmAccess (s : State) (a n : Nat) (kind : AccessKind) (source : AccessSource) (o : EccOutcome) : State :=
  if n = 0 || hbmEnd < a + n || regionOf a ≠ regionOf (a + n - 1) then s
  else
    let r := regionOf a
    let s := [2 * r, 2 * r + 1].foldl (fun s st =>
      let need := burstsOn st a n
      let x := s.stack st
      if need.isEmpty || x.withdrawn then s
      else if x.demand then s
      else
        let z := x.arrive s.time { req := source.requester, need := need, write := decide (kind = .write) }
        let s := (s.setStack st z.1).count 0x4005 none st z.2
        if source.foreign then (s.count 0x4006 none st 1).stackInexact st else s) s
    if s.lostByte a then s
    else
      match kind with
      | .read => s.hbmEcc a o
      | .write => s

def execHbmAccess (address len : Nat) (kind : AccessKind) (source : AccessSource) (outcome : EccOutcome) (s : State) : Out :=
  .next (s.hbmAccess address len kind source outcome)

/-- HBM_FRAME: a scheduled stack's next frame begins: the other pseudo-channel is refreshed, and accesses that have gone
on into it keep their data slots (R253, R254). -/
def State.hbmFrame (s : State) (st : Nat) : State :=
  let x := s.stack st
  if 32 ≤ st || x.demand || x.withdrawn || !s.mod.dawnDone then s
  else
    let x := x.newMc (s.time / mcUnits)
    let z : Slots := { used := (x.slots.used.map (fun (cu : Nat × Nat) => (cu.1, cu.2 - frameSlots))).filter (fun (cu : Nat × Nat) => 0 < cu.2) }
    s.setStack st { x with frameStart := s.time, refreshOdd := !x.refreshOdd, slots := z, mcSlots := z }

def execHbmFrame (stack : Nat) (s : State) : Out := .next (s.hbmFrame stack)

/-- The address of burst n of a stack (R249). -/
def burstAt (st n : Nat) : Nat := st / 2 * regionBytes + n / 32 * 4096 + st % 2 * 2048 + n % 32 * 64

/-- HBM_SCRUB: the scrubber reads its next burst; a corrected one is written back, another becomes poison (R265, R267,
R268). -/
def State.hbmScrub (s : State) (st : Nat) (o : EccOutcome) : State :=
  let x := s.stack st
  if 32 ≤ st || x.withdrawn || !x.trained then s
  else
    let a := burstAt st x.scrubAt
    let next := (x.scrubAt + 1) % (regionBytes / 128)
    ((s.setStack st { x with scrubAt := next }).count 0x400B none st 1).hbmEcc a o

def execHbmScrub (stack : Nat) (outcome : EccOutcome) (s : State) : Out := .next (s.hbmScrub stack outcome)

/-- The seat that holds a module logical cluster, and its view of it. -/
def State.clusterSeat (s : State) (lc : Nat) : Option (Nat × Nat) :=
  s.seats.findSome? (fun (ks : Nat × Seat) => (ks.2.viewCluster lc).map (fun c => (ks.1, c)))

/-- The seat that holds a module logical tile, and its view of it. -/
def State.tileOwner (s : State) (lt : Nat) : Option (Nat × Nat) :=
  s.seats.findSome? (fun (ks : Nat × Seat) => (ks.2.viewTile lt).map (fun t => (ks.1, t)))

/-- SRAM_SCRUB: a region's cluster stores and Druind table store are read; an error is given with its physical address in a
cluster store, or its offset in the table store (R265, R267, R268). An uncorrectable error of a cluster store fences its
cluster in an event of its own (R566). An error that a read of a tile store of the region finds, for which the table has no
row, is given here too, with its physical address (log 61). -/
def State.sramScrub (s : State) (region : Nat) (errors : List (Nat × EccOutcome)) : State :=
  errors.foldl (fun s e =>
    if tileBase ≤ e.1 then
      let pt := (e.1 - tileBase) / tileSlot
      if pt / 64 ≠ region || tileBytes ≤ (e.1 - tileBase) % tileSlot then s
      else
        let owner := (s.tileAt pt).bind s.tileOwner
        s.eccFound e.2 (wordBase e.1) 1 0x101F 0x1020 (owner.map (·.1)) (match owner with | some o => o.2 | none => pt) 1 pt 0
          ((e.1 - tileBase) % tileSlot)
    else if clusterBase ≤ e.1 then
      let pc := (e.1 - clusterBase) / clusterBytes
      if pc / 8 ≠ region then s
      else
        let owner := (s.clusterAt pc).bind s.clusterSeat
        s.eccFound e.2 (wordBase e.1) 1 0x2004 0x2005 (owner.map (·.1)) (match owner with | some o => o.2 | none => pc) 2 pc 1
          ((e.1 - clusterBase) % clusterBytes)
    else
      match e.2 with
      | .clean => s
      | .corrected => (s.count 0x300A none region 1).logEvent 0x0101 none 3 region 2 e.1
      | .uncorrectable => s.logEvent 0x0102 none 3 region 2 (e.1 + 2 ^ 62)) s

def execSramScrub (region : Nat) (errors : List (Nat × EccOutcome)) (s : State) : Out :=
  .next (if region < 16 then s.sramScrub region errors else s)

end Sys2Proof.Machine
end

