-- ==== Sys2Proof/Machine/Completion.lean ====
section
/-!
DEFINITION. Command packets (15): the header and the opcode table (R535, R550), the checks of R536, who may issue and what
runs together (R537, R543), completion entries, responses and interrupts (R533, R538 to R541), and the replies of the
management transports (R553 to R557).
-/

namespace Sys2Proof.Machine

/-! ### The header (R535) -/

def chOpcode (b : Bytes) : Nat := fld b 0 2
def chSeat (b : Bytes) : Nat := byteAt b 2 % 64
def chIrq (b : Bytes) : Bool := bit (byteAt b 3) 0
def chFence (b : Bytes) : Bool := bit (byteAt b 3) 1
def chTag (b : Bytes) : Nat := fld b 4 2
def chLen (b : Bytes) : Nat := fld b 6 2
def chRespAddr (b : Bytes) : Nat := fld b 8 8
def chRespLen (b : Bytes) : Nat := fld b 16 4
def chArg (b : Bytes) : Nat := fld b 24 8
def chPayload (b : Bytes) : Bytes := b.drop 32

/-- Check 1 of R536. -/
def chLenOk (b : Bytes) : Bool := chLen b % 8 == 0 && chLen b ≤ 4064
/-- Check 2 of R536. -/
def chReservedOk (b : Bytes) : Bool := byteAt b 2 < 64 && byteAt b 3 < 4 && zeros b 20 24
/-- Slots that a packet occupies (R530). -/
def chSlots (b : Bytes) : Nat := (32 + chLen b + 63) / 64

/-! ### The opcode table (R550) -/

inductive CmdClass where
  | q | s | m
deriving DecidableEq, Repr

/-- A row of the opcode table: hardware (H) or Referee (R), class, issuers P, V, M, whether SEAT names the seat acted on,
payload bytes where the table fixes them, the bits of ARG that are not reserved. -/
structure Opcode where
  code : Nat
  hw : Bool
  cls : CmdClass
  p : Bool
  v : Bool
  m : Bool
  seat : Bool
  len : Option Nat
  arg : Nat
deriving DecidableEq, Repr

def all32 : Nat := 0xFFFFFFFF
def all64 : Nat := 0xFFFFFFFFFFFFFFFF

def opRows01 : List Opcode := [
  ⟨0x0101, false, .q, true, true, true, false, some 0, 0⟩,
  ⟨0x0102, false, .q, true, true, true, false, some 0, 0⟩,
  ⟨0x0103, false, .q, true, false, true, false, some 0, 0⟩,
  ⟨0x0104, false, .q, true, true, true, false, some 0, all64⟩,
  ⟨0x0105, false, .q, true, false, true, false, some 0, 3⟩]

def opRows02 : List Opcode := [
  ⟨0x0201, false, .s, true, false, false, true, some 64, 0⟩,
  ⟨0x0202, false, .s, true, false, false, true, some 64, 0⟩,
  ⟨0x0203, false, .s, true, false, true, true, some 0, all32⟩,
  ⟨0x0204, true, .q, true, true, true, true, some 0, 0⟩,
  ⟨0x0205, true, .s, true, true, false, true, some 0, all64⟩,
  ⟨0x0206, false, .s, true, true, false, true, some 0, all64⟩,
  ⟨0x0207, false, .s, true, true, false, true, some 32, 0⟩,
  ⟨0x0208, false, .s, true, true, false, true, some 0, all64⟩,
  ⟨0x0209, false, .s, true, false, true, true, some 0, all32⟩,
  ⟨0x020A, false, .s, true, true, false, true, some 0, all32⟩,
  ⟨0x020B, false, .m, false, false, true, false, some 64, 3⟩]

def opRows03 : List Opcode := [
  ⟨0x0301, true, .s, true, true, false, true, some 32, 0xFFF⟩,
  ⟨0x0302, true, .q, true, true, true, true, some 0, 0xFFF⟩,
  ⟨0x0303, false, .s, true, true, false, true, some 32, 0⟩,
  ⟨0x0304, false, .m, true, false, true, false, some 0, 0x11F⟩]

def opRows04 : List Opcode := [
  ⟨0x0401, true, .s, true, true, false, true, some 0, 0x3FFFF⟩,
  ⟨0x0402, false, .s, true, true, false, true, some 0, all64⟩,
  ⟨0x0403, false, .s, true, true, true, true, some 0, 0⟩,
  ⟨0x0404, false, .s, true, true, true, true, some 0, 0⟩,
  ⟨0x0405, false, .s, true, true, true, true, some 0, 0⟩,
  ⟨0x0406, false, .s, true, true, false, true, none, 0⟩,
  ⟨0x0407, false, .s, true, true, false, true, none, 0⟩]

def opRows05 : List Opcode := [
  ⟨0x0501, false, .m, false, false, true, false, some 0, 0xFFFF⟩,
  ⟨0x0502, false, .m, false, false, true, false, none, 0xFF011F⟩,
  ⟨0x0503, false, .m, false, false, true, false, some 0, 0xF71F⟩,
  ⟨0x0504, false, .m, false, false, true, false, some 24, 0⟩,
  ⟨0x0505, false, .q, true, false, true, false, some 0, 0⟩,
  ⟨0x0506, false, .s, true, true, false, true, some 64, 0⟩,
  ⟨0x0507, false, .s, true, true, false, true, some 0, 0xFFFFFFFF000003FF⟩,
  ⟨0x0508, false, .s, true, true, false, true, some 0, 0x3FF⟩]

def opRows06 : List Opcode := [
  ⟨0x0601, false, .m, true, false, false, false, some 0, all32⟩,
  ⟨0x0602, false, .m, true, false, false, false, some 0, 0xFFFF⟩,
  ⟨0x0603, false, .s, true, false, false, true, some 0, 0x1FFFF⟩,
  ⟨0x0604, false, .s, true, false, false, true, some 0, 0⟩,
  ⟨0x0605, false, .s, true, true, false, true, some 24, 0⟩,
  ⟨0x0606, false, .s, true, true, false, true, some 16, 0⟩,
  ⟨0x0607, false, .q, true, false, true, false, some 0, 0⟩,
  ⟨0x0608, false, .m, false, false, true, false, some 0, 0⟩,
  ⟨0x0609, false, .q, true, false, true, false, some 0, 0⟩]

def opRows07 : List Opcode := [
  ⟨0x0701, true, .q, true, true, true, true, some 0, 0⟩,
  ⟨0x0702, false, .s, true, true, true, true, some 152, 0⟩,
  ⟨0x0703, true, .q, true, true, true, true, some 0, 0xFF03⟩]

def opRows08 : List Opcode := [
  ⟨0x0801, false, .q, true, false, true, false, some 0, all64⟩,
  ⟨0x0802, false, .m, false, false, true, false, some 0, all64⟩,
  ⟨0x0803, false, .m, false, false, true, false, some 0, 0x3FF⟩,
  ⟨0x0804, false, .m, false, false, true, false, some 0, 0x3FF⟩,
  ⟨0x0805, false, .q, true, false, true, false, some 0, 0⟩,
  ⟨0x0806, false, .m, false, false, true, false, none, 0⟩,
  ⟨0x0807, false, .m, false, false, true, false, some 0, 0xFFFF⟩,
  ⟨0x0808, false, .m, false, false, true, false, some 0, all32⟩]

def opRows09 : List Opcode := [
  ⟨0x0901, false, .q, true, true, true, false, some 0, 0⟩,
  ⟨0x0902, false, .m, false, false, true, false, none, all64⟩,
  ⟨0x0903, false, .m, false, false, true, false, some 0, 1⟩,
  ⟨0x0A01, false, .m, false, false, true, false, some 0, 1⟩,
  ⟨0x0A02, false, .m, false, false, true, false, some 24, 0⟩,
  ⟨0x0A03, false, .q, false, false, true, false, some 0, 0⟩,
  ⟨0x0A04, false, .m, false, false, true, false, some 160, 0⟩]

def opTable : List Opcode :=
  opRows01 ++ opRows02 ++ opRows03 ++ opRows04 ++ opRows05 ++ opRows06 ++ opRows07 ++ opRows08 ++ opRows09

def opRow (code : Nat) : Option Opcode := opTable.find? (fun r => r.code == code)

/-- Bits of x outside a mask. -/
def outside (x mask : Nat) : Bool := (List.range 64).any (fun i => bit x i && !bit mask i)

/-- The issuer is allowed the opcode and the seat (R537). -/
def allowed (i : Issuer) (r : Opcode) (seat : Nat) : Bool :=
  match i with
  | .ring fn _ =>
    (r.p && fn % 16 == 0 && (!r.seat || seat / 16 == fn / 16)) || (r.v && (!r.seat || seat == fn))
  | .mgmt via => r.m && (r.code != 0x0A02 || (match via with | .i2c _ => true | _ => false))

/-- Checks 2 to 5 of R536, made as a command is taken. -/
def State.headerCheck (s : State) (i : Issuer) (b : Bytes) : Option Status :=
  let code := chOpcode b
  let group := code / 256
  if !chReservedOk b then some .cmdInvalid
  else
    match opRow code with
    | none => some .opcodeUnknown
    | some r =>
      if !allowed i r (chSeat b) then some .permissionDenied
      else
        let served : Bool := match i with
          | .ring _ _ => s.mod.state == .ready || group == 1
          | .mgmt _ => s.mod.state != .failsafe || group == 1 || group == 9
        if served then none else some .notReady

/-! ### Rings (R529 to R534, R663) -/

def State.ring (s : State) (fn q : Nat) : Ring := (s.fn fn).rings.getD q {}

def State.setRing (s : State) (fn q : Nat) (r : Ring) : State :=
  let f := s.fn fn
  s.setFn fn { f with rings := f.rings.set q r }

/-- Slots of the submission ring, entries of the completion ring, vector and thresholds (R663). -/
def rqSq (c : W64) : Nat := 2 ^ (c.toNat % 32)
def rqCq (c : W64) : Nat := 2 ^ (c.toNat / 2 ^ 8 % 32)
def rqVector (c : W64) : Nat := c.toNat / 2 ^ 16 % 128
def rqCount (c : W64) : Nat := c.toNat / 2 ^ 32 % 512
def rqTime (c : W64) : Nat := c.toNat / 2 ^ 48 % 1024

/-- The ring pair enters ERROR (R531, R666): its cause is kept and the function's event is raised. -/
def State.ringError (s : State) (fn q : Nat) (f : Ring → Ring) : State :=
  let r := s.ring fn q
  if r.state = .error then s.setRing fn q (f r)
  else (s.setRing fn q (f { r with state := .error })).event fn evtRingError

/-- Host memory is kept by host port and bus address: an unlisted byte is 0 (log 9). -/
def hostKey (port a : Nat) : Nat := port * 2 ^ 64 + a % 2 ^ 64

def State.hostBytes (s : State) (port a n : Nat) : Bytes :=
  (List.range n).map (fun i => FMap.get 0 s.host.hostMem (hostKey port (a + i)))

/-- The device writes host memory for a function: payload written on its host port (R524, R595). -/
def State.hostWrite (s : State) (fn a : Nat) (bs : Bytes) : State :=
  let port := fn / 16
  let m := ((List.range bs.length).zip bs).foldl (fun m ib => FMap.put 0 m (hostKey port (a + ib.1)) ib.2) s.host.hostMem
  ({ s with host := { s.host with hostMem := m } }.charge fn acctPcieWr bs.length).moved (56 + port) false bs.length

/-- The device reads host memory for a function. -/
def State.hostRead (s : State) (fn a n : Nat) : Bytes × State :=
  (s.hostBytes (fn / 16) a n, (s.charge fn acctPcieRd n).moved (56 + fn / 16) true n)

/-- The slots of a packet in ring order, wrapping from the last to slot 0 (R530). -/
def State.slotBytes (s : State) (port base size head n : Nat) : Bytes :=
  (List.range n).flatMap (fun i => s.hostBytes port (base + 64 * ((head + i) % size)) 64)

/-- The vector of a ring is raised for the completions not yet signalled (R541). -/
def State.signalRing (s : State) (fn q : Nat) : State :=
  let r := s.ring fn q
  (s.setRing fn q { r with unsignalled := 0 }).raiseVector fn (rqVector r.cfg)

/-- A completion with IRQ set counts toward the ring's thresholds (R541). -/
def State.countIrq (s : State) (fn q : Nat) : State :=
  let r := s.ring fn q
  let n := r.unsignalled + 1
  let s := s.setRing fn q { r with unsignalled := n, firstIrq := if r.unsignalled = 0 then s.time else r.firstIrq }
  if rqCount r.cfg ≤ n || rqTime r.cfg = 0 then s.signalRing fn q else s

/-! ### Completion entries (R533, R538, R539) -/

/-- The 32 bytes of a completion entry. -/
def entryBytes (b : Bytes) (st : Status) (phase : Bool) (ring sqHead respLen : Nat) (result : Bytes) : Bytes :=
  natLe 2 (chTag b) ++ natLe 2 (statusCode st) ++ natLe 2 (chOpcode b) ++
    [BitVec.ofNat 8 (chSeat b + (if phase then 128 else 0)), BitVec.ofNat 8 ring] ++
    natLe 4 sqHead ++ natLe 4 respLen ++ padTo 16 result

/-- A ring's completion: the response first, then its entry, whole; the tail advances and PHASE flips at each wrap. -/
def State.ringComplete (s : State) (fn q : Nat) (b : Bytes) (sqHead : Nat) (st : Status) (result resp : Bytes) : State :=
  let n := min resp.length (chRespLen b)
  let s := if chRespAddr b = 0 || n = 0 then s else s.hostWrite fn (chRespAddr b) (resp.take n)
  let r := s.ring fn q
  let s := s.hostWrite fn (r.cqBase.toNat + 32 * r.cqTail) (entryBytes b st r.phase q sqHead resp.length result)
  let last := r.cqTail + 1 = rqCq r.cfg
  let s := s.setRing fn q { r with cqTail := if last then 0 else r.cqTail + 1, phase := if last then !r.phase else r.phase,
                                   outstanding := r.outstanding - 1 }
  if chIrq b then s.countIrq fn q else s

/-! ### Replies of the management transports (R554, R556, R557, R612) -/

/-- The source of R557: an MCTP endpoint ID or a fabric node. -/
def mgmtSource : Mgmt → Bool × Nat
  | .i2c eid => (false, eid)
  | .vdm _ eid => (false, eid)
  | .fabric node _ => (true, node)

/-- A reply leaves: as an MCTP message, or as a MGMT packet by the port that the command came by where it is still Up, by
its route elsewhere. -/
def State.sendReply (s : State) (via : Mgmt) (reply : Bytes) : State :=
  match via with
  | .i2c eid => { s with mgmt := { s.mgmt with
      mctpOut := s.mgmt.mctpOut ++ [{ dest := eid, type := 0x7E, body := s.vendorMessage 2 reply }] } }
  | .vdm _ eid => { s with mgmt := { s.mgmt with
      mctpOut := s.mgmt.mctpOut ++ [{ dest := eid, type := 0x7E, body := s.vendorMessage 2 reply }] } }
  | .fabric node p =>
    let k := { mkPacket node 0x20 0 0 0 0 reply with src := s.fab.node }
    let x := s.port p
    if p < 24 && x.state = .up then
      s.setPort p { x with queue := x.queue ++ [{ req := 24, hub := portHub p, seat := none, pkt := k, sent := 0, origin := [] }] }
    else (s.startPacket 0 none k [] none).1

/-- The reply to a management command: the entry and its response, cut to what the transport carries. -/
def replyBytes (via : Mgmt) (entry resp : Bytes) : Bytes :=
  entry ++ resp.take (match via with | .fabric _ _ => 224 | _ => 4096)

/-- The reply is sent and kept with the last 64 of its source (R557). -/
def State.mgmtComplete (s : State) (via : Mgmt) (b : Bytes) (st : Status) (result resp : Bytes) : State :=
  let reply := replyBytes via (entryBytes b st false 0 0 resp.length result) resp
  let src := mgmtSource via
  let mine (k : KeptReply) : Bool := k.fabric == src.1 && k.source == src.2
  let kept := s.mgmt.kept ++ [{ fabric := src.1, source := src.2, tag := chTag b, crc := crc32c b, reply := reply }]
  let kept := if 64 < (kept.filter mine).length then kept.eraseP mine else kept
  { s with mgmt := { s.mgmt with kept := kept } }.sendReply via reply

/-! ### Commands in progress -/

def State.cmd? (s : State) (id : Nat) : Option Cmd := s.host.cmds.find? (fun c => c.id == id)

def State.dropCmd (s : State) (id : Nat) : State :=
  { s with host := { s.host with cmds := s.host.cmds.filter (fun c => c.id != id) } }

def State.beginCmd (s : State) (id : Nat) : State :=
  { s with host := { s.host with cmds := s.host.cmds.map (fun c => if c.id = id then { c with begun := true } else c) } }

/-- A command completes: its entry or reply is written, unless it is discarded with its ring (R545). -/
def State.complete (s : State) (id : Nat) (st : Status) (result resp : Bytes) : State :=
  match s.cmd? id with
  | none => s
  | some c =>
    let s := s.dropCmd id
    match c.issuer with
    | .mgmt via => if c.discard then s else s.mgmtComplete via c.packet st result resp
    | .ring fn q =>
      if c.discard then
        let r := s.ring fn q
        if r.state = .resetting then s.setRing fn q { r with outstanding := r.outstanding - 1 } else s
      else s.ringComplete fn q c.packet c.sqHead st result resp

/-- The seat that a class S command acts on. -/
def Cmd.onSeat (c : Cmd) (seat : Nat) : Bool :=
  match opRow (chOpcode c.packet) with
  | some r => r.cls == .s && chSeat c.packet == seat
  | none => false

def Cmd.class (c : Cmd) : Option CmdClass := (opRow (chOpcode c.packet)).map (·.cls)

/-- A launch that waits in its queue and a swap that waits for its turn are no running commands (R544, R211). -/
def Cmd.waits (c : Cmd) : Bool := chOpcode c.packet == 0x0401 || chOpcode c.packet == 0x0407

def Cmd.runs (c : Cmd) : Bool := c.begun && !c.waits

/-- The order of issuers whose commands are accepted in one hc (R543). -/
def Issuer.order : Issuer → Nat
  | .ring fn q => 4 * fn + q
  | .mgmt _ => 256

/-- c comes before d in acceptance order (R543). -/
def Cmd.before (c d : Cmd) : Bool :=
  let hc (x : Cmd) : Nat := x.acceptedAt / hcUnits
  hc c < hc d || (hc c == hc d && (c.issuer.order < d.issuer.order || (c.issuer.order == d.issuer.order && c.id < d.id)))

/-- A command may begin (R542, R543): Q at any time; S after every earlier S of its seat, and while no M runs; M while no
S or M runs; and at most 32 in the Referee. -/
def State.mayBegin (s : State) (c : Cmd) (r : Opcode) : Bool :=
  let busy := (s.host.cmds.filter (fun d => d.begun && (match opRow (chOpcode d.packet) with | some q => !q.hw | none => false))).length
  (r.hw || busy < 32) &&
  (match r.cls with
   | .q => true
   | .s => !(s.host.cmds.any (fun d => d.runs && (d.class == some .m || d.onSeat (chSeat c.packet))))
     && !(s.host.cmds.any (fun d => d.before c && !d.begun && d.onSeat (chSeat c.packet)))
   | .m => !(s.host.cmds.any (fun d => d.runs && (d.class == some .m || d.class == some .s))))

/-- What an opcode's own work answers: the state, the status where it ends at once (none: it goes on), RESULT and the
response. -/
structure Answer where
  s : State
  status : Option Status
  result : Bytes
  resp : Bytes
deriving DecidableEq, Repr

def Answer.ok (s : State) : Answer := { s := s, status := some .success, result := [], resp := [] }
def Answer.data (s : State) (resp : Bytes) : Answer := { s := s, status := some .success, result := [], resp := resp }
def Answer.runs (s : State) : Answer := { s := s, status := none, result := [], resp := [] }
/-- A refused command has no effect (R536). -/
def State.deny (s : State) (st : Status) : Answer := { s := s, status := some st, result := [], resp := [] }

/-- Check 6 of R536: a seat is there, and its state allows the opcode (R506): S commands not while it drains; some only
IDLE or HALTED. -/
def seatAllows (r : Opcode) (x : Option Seat) : Bool :=
  match x with
  | none => r.code == 0x0201
  | some x =>
    match r.code with
    | 0x0201 => true
    | 0x0206 => x.state == .idle
    | 0x0402 => x.state == .idle
    | 0x0405 => x.state == .halted
    | _ => r.cls != .s || x.state != .draining

/-- Check 7 of R536. -/
def lengthOk (r : Opcode) (b : Bytes) : Bool :=
  (match r.len with | some n => chLen b == n | none => true) && !outside (chArg b) r.arg

/-- An opcode's row: a command of the code that may begin passes checks 6 and 7, begins and does its work, or completes
with the status of the first check that fails. -/
def State.runCmd (s : State) (id code : Nat) (work : State → Cmd → Bytes → Answer) : State :=
  match s.cmd? id, opRow code with
  | some c, some r =>
    if c.begun || chOpcode c.packet ≠ code || !s.mayBegin c r then s
    else if r.seat && !seatAllows r (s.seat? (chSeat c.packet)) then s.complete id .seatState [] []
    else if !lengthOk r c.packet then s.complete id .cmdInvalid [] []
    else
      let a := work (s.beginCmd id) c c.packet
      match a.status with
      | some st => a.s.complete id st a.result a.resp
      | none => a.s
  | _, _ => s

/-- The work of a command on its seat. -/
def State.runSeat (s : State) (id code : Nat) (work : State → Nat → Seat → Bytes → Answer) : State :=
  s.runCmd id code (fun s _ b =>
    match s.seat? (chSeat b) with
    | some x => work s (chSeat b) x b
    | none => s.deny .seatState)

/-! ### Taking a command (R531, R532, R534, R536, R544) -/

/-- A command joins those accepted. -/
def State.accept (s : State) (i : Issuer) (b : Bytes) (sqHead : Nat) : State :=
  { s with host := { s.host with
      cmds := s.host.cmds ++ [{ id := s.host.nextCmd, issuer := i, packet := b, sqHead := sqHead, begun := false, discard := false,
                                acceptedAt := s.time }]
      nextCmd := s.host.nextCmd + 1 } }

/-- A launch may be accepted: no other S command of its seat runs or waits, and its queue has room (R544). -/
def State.launchRoom (s : State) (seat : Nat) : Bool :=
  !(s.host.cmds.any (fun d => d.onSeat seat && !d.waits)) &&
  (match s.seat? seat with
   | some x => x.launches.length + (s.host.cmds.filter (fun d => !d.begun && chOpcode d.packet == 0x0401 && chSeat d.packet == seat)).length < 1024
   | none => true)

/-- Referee commands in progress (R542). -/
def State.refereeRoom (s : State) : Bool :=
  (s.host.cmds.filter (fun d => match opRow (chOpcode d.packet) with | some q => !q.hw | none => false)).length < 32

/-- The next packet of a ring, where the device holds it whole, or as far as check 1 needs it. -/
def State.nextPacket (s : State) (fn q : Nat) : Option (Bytes × Nat) :=
  let r := s.ring fn q
  let size := rqSq r.cfg
  let held := (r.sqTail + size - r.sqHead) % size
  if r.state ≠ .enabled || held = 0 then none
  else
    let h := s.slotBytes (fn / 16) r.sqBase.toNat size r.sqHead 1
    let n := chSlots h
    if chLenOk h && held < n then none
    else some ((s.slotBytes (fn / 16) r.sqBase.toNat size r.sqHead n).take (32 + chLen h), n)

/-- COMMAND_ACCEPT: the next packet of a ring is accepted once a completion entry is reserved for it and its order allows
it; a header that fails check 1 puts the ring in ERROR (R531, R532, R534, R536). -/
def State.commandAccept (s : State) (fn q : Nat) : State :=
  match s.nextPacket fn q with
  | none => s
  | some (b, n) =>
    let r := s.ring fn q
    let size := rqSq r.cfg
    let cq := rqCq r.cfg
    let unread := (r.cqTail + cq - r.cqHead) % cq
    if cq - 1 ≤ r.outstanding + unread then s
    else if chFence b && 0 < r.outstanding then s
    else
      let head := (r.sqHead + n) % size
      let issuer := Issuer.ring fn q
      let failed := if chLenOk b then s.headerCheck issuer b else some .cmdInvalid
      let launch := chOpcode b == 0x0401
      let referee := match opRow (chOpcode b) with | some o => !o.hw | none => false
      if failed.isNone && ((launch && !s.launchRoom (chSeat b)) || (referee && !s.refereeRoom)) then s
      else
        let s := (s.hostRead fn (r.sqBase.toNat + 64 * r.sqHead) (64 * n)).2
        let s := s.setRing fn q { r with sqHead := head, outstanding := r.outstanding + 1 }
        match failed with
        | none => s.accept issuer b head
        | some st =>
          let s := s.ringComplete fn q b head st [] []
          if chLenOk b then s else s.ringError fn q (fun r => { r with badHeader := true })

def execCommandAccept (fn ring : Nat) (s : State) : Out :=
  .next (if fn < 64 && ring < 4 && s.fnPresent fn then s.commandAccept fn ring else s)

/-- IRQ_TIME_THRESHOLD: the first completion not yet signalled has waited for the time threshold (R541). -/
def execIrqTimeThreshold (fn ring : Nat) (s : State) : Out :=
  .next (if fn < 64 && ring < 4 && 0 < (s.ring fn ring).unsignalled then s.signalRing fn ring else s)

/-- The states in which the management transports are served (R552, R579, R606). -/
def State.mgmtServed (s : State) : Bool := s.mod.state == .init || s.mod.state == .ready || s.mod.state == .failsafe

/-- A command of a management transport: a repeated one draws its kept reply; a refused one its reply; any other is
accepted (R536, R537, R557). -/
def State.mgmtCommand (s : State) (via : Mgmt) (b : Bytes) : State :=
  let src := mgmtSource via
  match s.mgmt.kept.find? (fun k => k.fabric == src.1 && k.source == src.2 && k.tag == chTag b && k.crc == crc32c b) with
  | some k => s.sendReply via k.reply
  | none =>
    let lenOk := chLenOk b && b.length == 32 + chLen b
    match (if lenOk then s.headerCheck (.mgmt via) b else some .cmdInvalid) with
    | some st => s.mgmtComplete via b st [] []
    | none => s.accept (.mgmt via) b 0

/-- MCTP_VENDOR_COMMAND: a type 0x7E message with the module's vendor ID and a command, over I2C or from a listed PCIe
requester; any other requester is discarded and counted (R554, R555). -/
def State.mctpCommand (s : State) (via : Mgmt) (msg : Bytes) : State :=
  let listed : Bool := match via with
    | .vdm r _ => s.mgmt.aclRequesters.contains r
    | _ => true
  if !s.mgmtServed then s
  else if !listed then s.count 0xC001 none 0 1
  else if fld msg 0 3 = s.ident.vendorId / 256 % 256 + s.ident.vendorId % 256 * 256 + 2 ^ 16 && 35 ≤ msg.length then
    s.mgmtCommand via (msg.drop 3)
  else s

def execMctpVendorCommand (via : Mgmt) (message : Bytes) (s : State) : Out :=
  match via with
  | .fabric _ _ => .next s
  | _ => .next (s.mctpCommand via message)

/-- MGMT: a fabric packet with one whole command, from an admitted node; any other is discarded and counted (R556). -/
def State.mgmtIn (s : State) (i : Nat) : State :=
  match s.taken i [0x20] with
  | none => s
  | some q =>
    let s := s.dropTaken i false
    let b := q.pkt.payload
    if !s.mgmtServed || b.length < 32 || 256 < b.length || b.length ≠ 32 + chLen b
        || Nat.land q.pkt.src s.mgmt.aclMask ≠ s.mgmt.aclMatch then s.count 0x900A none (portHub (min q.port 23)) 1
    else s.mgmtCommand (.fabric q.pkt.src q.port) b

def execMgmt (index : Nat) (s : State) : Out := .next (s.mgmtIn index)

end Sys2Proof.Machine
end

