-- ==== Sys2Proof/Machine/Units.lean ====
section
/-!
DEFINITION. Physical units and the launch queue: launches that wait, are discarded or aborted (R510, R512), fences of tiles
and clusters (R565 to R567), remaps and returns (R25 to R32, R566, R570), self-tests (R569), withdrawn regions and stacks
(R568).
-/

namespace Sys2Proof.Machine

/-! ### Seats between IDLE and RUNNING, and the launch queue (R506, R510, R512) -/

/-- The RESULT of a launch (R547): turn number, ELAPSED_TC, EXACT. -/
def launchResult (turn elapsed : Nat) (exact : Bool) : Bytes :=
  natLe 8 turn ++ natLe 6 elapsed ++ [if exact then 1 else 0, 0]

/-- A seat that is IDLE or RUNNING is RUNNING while a kernel is in progress or a launch is queued (R506). -/
def State.seatSettle (s : State) (n : Nat) : State :=
  match s.seat? n with
  | none => s
  | some x =>
    let busy := x.running.isSome || !x.launches.isEmpty || (match x.drain with | some d => d.kind == .teardown | none => false)
    match x.state, busy with
    | .idle, true => s.setSeat n { x with state := .running }
    | .running, false => s.setSeat n { x with state := .idle }
    | _, _ => s

/-- Launches at the front of a queue that belong to the open turn: up to and including its TURN_END launch. -/
def openLaunches : List Launch → List Launch
  | [] => []
  | l :: rest => if l.turnEnd then [l] else l :: openLaunches rest

/-- Launches complete with a status and leave their seat's queue; a TURN_END launch among them ends the open turn. -/
def State.dropLaunches (s : State) (n : Nat) (ls : List Launch) (st : Status) : State :=
  match s.seat? n with
  | none => s
  | some x =>
    let s := s.setSeat n { x with launches := x.launches.filter (fun l => !ls.contains l),
                                  turnEnded := x.turnEnded || ls.any (·.turnEnd) }
    ls.foldl (fun s l => s.complete l.cmd st (launchResult x.turn.toNat 0 false) []) s

/-- The queued launches of the open turn are discarded, and those accepted later up to its TURN_END launch will be
(R512). -/
def State.discardTurn (s : State) (n : Nat) : State :=
  match s.seat? n with
  | none => s
  | some x =>
    if x.turnEnded then s
    else
      let s := s.setSeat n { x with turnAborted := true }
      s.dropLaunches n (openLaunches x.launches) .turnAborted

/-! ### Physical tiles and clusters -/

def State.setPtile (s : State) (pt : Nat) (x : PTile) : State :=
  { s with units := { s.units with ptiles := FMap.put {} s.units.ptiles pt x } }

def State.pcluster (s : State) (pc : Nat) : PCluster := FMap.get {} s.units.pclusters pc

def State.setPcluster (s : State) (pc : Nat) (x : PCluster) : State :=
  { s with units := { s.units with pclusters := FMap.put {} s.units.pclusters pc x } }

/-- Physical tiles that are not fenced (R32). -/
def State.healthyTiles (s : State) : Nat := 1024 - (s.units.ptiles.filter (fun (kp : Nat × PTile) => kp.2.fence.isSome)).length

/-- Healthy tiles that back no logical tile. -/
def State.spareTiles (s : State) : List Nat :=
  (List.range 1024).filter (fun pt => s.tileHealthy pt && (s.tileAt pt).isNone)

/-- Logical tiles of the grade that no physical tile backs. -/
def State.unbacked (s : State) : Nat := s.ident.ltiles - s.units.tileMap.length

/-- The seats that hold a module logical cluster. -/
def State.holders (s : State) (lc : Nat) : List (Nat × Seat) := s.seats.filter (fun (ks : Nat × Seat) => (ks.2.viewCluster lc).isSome)

/-- Every logical tile of the grade is backed by a healthy tile (R32). -/
def State.allBacked (s : State) : Bool :=
  (s.units.tileMap.filter (fun (lp : Nat × Nat) => s.tileHealthy lp.2)).length == s.ident.ltiles

/-- The module enters the degraded state when healthy tiles fall short of the grade, and leaves it when every logical tile
is backed again (R32). -/
def State.settleDegraded (s : State) : State :=
  if !s.mod.degraded && s.healthyTiles < s.ident.ltiles then
    ({ s with mod := { s.mod with degraded := true } }).logEvent 0x010B none 0x0C 0 0 (max s.unbacked (s.ident.ltiles - s.healthyTiles))
  else if s.mod.degraded && s.mod.mapBuilt && s.allBacked then { s with mod := { s.mod with degraded := false } }
  else s

/-! ### Fencing (R115, R151, R161, R197, R518, R565 to R567) -/

/-- The GMMs of a seat that wait for segments which contexts of a tile have stolen end with MEMBER_LOST; what that tile has sent
lands no more (R197). -/
def State.gmmLost (s : State) (lt : Nat) : State :=
  let s := s.tiles.foldl (fun (s : State) (kt : Nat × Tile) =>
    (List.range 8).foldl (fun s c =>
      match (s.ctx kt.1 c).cur with
      | none => s
      | some e =>
        match e.gmm with
        | none => s
        | some g =>
          if (s.ctx kt.1 c).state ≠ .faulted && g.runs.any (fun r => r.given.any (fun k => k.2 == lt)) then
            s.faultCtx kt.1 c .memberLost 0
          else s) s) s
  let lost := s.sync.slotWrites.filter (fun w => w.thief ≠ lt && w.owner == lt)
  let s := { s with sync := { s.sync with slotWrites := s.sync.slotWrites.filter (fun w => w.thief ≠ lt && w.owner ≠ lt) } }
  lost.foldl (fun s w => s.stolenLands w.thief w.thiefCtx) s

/-- The barrier generations that a fenced tile has arrived at, or is on its way to, end on every waiting context (R161). -/
def State.barriersLost (s : State) (seat view : Nat) : State :=
  let mine (a : Arrival) : Bool := a.seat == seat && a.tile == view
  let keys := (s.sync.arrivals.filter mine).map (fun a => barrierKey a.seat a.home a.bid)
  let s := { s with sync := { s.sync with arrivals := s.sync.arrivals.filter (fun a => !mine a) } }
  s.sync.barriers.foldl (fun (s : State) (kg : Nat × BarrierGen) =>
    if kg.1 / 8192 = seat && (keys.contains kg.1 || kg.2.arrived.any (fun a => a.tile == view)) then
      let s := { s with sync := { s.sync with barriers := FMap.erase s.sync.barriers kg.1 } }
      s.barrierFail seat (kg.1 / 64 % 128) (kg.1 % 64) (kg.2.arrived.filter (fun a => a.tile ≠ view)) .memberLost 0
    else s) s

/-- The tile of a saved image turns to poison of cause 0b01 (R518). -/
def SaveImage.poisonTile (m : SaveImage) (view : Nat) : SaveImage :=
  let lo := tileBase + view * tileSlot
  let out (a : Nat) : Bool := !(lo ≤ a && a < lo + tileBytes)
  { m with bytes := m.bytes.filter (fun ab => out ab.1)
           poison := m.poison.filter (fun ab => out ab.1 && ab.1 ≠ 2 ^ 48 + view) ++ [(2 ^ 48 + view, 1)] }

/-- A fenced tile's logical tile stops for each seat that holds it: its REDUCEs and barriers end, and a seat that is being
saved or is PREEMPTED has its image poisoned and its turn failed (R151, R161, R197, R518). -/
def State.tileStops (s : State) (lt : Nat) : State :=
  let s := (List.range 8).foldl (fun s c => s.abortCtx lt c) s
  let s := s.gmmLost lt
  (s.holders (lt / 8)).foldl (fun (s : State) (ks : Nat × Seat) =>
    match ks.2.viewTile lt with
    | none => s
    | some view =>
      let s := (s.reduceFenced ks.1 view).barriersLost ks.1 view
      if ks.2.preempt.phase = .saving || ks.2.preempt.phase = .saved then
        let s := s.onSeat ks.1 (fun x => { x with preempt := { x.preempt with image := x.preempt.image.map (fun m => m.poisonTile view) } })
        (s.failTurn ks.1 .contextAborted).discardTurn ks.1
      else s) s

/-- The seat that a record of a module logical tile names: the first that holds it. -/
def State.holderOf (s : State) (lt : Option Nat) : Option Nat :=
  lt.bind (fun l => (s.holders (l / 8)).head?.map (·.1))

/-- A physical tile is fenced at once, is counted, and is retired at its third fence; one already fenced stays as it is
(R565, R567, R570). -/
def State.fenceTile (s : State) (pt : Nat) (cause : FenceCause) : State :=
  let x := s.ptile pt
  if 1024 ≤ pt || x.fence.isSome then s
  else
    let lt := s.tileAt pt
    let n := x.fences + 1
    let s := s.setPtile pt { x with fence := some cause, fenceTime := s.time, fences := n, retired := 3 ≤ n, testing := false,
                                    passed := false }
    let seat := s.holderOf lt
    let s := match lt with | some l => s.tileStops l | none => s
    let s := s.logEvent 0x0103 seat 0x01 pt 0 (fenceCode cause + lt.getD 0xFFFF * 2 ^ 16)
    let s := if 3 ≤ n then s.logEvent 0x0107 none 0x01 pt 0 n else s
    s.settleDegraded
where
  fenceCode : FenceCause → Nat
    | .uncorrectable => 1 | .threshold => 2 | .crossing => 3 | .process => 4 | .command => 5 | .selfTest => 6 | .cluster => 7

def execTileFenced (ptile : Nat) (cause : FenceCause) (s : State) : Out :=
  .next (if s.mod.mapBuilt then s.fenceTile ptile cause else s)

/-- A physical cluster is fenced with its tiles; the logical cluster that it backs is displaced, and its tiles stop
wherever they sit (R566). A tile that had passed a self-test before must pass another (R570, log 41). -/
def State.fenceCluster (s : State) (pc : Nat) (cause : FenceCause) : State :=
  if 128 ≤ pc || (s.pcluster pc).fence.isSome then s
  else
    let lc := s.clusterAt pc
    let seat := s.holderOf (lc.map (8 * ·))
    let s := s.setPcluster pc { fence := some cause, fenceTime := s.time }
    let s := s.logEvent 0x0108 seat 0x02 pc 0 (State.fenceTile.fenceCode cause + lc.getD 0xFFFF * 2 ^ 8)
    let s := match lc with
      | none => s
      | some l =>
        let s := { s with units := { s.units with displaced := FMap.insert s.units.displaced l pc,
                                                  clusterMap := FMap.erase s.units.clusterMap l } }
        let s := (s.holders l).foldl (fun (s : State) (ks : Nat × Seat) => if ks.2.turnBegun then s.failTurn ks.1 .contextAborted else s) s
        (List.range 8).foldl (fun s p =>
          match FMap.find? s.units.tileMap (8 * l + p) with
          | some pt => if pt / 8 = pc then s else s.tileStops (8 * l + p)
          | none => s) s
    (List.range 8).foldl (fun s p =>
      let s := s.fenceTile (8 * pc + p) .cluster
      s.setPtile (8 * pc + p) { s.ptile (8 * pc + p) with passed := false }) s

def execClusterFenced (pcluster : Nat) (cause : FenceCause) (s : State) : Out :=
  .next (if s.mod.mapBuilt then s.fenceCluster pcluster cause else s)

/-! ### Remap and return, places 1 and 2 of R33 (R27, R28, R566, R570) -/

/-- The nearest of ascending candidates: in the same region, on the same die, any (R27). -/
def pickNear (perRegion origin : Nat) (cs : List Nat) : Option Nat :=
  ((cs.find? (fun c => c / perRegion == origin / perRegion)).orElse
    (fun _ => cs.find? (fun c => c / (4 * perRegion) == origin / (4 * perRegion)))).orElse (fun _ => cs.head?)

/-- A logical tile may move at a boundary of a seat: no other seat that holds it has a turn in progress on it; one that is
PREEMPTED has its image restored to wherever the tile is by then (R27, R518). -/
def State.mayMove (s : State) (owner lc : Nat) : Bool :=
  (s.holders lc).all (fun ks => ks.1 == owner || !ks.2.turnBegun || decide (ks.2.preempt.phase = .saved))

/-- A logical tile moves to a physical tile: recorded, logged, and noted in the manifests of the seats that hold it. -/
def State.mapTile (s : State) (owner lt old pt : Nat) : State :=
  let holders := s.holders (lt / 8)
  let seat := match holders with | ks :: _ => ks.1 | [] => owner
  let turn := match s.seat? seat with | some x => x.turn.toNat | none => 0
  let s := { s with units := { s.units with tileMap := FMap.insert s.units.tileMap lt pt,
                                            lastTile := FMap.erase s.units.lastTile lt,
                                            remaps := s.units.remaps ++ [{ turn := turn, ltile := lt, old := old, new := pt }] } }
  let s := holders.foldl (fun (s : State) (ks : Nat × Seat) => s.onSeat ks.1 (fun x => { x with facts := { x.facts with remap := true } })) s
  s.logEvent 0x0104 (holders.head?.map (·.1)) 0x01 pt 0 (lt + old * 2 ^ 16)

/-- A logical tile is unbacked; where it last was is kept (R32). -/
def State.unmapTile (s : State) (lt : Nat) : State :=
  match FMap.find? s.units.tileMap lt with
  | none => s
  | some pt => { s with units := { s.units with tileMap := FMap.erase s.units.tileMap lt, lastTile := FMap.insert s.units.lastTile lt pt } }

/-- The physical tile that backs a logical tile, or last did. -/
def State.lastPlace (s : State) (lt : Nat) : Nat :=
  (FMap.find? s.units.tileMap lt).getD (FMap.get (8 * (lt / 8) + lt % 8) s.units.lastTile lt)

/-- A free spare cluster: one of R25, or one that a fence has displaced and that has returned (R570), which backs no logical
cluster, is not fenced, and has its tiles healthy and backing none (R566). -/
def State.freeCluster (s : State) (pc : Nat) : Bool :=
  (s.clusterAt pc).isNone && (s.pcluster pc).fence.isNone && !s.units.withdrawnRegions.contains (pc / 8)
    && (List.range 8).all (fun p => s.tileHealthy (8 * pc + p) && (s.tileAt (8 * pc + p)).isNone)

/-- A displaced logical cluster moves whole to the nearest free spare cluster, or is unbacked; its counters restart at 0
(R566). -/
def State.moveCluster (s : State) (owner lc old : Nat) : State :=
  let pc := pickNear 8 old ((List.range 128).filter s.freeCluster)
  let olds := (List.range 8).map (fun p => s.lastPlace (8 * lc + p))
  let s := (List.range 8).foldl (fun s p => s.unmapTile (8 * lc + p)) s
  match pc with
  | none => s
  | some pc =>
    let s := ((List.range 8).zip olds).foldl (fun s po => s.mapTile owner (8 * lc + po.1) po.2 (8 * pc + po.1)) s
    let s := { s with units := { s.units with clusterMap := FMap.insert s.units.clusterMap lc pc,
                                              displaced := FMap.erase s.units.displaced lc } }
    (s.holders lc).foldl (fun (s : State) (ks : Nat × Seat) =>
      match ks.2.viewCluster lc with
      | none => s
      | some c =>
        let lo := cluCtrKey ks.1 c 0
        { s with sync := { s.sync with cluCtr := s.sync.cluCtr.filter (fun kv => !(lo ≤ kv.1 && kv.1 < lo + 256)) } }) s

/-- Of the given logical tiles, those that are fenced or unbacked and may move go to the nearest spare, in ascending order (R27,
R28). -/
def State.remapTiles (s : State) (owner : Nat) (lts : List Nat) : State :=
  let todo := lts.filter (fun lt =>
    (FMap.find? s.units.displaced (lt / 8)).isNone && s.mayMove owner (lt / 8) &&
      (match FMap.find? s.units.tileMap lt with | some pt => !s.tileHealthy pt | none => true))
  todo.foldl (fun s lt =>
    let old := s.lastPlace lt
    let s := s.unmapTile lt
    match pickNear 64 old s.spareTiles with
    | some pt => s.mapTile owner lt old pt
    | none => s) s

/-- Place 1 of R33 at a boundary of a seat: displaced clusters in ascending order, then fenced and unbacked tiles in
ascending order, each to its nearest spare (R27, R28, R566). -/
def State.remapUnits (s : State) (owner : Nat) : State :=
  let s := s.units.displaced.foldl (fun (s : State) (kd : Nat × Nat) =>
    let first := (List.range 8).any (fun p => (FMap.find? s.units.tileMap (8 * kd.1 + p)).isSome)
    let ok := if first then (s.holders kd.1).all (fun ks => ks.1 == owner) else s.mayMove owner kd.1
    if ok then s.moveCluster owner kd.1 kd.2 else s) s
  s.remapTiles owner (List.range s.ident.ltiles)

/-- A tile that has passed its self-test may return: one that backs no logical tile any more (R27), one of a fenced cluster only
with the whole cluster, none of a withdrawn region (R570). -/
def State.mayReturn (s : State) (pt : Nat) : Bool :=
  let pc := pt / 8
  let ready (pt : Nat) : Bool := (s.ptile pt).passed && !(s.ptile pt).retired && (s.tileAt pt).isNone
  ready pt && !s.units.withdrawnRegions.contains (pc / 8) &&
    ((s.pcluster pc).fence.isNone || (List.range 8).all (fun p => ready (8 * pc + p)))

/-- Place 2 of R33: tested tiles become spares, a fenced cluster with the last of its tiles (R570). -/
def State.returnTiles (s : State) : State :=
  let back := (List.range 1024).filter s.mayReturn
  let s := back.foldl (fun s pt =>
    let s := s.setPtile pt { s.ptile pt with fence := none, passed := false, testing := false }
    let s := s.setPcluster (pt / 8) {}
    s.logEvent 0x0106 none 0x01 pt 0 0) s
  s.settleDegraded

/-! ### Self-tests (R569, R570) -/

/-- SELFTEST_START: 10 minutes after a fence for a threshold, a crossing or a process reading, of the tile itself or of its
cluster, the Referee starts the tile's self-test. -/
def execSelftestStart (ptile : Nat) (s : State) : Out :=
  let x := s.ptile ptile
  let auto (c : Option FenceCause) : Bool := c == some .threshold || c == some .crossing || c == some .process
  .next (if x.fence.isSome && !x.testing && !x.passed && !x.retired
      && (auto x.fence || (x.fence == some .cluster && auto (s.pcluster (ptile / 8)).fence)) then
    s.setPtile ptile { x with testing := true }
  else s)

/-- The code of a failed part (R561). -/
def partCode : TestPart → Nat
  | .array => 1 | .vector => 2 | .store => 3 | .copy => 4 | .contexts => 5

/-- SELFTEST_END: a tile that fails is logged and stays fenced; one that passes returns at the next boundary, or at once
when no seat is RUNNING. -/
def State.selftestEnd (s : State) (pt : Nat) (failed : Option TestPart) : State :=
  let x := s.ptile pt
  if !x.testing then s
  else
    match failed with
    | some p => (s.setPtile pt { x with testing := false }).logEvent 0x0105 none 0x01 pt 0 (partCode p)
    | none =>
      let s := s.setPtile pt { x with testing := false, passed := true }
      if s.seats.any (fun ks => ks.2.state == .running) then s else s.returnTiles

def execSelftestEnd (ptile : Nat) (failed : Option TestPart) (s : State) : Out := .next (s.selftestEnd ptile failed)

/-! ### Larger units (R20, R568) -/

/-- A stack is withdrawn: its reads are poison, its writes are discarded, and it serves until no reset (R568). -/
def State.withdrawStack (s : State) (st : Nat) : State :=
  let x := s.stack st
  if 32 ≤ st || x.withdrawn then s
  else (s.setStack st { x with withdrawn := true }).logEvent 0x010A none 0x04 st 0 0

def execStackWithdrawn (stack : Nat) (s : State) : Out := .next (s.withdrawStack stack)

/-- A region is withdrawn with its clusters, its Druind and its two stacks (R20, R568). -/
def State.withdrawRegion (s : State) (r : Nat) : State :=
  if 16 ≤ r || s.units.withdrawnRegions.contains r then s
  else
    let s := { s with units := { s.units with withdrawnRegions := s.units.withdrawnRegions ++ [r] } }
    let s := s.logEvent 0x0109 none 0x03 r 0 0
    let s := (List.range 8).foldl (fun s c => s.fenceCluster (8 * r + c) .cluster) s
    let s := s.druindLost r
    (s.withdrawStack (2 * r)).withdrawStack (2 * r + 1)

def execRegionWithdrawn (region : Nat) (s : State) : Out := .next (s.withdrawRegion region)

end Sys2Proof.Machine
end

