-- ==== Sys2Proof/Machine/Seats.lean ====
section
/-!
DEFINITION. Kernels, turns and seats in time: binding and completion of kernels (R509 to R512, R547), the turn boundary and
what takes effect there (R33, R202, R211, R489, R491), time-sharing and pre-emption (R513 to R519), loss of lockstep (R485,
R488), and the drain of a seat (R613 to R615).
-/

namespace Sys2Proof.Machine

/-! ### Lockstep (R484, R485, R488) -/

/-- Every stack on which a seat holds quota is in scheduled mode (R484). -/
def State.scheduled (s : State) (x : Seat) : Bool :=
  recQsize x.record = 0 || (regionsOf x.record).all (fun r => !(s.stack (2 * r)).demand && !(s.stack (2 * r + 1)).demand)

/-- A loss of lockstep touches a seat: its beat number is kept, its turn in progress is no lockstep turn, its event is
raised (R488, R540). -/
def State.lockstepLost (s : State) (n : Nat) : State :=
  let beat := BitVec.ofNat 64 s.beat
  (s.onSeat n (fun x => { x with lossBeat := beat, turnLockstep := x.turnLockstep && !x.turnBegun })).event n evtLockstepLost

/-- Lockstep ends for the whole package (R485); one that has ended already is not lost again. -/
def State.loseLockstep (s : State) : State :=
  if !s.clk.lockstep then s
  else
    let s := { s with clk := { s.clk with lockstep := false, lossTime := s.time } }
    let s := s.logEvent 0x0301 none 0x0C 0 0 s.beat
    s.seats.foldl (fun (s : State) (ks : Nat × Seat) => s.lockstepLost ks.1) s

/-- A stack has been switched to demand mode: lockstep ends for the seats with quota on it, which is logged, and their
kernels lose their exact time (R258, R260, R485, R488). -/
def State.stackDemand (s : State) (st : Nat) : State :=
  match s.stackUsers st with
  | [] => s
  | users =>
    users.foldl (fun (s : State) (ks : Nat × Seat) => s.lockstepLost ks.1)
      ((s.logEvent 0x0301 none 0x0C 0 0 s.beat).stackInexact st)

/-- The clocks of the package are at their nominal frequencies (R486). -/
def State.nominal (s : State) : Bool := !s.clk.holdover && !s.clk.tcHalf && !s.clk.ncHalf && s.pins.refclkOk

/-- A realignment is due: a crossing asks for it, or lockstep has been lost and clocks have been nominal for 10 ms since
(R486). -/
def State.realignDue (s : State) : Bool :=
  s.clk.realignWanted || (s.mod.dawnDone && !s.clk.lockstep && s.nominal
    && max (max s.clk.lossTime s.clk.nominalSince) s.pins.refclkGoodSince + 10 * 1000 * usUnits ≤ s.time)

/-! ### The dispatcher (R513 to R515) -/

/-- A SHARED seat wants its clusters: a launch is queued, or a teardown waits for its restore (R514, R613). -/
def State.wants (s : State) (n : Nat) (x : Seat) : Bool :=
  (x.state != .halted && !x.launches.isEmpty) ||
    s.host.cmds.any (fun c => !c.begun && chOpcode c.packet == 0x0209 && chSeat c.packet == n)

/-- Two SHARED seats hold a cluster in common. -/
def conflict (x y : Seat) : Bool :=
  recShared x.record && recShared y.record && (clustersOf x.record).any (fun c => (clustersOf y.record).contains c)

/-- The seat is at a pre-emption point (R513). -/
def State.atPoint (s : State) (n : Nat) (x : Seat) : Bool :=
  x.running.isNone && x.preempt.point
    && !(s.druind.runs.any (fun (kr : Nat × RouteRun) => kr.2.seat == n && kr.2.status.isNone))
    && !(s.druind.asks.any (fun a => (s.ctx a.tile a.ctx).seat == n))
    && !(s.ni.actions.any (fun (ka : Nat × Action) => ka.2.seat == n && 0x20 ≤ ka.2.trig.action))
    && !(s.sync.reduces.any (fun r => r.seat == n))
    && !(s.ni.groups.any (fun (kg : Nat × Group) => kg.2.seat == n && (kg.2.call.isSome || !kg.2.waiting.isEmpty)))

def State.onPreempt (s : State) (n : Nat) (f : Preempt → Preempt) : State := s.onSeat n (fun x => { x with preempt := f x.preempt })

/-- b is served before a: higher PRIORITY, then the longest waiting, then the lower seat number (R514). -/
def servedBefore (b a : Nat × Seat) : Bool :=
  let p (x : Nat × Seat) : Nat := recPriority x.2.record
  let w (x : Nat × Seat) : Nat := x.2.preempt.waitingSince.getD 0
  p a < p b || (p a == p b && (w b < w a || (w b == w a && b.1 < a.1)))

/-- The dispatcher looks at a seat that waits: a seat on its clusters that is idle, marked, of lower PRIORITY, or of the same
PRIORITY and on them for its QUANTUM, is saved at its pre-emption point; when every other seat is off its clusters, its restore begins (R514, R515). -/
def State.serve (s : State) (n : Nat) : State :=
  match s.seat? n with
  | none => s
  | some b =>
    let s := s.seats.foldl (fun (s : State) (ka : Nat × Seat) =>
      let a := ka.2
      if ka.1 = n || !conflict a b || !(decide (a.preempt.phase = .none)) then s
      else
        let idle := a.running.isNone && (a.launches.isEmpty || a.state == .halted)
        let ran : Bool := recPriority a.record == recPriority b.record
          && a.preempt.beganAt + recQuantum a.record * 100 * usUnits ≤ s.time
        let marked := idle || a.preempt.marked || recPriority a.record < recPriority b.record || ran
        if !marked then s
        else if s.atPoint ka.1 a then s.onPreempt ka.1 (fun p => { p with marked := true, phase := .saving, phaseAt := s.time })
        else s.onPreempt ka.1 (fun p => { p with marked := true })) s
    let busy := s.seats.any (fun (ka : Nat × Seat) => ka.1 != n && conflict ka.2 b && !(decide (ka.2.preempt.phase = .saved)))
    if busy then s else s.onPreempt n (fun p => { p with phase := .restoring })

/-- The dispatcher: the seats that are off their clusters and want them, in order. -/
def State.dispatch (s : State) : State :=
  let s := s.seats.foldl (fun (s : State) (ks : Nat × Seat) =>
    if decide (ks.2.preempt.phase = .saved) && s.wants ks.1 ks.2 && ks.2.preempt.waitingSince.isNone then
      s.onPreempt ks.1 (fun p => { p with waitingSince := some s.time })
    else s) s
  let waiting := s.seats.filter (fun (ks : Nat × Seat) => decide (ks.2.preempt.phase = .saved) && s.wants ks.1 ks.2)
  (sortBy servedBefore waiting).foldl (fun s ks => s.serve ks.1) s

/-- QUANTUM_EXPIRY: a seat has run for its QUANTUM while one of equal PRIORITY waits for its clusters: it is marked
(R514). -/
def execQuantumExpiry (seat : Nat) (s : State) : Out :=
  .next (match s.seat? seat with
    | none => s
    | some a =>
      if decide (a.preempt.phase = .none) && s.seats.any (fun (kb : Nat × Seat) => kb.1 != seat && conflict a kb.2
          && recPriority kb.2.record == recPriority a.record && decide (kb.2.preempt.phase = .saved) && s.wants kb.1 kb.2) then
        (s.onPreempt seat (fun p => { p with marked := true })).dispatch
      else s)

/-- The tiles of a seat, by module logical number. -/
def Seat.tiles (x : Seat) : List Nat := (clustersOf x.record).flatMap (fun lc => (List.range 8).map (fun p => 8 * lc + p))

/-! ### Save and restore (R515, R516, R518) -/

/-- Bytes of a seat's image: 20 MiB a cluster (R504). -/
def imageBytes (x : Seat) : Nat := 20 * 1048576 * (clustersOf x.record).length

/-- The seat-view stores of a seat with their physical places: view offset, physical base, size; none where unbacked. -/
def State.stores (s : State) (x : Seat) : List (Nat × Option Nat × Nat) :=
  (List.range (clustersOf x.record).length).map (fun c => (clusterBase + c * clusterBytes, (x.cluster? c).bind s.clusterPhys, clusterBytes))
    ++ (List.range x.ltiles).map (fun t => (tileBase + t * tileSlot, (x.tile? t).bind s.tilePhys, tileBytes))

/-- The image of a seat's stores, counters' arbiters and issue stages; a fenced tile's store is poison of cause 0b01. -/
def State.saveImage (s : State) (x : Seat) : SaveImage :=
  let cut {α : Type} (m : FMap α) : FMap α := (s.stores x).flatMap (fun st => match st.2.1 with
    | some b => (m.filter (fun ab => b ≤ ab.1 && ab.1 < b + st.2.2)).map (fun ab => (st.1 + (ab.1 - b), ab.2))
    | none => [])
  let fenced := (List.range x.ltiles).filter (fun t => match (x.tile? t).bind (fun lt => FMap.find? s.units.tileMap lt) with
    | some pt => !s.tileHealthy pt
    | none => true)
  let m : SaveImage :=
    { bytes := cut s.mem
      poison := cut s.poison
      lastCtx := (List.range x.ltiles).map (fun t => (t, (s.tile ((x.tile? t).getD 1024)).last))
      bankPtr := (List.range x.ltiles).map (fun t => let q := s.tile ((x.tile? t).getD 1024); (t, q.bankPtr * 16 + q.queuePtr))
        ++ (List.range (clustersOf x.record).length).map (fun c =>
          let q : Cluster := FMap.get {} s.clusters ((x.cluster? c).getD 128); (2 ^ 20 + c, q.bankPtr * 16 + q.routerPtr)) }
  fenced.foldl (fun m t => m.poisonTile t) m

/-- SAVE_COMPLETE: a seat's save completes: it is PREEMPTED, and the waiting seat's restore begins (R515). -/
def State.saveDone (s : State) (n : Nat) : State :=
  match s.seat? n with
  | none => s
  | some x =>
    if !(decide (x.preempt.phase = .saving)) then s
    else
      let p := { x.preempt with phase := .saved, marked := false, waitingSince := none, image := some (s.saveImage x) }
      let s := s.setSeat n { x with preempt := p, state := if x.state = .halted then .halted else .preempted }
      let s := (s.charge n acctPreemptBytes (imageBytes x)).charge n acctHbmWr (imageBytes x)
      ((if x.state = .halted then s else s.seatChanged n)).dispatch

def execSaveComplete (seat : Nat) (s : State) : Out := .next (s.saveDone seat)

/-- An image goes back to the stores of the same logical tiles and clusters, wherever they are now. -/
def State.putImage (s : State) (x : Seat) (m : SaveImage) : State :=
  let s := (s.stores x).foldl (fun (s : State) st => match st.2.1 with
    | none => s
    | some b =>
      let s := s.zero b st.2.2
      let inside (a : Nat) : Bool := st.1 ≤ a && a < st.1 + st.2.2
      let s := { s with
        mem := (m.bytes.filter (fun ab => inside ab.1)).foldl (fun q ab => FMap.put 0 q (b + (ab.1 - st.1)) ab.2) s.mem
        poison := (m.poison.filter (fun ab => inside ab.1)).foldl (fun q ab => FMap.insert q (b + (ab.1 - st.1)) ab.2) s.poison }
      if tileBase ≤ st.1 && (FMap.find? m.poison (2 ^ 48 + (st.1 - tileBase) / tileSlot)).isSome then s.poisonRange b tileBytes 1 else s) s
  let s := m.lastCtx.foldl (fun (s : State) tl => match x.tile? tl.1 with
    | none => s
    | some t =>
      let q := FMap.get 0 m.bankPtr tl.1
      s.setTile t { s.tile t with last := tl.2, lastTc := none, bankPtr := q / 16, queuePtr := q % 16, wants := [] }) s
  (List.range (clustersOf x.record).length).foldl (fun (s : State) c => match x.cluster? c with
    | none => s
    | some lc =>
      let q := FMap.get 0 m.bankPtr (2 ^ 20 + c)
      { s with clusters := FMap.put {} s.clusters lc { bankPtr := q / 16, routerPtr := q % 16 } }) s

/-- RESTORE_COMPLETE: a seat's restore completes: its stores are back, on spares where its tiles were fenced meanwhile, what was
held takes effect in order, and it runs (R515, R516, R518, R519, R524). -/
def State.restoreDone (s : State) (n : Nat) : State :=
  match s.seat? n with
  | none => s
  | some x =>
    if !(decide (x.preempt.phase = .restoring)) then s
    else
      let s := s.remapTiles n x.tiles
      let empty : SaveImage := { bytes := [], poison := [], lastCtx := (List.range x.ltiles).map (fun t => (t, 7)), bankPtr := [] }
      let s := s.putImage x (x.preempt.image.getD empty)
      let x : Seat := (s.seat? n).getD x
      let p : Preempt := { beganAt := s.time }
      let held := x.heldSignals
      let st : SeatState := if x.state = .halted then .halted else if x.launches.isEmpty then .idle else .running
      let s := s.setSeat n { x with preempt := p, heldSignals := [], state := st }
      let s := held.foldl (fun s g => s.applySignal g) s
      let s := if x.preempt.image.isSome then
          ((s.charge n acctPreemptBytes (imageBytes x)).charge n acctHbmRd (imageBytes x)).charge n acctPreemptTime
            ((s.time - x.preempt.phaseAt) / usUnits)
        else s
      if x.state = .preempted then s.seatChanged n else s

def execRestoreComplete (seat : Nat) (s : State) : Out := .next (s.restoreDone seat)

/-! ### The turn manifest (R491) -/

/-- Foreign slots on the stacks of a seat's quota (R258, R491). -/
def State.foreignSlots (s : State) (x : Seat) : Nat :=
  if recQsize x.record = 0 then 0
  else ((regionsOf x.record).flatMap (fun r => [2 * r, 2 * r + 1])).foldl (fun a st => a + (s.counter 0x4006 none st).toNat) 0

/-- The LOCKSTEP flag of the turn that ends (R484). -/
def State.lockstepTurn (s : State) (x : Seat) : Bool := x.turnBegun && x.turnLockstep && s.clk.lockstep && s.scheduled x

def State.manifestBytes (s : State) (x : Seat) : Bytes :=
  let f := x.facts
  let b (c : Bool) (i : Nat) : Nat := if c then 2 ^ i else 0
  let start := f.start.getD s.time
  natLe 8 x.turn.toNat ++ natLe 8 x.seedTurn.toNat ++ natLe 2 x.level ++ natLe 2 x.ltiles ++
  [BitVec.ofNat 8 (b (s.lockstepTurn x) 0 + b f.short 1 + b f.failed 2 + b f.fpAtomic 3 + b f.steal 4 + b f.remap 5
    + b (recCs1400 x.record) 6 + b f.replay 7)] ++ List.replicate 3 (0 : Byte) ++
  natLe 2 (match f.firstStatus with | some st => statusCode st | none => 0) ++ List.replicate 2 (0 : Byte) ++ natLe 4 f.holdFrames ++
  natLe 8 ((s.time - start) / tcUnits) ++ natLe 8 ((start - s.clk.dawnTime) / beatUnits) ++ natLe 4 f.shortCalls ++
  natLe 4 (s.foreignSlots x - f.foreignBase) ++ List.replicate 8 (0 : Byte) ++
  padTo 32 (match x.program with | some p => p.hash | none => []) ++ List.replicate 32 (0 : Byte)

/-- The manifest of the turn that ends goes to its slot of the manifest area, where one is named. -/
def State.writeManifest (s : State) (n : Nat) (x : Seat) : State :=
  if x.areas.manifest = 0 || x.areas.n = 0 then s
  else
    match s.quotaAddr x (x.areas.manifest + x.turn.toNat % x.areas.n * 128) 128 with
    | none => s
    | some a => s.seatStore n a (s.manifestBytes x)

/-! ### What takes effect at a boundary -/

/-- A named fault area or event queue starts with PRODUCED 0 (R167, R305). -/
def State.areaStart (s : State) (n : Nat) (x : Seat) (old new : Nat) : State :=
  if new = 0 || new = old then s
  else match s.quotaAddr x new 64 with
    | some a => s.seatStore n a (natLe 4 0)
    | none => s

/-- Areas that SEAT_AREAS names come into force (R550, R505); naming an area again sets its PRODUCED to 0 again. -/
def State.areasInForce (s : State) (n : Nat) (x : Seat) (a : Areas) : State :=
  let s := s.setSeat n { x with hcRecords := if a.fault = 0 then x.hcRecords else (0, [])
                                areas := { fault := if a.fault = 0 then x.areas.fault else a.fault
                                           event := if a.event = 0 then x.areas.event else a.event
                                           manifest := if a.manifest = 0 then x.areas.manifest else a.manifest
                                           n := if a.manifest = 0 then x.areas.n else a.n }
                                nextAreas := none }
  (s.areaStart n x 0 a.fault).areaStart n x 0 a.event

/-- Settings that wait for a turn boundary come into force (R505). -/
def State.settingsInForce (s : State) (n : Nat) : State :=
  let s := s.onSeat n (fun x => { x with record := x.nextRecord.getD x.record, nextRecord := none })
  match s.seat? n with
  | none => s
  | some x => match x.nextAreas with
    | some a => s.areasInForce n x a
    | none => s

/-- The pending bank of a space, as it stands in the seat's quota. -/
def State.pendingBank (s : State) (x : Seat) (r : SpaceRec) : Option Bytes :=
  let a := if r.bankB then spBankA r.record else spBankB r.record
  let n := 8 * spE r.record
  (s.quotaAddr x a n).map (fun p => s.bytes p n)

/-- Every bank that a swap names is valid and has the named digest (R210, R211). -/
def State.swapValid (s : State) (x : Seat) (w : Swap) : Bool :=
  w.spaces.all (fun sd => match FMap.find? x.spaces sd.1 with
    | none => false
    | some r => match s.pendingBank x r with
      | none => false
      | some b => bankOk x s.fab.node b (spE r.record) && placementDigest b == sd.2)

/-- A swap takes effect as one group, or is rejected (R211). DESIGN CHOICE (log 28): a swap that names one space twice
exchanges its banks twice; the spec does not say what it does. -/
def State.swapNow (s : State) (n : Nat) (w : Swap) : State :=
  match s.seat? n with
  | none => s
  | some x =>
    if s.swapValid x w then
      let spaces := w.spaces.foldl (fun m sd => FMap.upd m sd.1 (fun (r : SpaceRec) => { r with bankB := !r.bankB })) x.spaces
      (s.setSeat n { x with spaces := spaces }).complete w.cmd .success [] []
    else s.complete w.cmd .swapRejected [] []

/-- Place 4 of R33: the swaps that name the seat's turn. -/
def State.swapsDue (s : State) (n : Nat) : State :=
  match s.seat? n with
  | none => s
  | some x =>
    let due := x.swaps.filter (fun w => w.turn ≤ x.turn.toNat)
    let s := s.setSeat n { x with swaps := x.swaps.filter (fun w => x.turn.toNat < w.turn) }
    due.foldl (fun s w => s.swapNow n w) s

/-- A seat enters HALTED with a cause (R506, R661), its halt latch cleared and set again while HALT_N is asserted (R635);
by HALT_N, an unbacked tile or a withdrawn stack it is a change that is not by its own command (R540). One that HALT_N halts
while it is asserted runs on when it is released (R635). -/
def State.haltSeat (s : State) (n cause : Nat) : State :=
  let s := s.onSeat n (fun x => { x with state := .halted, haltCause := cause, haltLatch := !s.pins.haltN
                                         haltHeld := decide (cause = 1) && !s.pins.haltN
                                         haltAsked := false })
  if cause = 2 then s else s.seatChanged n

/-- A held logical tile is unbacked (R32). -/
def State.holdsUnbacked (s : State) (x : Seat) : Bool :=
  (List.range x.ltiles).any (fun t => match x.tile? t with | some lt => (s.tilePhys lt).isNone | none => true)

/-- The seat has quota in the region of a withdrawn stack (R568). -/
def State.onWithdrawn (s : State) (x : Seat) : Bool :=
  recQsize x.record != 0 && (regionsOf x.record).any (fun r => (s.stack (2 * r)).withdrawn || (s.stack (2 * r + 1)).withdrawn)

/-- The cause that halts a seat at place 3 of R33, if any: a withdrawn stack, then an unbacked logical tile (R32, R568). -/
def State.unitHalt (s : State) (x : Seat) : Nat :=
  if x.drain.isSome then 0 else if s.onWithdrawn x then 4 else if s.holdsUnbacked x then 3 else 0

/-- The cause that halts a seat at place 5 of R33, if any: the halt command, then HALT_N. -/
def Seat.askedHalt (x : Seat) : Nat :=
  if x.drain.isSome || x.state = .halted then 0 else if x.haltAsked then 2 else if x.haltLatch then 1 else 0

/-- Place 3 of R33: the seat halts; for an unbacked logical tile the launches that are queued complete with TILES_UNAVAILABLE
(R32, log 67). -/
def State.haltUnits (s : State) (n : Nat) : State :=
  match s.seat? n with
  | none => s
  | some x =>
    match s.unitHalt x with
    | 0 => s
    | 3 =>
      let s := s.setSeat n { x with launches := [] }
      (x.launches.foldl (fun s l => s.complete l.cmd .tilesUnavailable (launchResult x.turn.toNat 0 false) []) s).haltSeat n 3
    | c => s.haltSeat n c

/-- Place 5 of R33: the seat halts where the command or HALT_N asks for it. -/
def State.haltAskedFor (s : State) (n : Nat) : State :=
  match s.seat? n with
  | none => s
  | some x => if x.askedHalt = 0 then s else s.haltSeat n x.askedHalt

/-- Frames that the next turn is held: ⌈ρ × F⌉, at most 65,535 (R489). -/
def State.holdFrames (s : State) (x : Seat) : Nat :=
  let f := match x.facts.start with | some t => ceilDiv (s.time - t) frameUnits | none => 0
  min 65535 (ceilDiv (max s.pwr.rho s.pwr.rhoFloor * f) 256)

/-- FAULTED contexts return to FREE and the arbiters start anew (R106, R512). -/
def State.freshTiles (s : State) (n : Nat) (x : Seat) : State :=
  let s := x.tiles.foldl (fun (s : State) t =>
    let q := s.tile t
    s.setTile t { q with ctxs := q.ctxs.map (fun c => if c.seat = n && c.state = .faulted then {} else c), last := 7, lastTc := none,
                         bankPtr := 0, queuePtr := 0, wants := [] }) s
  let s := { s with sync := { s.sync with slotWrites := s.sync.slotWrites.filter (fun w => !x.tiles.contains w.owner),
                                          reduces := s.sync.reduces.filter (fun r => r.seat ≠ n) } }
  (clustersOf x.record).foldl (fun s lc => { s with clusters := FMap.erase s.clusters lc }) s

/-- What a turn leaves that later turns must not meet: early grant messages, and exchange state older than the turn that
ended. -/
def State.forgetTurn (s : State) (n turn : Nat) : State :=
  let mine (g : Nat) : Bool := match FMap.find? s.ni.groups g with | some q => q.seat == n | none => true
  let early := s.druind.early.filter (fun e => !(mine e.group && (turn + 2 ^ 32 - fld e.bytes 4 4) % 2 ^ 32 < 2 ^ 31))
  { s with
    druind := { s.druind with early := early }
    ni := { s.ni with permDone := s.ni.permDone.filter (fun d => d.seat ≠ n || turn ≤ d.turn)
                      allParts := s.ni.allParts.filter (fun d => d.seat ≠ n || turn ≤ d.turn)
                      standIns := s.ni.standIns.filter (fun d => d.seat ≠ n || turn ≤ d.turn) } }

/-- A ROUTE of the seat is in progress: the boundary waits (R202). -/
def State.routing (s : State) (n : Nat) : Bool :=
  s.druind.runs.any (fun (kr : Nat × RouteRun) => kr.2.seat == n && kr.2.status.isNone)
    || s.druind.asks.any (fun a => (s.ctx a.tile a.ctx).seat == n)

/-- The seat's turn boundary may pass (R202, R512). -/
def State.boundaryDue (s : State) (n : Nat) (x : Seat) : Bool :=
  x.turnEnded && x.running.isNone && decide (x.preempt.phase = .none) && !s.routing n

/-- The turn boundary of a seat: the manifest of the turn, the turn counter, and the changes of R33 in order. -/
def State.passBoundary (s : State) (n : Nat) (x : Seat) : State :=
  let held := s.holdFrames x
  let lock := s.lockstepTurn x
  let s := s.writeManifest n x
  let s := s.freshTiles n x
  let s := s.forgetTurn n x.turn.toNat
  let x : Seat := (s.seat? n).getD x
  let facts : TurnFacts := { holdFrames := held, foreignBase := s.foreignSlots x }
  let s := s.setSeat n { x with turn := x.turn + 1, turnBegun := false, turnAborted := false, turnEnded := false, lastLockstep := lock,
                                facts := facts, routed := [], exclusions := x.exclusions.filter (fun e => fld e 0 8 ≠ x.turn.toNat) }
  let s := if held = 0 then s else (s.count 0xB000 none 0 held).charge n acctHoldFrames held
  let s := (s.remapUnits n).returnTiles
  let s := (((s.settingsInForce n).haltUnits n).swapsDue n).haltAskedFor n
  (s.seatSettle n).dispatch

/-- TURN_BOUNDARY: the boundary passes when the turn has ended and every ROUTE of it has (R33, R202, R512). -/
def execTurnBoundary (seat : Nat) (s : State) : Out :=
  .next (match s.seat? seat with
    | none => s
    | some x => if s.boundaryDue seat x then s.passBoundary seat x else s)

/-! ### Kernels (R509 to R512, R547) -/

/-- Stream bindings of a kernel. -/
def Program.bindingsOf (p : Program) (k : Nat) : List Binding :=
  match p.kernels[k]? with
  | some (first, n) => (p.bindings.drop first).take n
  | none => []

/-- A stream is bound: its context is FETCHING; on a fenced or unbacked tile it ends at once (R115, R116, R117). DESIGN
CHOICE (log 46): a binding to a logical tile that the seat no longer holds, after a SEAT_CHANGE left it fewer than the loaded
program has, binds nothing; R3 speaks only of the time of loading. -/
def State.bindStream (s : State) (n : Nat) (x : Seat) (b : Binding) : State :=
  match x.tile? b.ltile with
  | none => s
  | some t =>
    let s := s.setCtx t b.ctx { state := .fetching, seat := n, inCluster := b.inCluster, next := b.offset }
    let good := match FMap.find? s.units.tileMap t with | some pt => s.tileHealthy pt | none => false
    if good then s else s.abortCtx t b.ctx

/-- KERNEL_BIND: the seat's next launch begins: its streams are bound, and the first kernel of a turn begins the turn with
the seed in force; a SHARED seat marked for pre-emption is saved instead, and one that is off its clusters waits (R71,
R255, R510, R511, R514). -/
def State.kernelBind (s : State) (n : Nat) : State :=
  match s.seat? n with
  | none => s
  | some x =>
    match x.launches, x.program with
    | l :: rest, some p =>
      if !(x.state == .running || x.state == .preempted) || x.running.isSome || x.turnEnded || x.drain.isSome then s
      else if !(decide (x.preempt.phase = .none)) then s.dispatch
      else if !x.turnBegun && s.realignDue then s
      else
        let s := if x.preempt.marked then s.dispatch else s
        let x : Seat := (s.seat? n).getD x
        if !(decide (x.preempt.phase = .none)) then s
        else
          let bs := p.bindingsOf l.kernel
          let first := !x.turnBegun
          let facts := if first then { x.facts with foreignBase := s.foreignSlots x,
                                                    replay := x.exclusions.any (fun e => fld e 0 8 == x.turn.toNat) } else x.facts
          let run : Running := { launch := l, bound := bs.map (fun b => (b.ltile, b.ctx)), first := none, status := none, exact := true }
          let x := { x with launches := rest, running := some run, turnBegun := true, facts := facts,
                            seedTurn := if first then x.seed else x.seedTurn,
                            turnLockstep := if first then s.clk.lockstep && s.scheduled x else x.turnLockstep,
                            preempt := { x.preempt with point := false } }
          bs.foldl (fun s b => s.bindStream n x b) (s.setSeat n x)
    | _, _ => s

def execKernelBind (seat : Nat) (s : State) : Out := .next (s.kernelBind seat)

/-- ELAPSED_TC of a kernel: from the issue of its first descriptor. -/
def State.elapsed (s : State) (r : Running) : Nat := match r.first with | some t => (s.time - t) / tcUnits | none => 0

/-- KERNEL_COMPLETE: every context that the kernel bound is FREE or FAULTED: its launch completes; after an error the later
launches of its turn are discarded; a TURN_END kernel ends its turn (R510, R512, R547). -/
def State.kernelComplete (s : State) (n : Nat) : State :=
  match s.seat? n with
  | none => s
  | some x =>
    match x.running with
    | none => s
    | some r =>
      let allOver := r.bound.all (fun b => match x.tile? b.1 with
        | some t => let c := s.ctx t b.2; c.seat != n || c.state == .free || c.state == .faulted
        | none => true)
      if !allOver then s
      else
        let exact := r.exact && s.lockstepTurn x
        let point := !recGrain x.record || r.launch.layerEnd
        let s := s.setSeat n { x with running := none, turnEnded := r.launch.turnEnd, preempt := { x.preempt with point := point } }
        let s := s.complete r.launch.cmd (r.status.getD .success) (launchResult x.turn.toNat (s.elapsed r) exact) []
        let s := if r.status.isSome then s.discardTurn n else s
        (s.seatSettle n).dispatch

def execKernelComplete (seat : Nat) (s : State) : Out := .next (s.kernelComplete seat)

/-- Every context of a seat stops and goes to FREE (R550, R613). -/
def State.stopContexts (s : State) (n : Nat) (x : Seat) : State :=
  let s := x.tiles.foldl (fun (s : State) t => (List.range 8).foldl (fun s c =>
    let q := s.ctx t c
    if q.seat = n && q.state ≠ .free then s.freeCtx t c else s) s) s
  { s with sync := { s.sync with reduces := s.sync.reduces.filter (fun r => r.seat ≠ n) }
           flash := { s.flash with asks := s.flash.asks.filter (fun a => (s.ctx a.1 a.2).state ≠ .free) } }

/-- KERNEL_ABORT's effect: contexts stop, the running kernel and the queued launches of its turn complete with
TURN_ABORTED, the turn is failed and ends at once (R512, R550). -/
def State.abortTurn (s : State) (n : Nat) : State :=
  match s.seat? n with
  | none => s
  | some x =>
    let inTurn := x.running.isSome || x.turnBegun || (!x.turnEnded && !x.launches.isEmpty)
    if !inTurn then s
    else
      let s := s.stopContexts n x
      let s := s.failTurn n .turnAborted
      let s := match x.running with
        | none => s
        | some r =>
          let s := s.onSeat n (fun y => { y with running := none, preempt := { y.preempt with point := true } })
          s.complete r.launch.cmd .turnAborted (launchResult x.turn.toNat (s.elapsed r) false) []
      let own := match x.running with | some r => r.launch.turnEnd | none => false
      let s := if x.turnEnded || own then s else s.dropLaunches n (openLaunches x.launches) .turnAborted
      let s := s.onSeat n (fun y => { y with turnEnded := true })
      s.seatSettle n

/-! ### Draining (R500, R545, R613 to R615) -/

/-- Armed trigger entries of a seat become FREE without firing (R613). -/
def State.disarm (s : State) (n : Nat) : State :=
  { s with ni := { s.ni with triggers := s.ni.triggers.filter (fun (kt : Nat × Trigger) => kt.1 / 4096 ≠ n || kt.2.running) } }

/-- The drain conditions of R614 hold. -/
def State.drained (s : State) (n : Nat) : Bool :=
  !s.routing n && !(s.ni.actions.any (fun (ka : Nat × Action) => ka.2.seat == n))
    && !(s.ni.requests.any (fun (kr : Nat × Request) => kr.2.seat == n))
    && !(s.ni.tx.any (fun (kt : Nat × TxStream) => kt.2.unacked.any (fun u => u.seat == n)))
    && !s.fillsOpen n

/-- The counters and barrier generations of a seat are 0 (R399, R615). -/
def State.clearCounters (s : State) (n : Nat) : State :=
  { s with
    sync := { s.sync with
      tileCtr := s.sync.tileCtr.filter (fun kv => kv.1 / 65536 ≠ n)
      cluCtr := s.sync.cluCtr.filter (fun kv => kv.1 / 32768 ≠ n)
      ctrTc := s.sync.ctrTc.filter (fun kv => !((kv.1 % 3 = 0 && kv.1 / 3 / 65536 = n) || (kv.1 % 3 = 1 && kv.1 / 3 / 32768 = n)
        || (kv.1 % 3 = 2 && kv.1 / 3 / 4096 = n)))
      barriers := s.sync.barriers.filter (fun kv => kv.1 / 8192 ≠ n)
      signals := s.sync.signals.filter (fun g => g.seat ≠ n)
      arrivals := s.sync.arrivals.filter (fun a => a.seat ≠ n)
      releases := s.sync.releases.filter (fun r => r.seat ≠ n)
      reduces := s.sync.reduces.filter (fun r => r.seat ≠ n) }
    ni := { s.ni with ctr := s.ni.ctr.filter (fun kv => kv.1 / 4096 ≠ n) } }

/-- Windows of a seat are invalid, its groups and exchange state are gone, its early messages with them (R615). -/
def State.clearFabric (s : State) (n : Nat) : State :=
  { s with ni := { s.ni with
      windows := s.ni.windows.map (fun (kw : Nat × Window) => if kw.2.seat = n then (kw.1, { kw.2 with v := false }) else kw)
      groups := s.ni.groups.filter (fun (kg : Nat × Group) => kg.2.seat ≠ n)
      permDone := s.ni.permDone.filter (fun d => d.seat ≠ n)
      allParts := s.ni.allParts.filter (fun d => d.seat ≠ n)
      standIns := s.ni.standIns.filter (fun d => d.seat ≠ n)
      triggers := s.ni.triggers.filter (fun (kt : Nat × Trigger) => kt.1 / 4096 ≠ n) } }

/-- The stores of a seat and its save units are zero (R615). -/
def State.clearStores (s : State) (x : Seat) : State :=
  let s := (s.stores x).foldl (fun (s : State) st => match st.2.1 with | some b => s.zero b st.2.2 | none => s) s
  let units := saveUnits x.record
  (regionsOf x.record).foldl (fun s r => if units = 0 then s else s.zero (x.quota r).2 (units * quotaUnit)) s

/-- The accounting record (R546): fields in order, energy in mJ. -/
def Seat.acctFields (x : Seat) : List Nat :=
  (List.range 62).map (fun i => FMap.get 0 x.acct i) ++ [x.energyDyn / 1000, x.energyStatic / 1000]

def Seat.acctRecord (x : Seat) : Bytes := x.acctFields.flatMap (fun v => natLe 8 v)

/-- Commands of a destroyed seat that have not begun: launches complete with TURN_ABORTED, others with SEAT_STATE
(R545). -/
def State.dropWaiting (s : State) (n : Nat) : State :=
  (s.host.cmds.filter (fun c => !c.begun && c.onSeat n)).foldl (fun s c =>
    s.complete c.id (if chOpcode c.packet = 0x0401 then .turnAborted else .seatState) [] []) s

/-- A SHUTDOWN whose last seat is ABSENT writes a flash bank, leaves every port DISABLED and completes (R550, R611). -/
def State.shutdownEnd (s : State) (id : Nat) (late : Bool) : State :=
  let s := { s with mod := { s.mod with shutdown := none } }
  let s := if s.flash.available then s.bankWrite else s
  let s := (List.range 24).foldl (fun (s : State) p => if (s.port p).state = .disabled then s else s.linkDown p .disabled) s
  s.complete id (if late then .timeout else .success) [] []

def State.shutdownStep (s : State) (late : Bool) : State :=
  match s.mod.shutdown with
  | none => s
  | some (id, before) =>
    if s.seats.isEmpty then s.shutdownEnd id (before || late)
    else { s with mod := { s.mod with shutdown := some (id, before || late) } }

/-- The drain has ended: a teardown advances the epoch and clears, a destroy releases everything and the seat is ABSENT
(R613, R615). -/
def State.drainOver (s : State) (n : Nat) (st : Status) : State :=
  match s.seat? n with
  | none => s
  | some x =>
    match x.drain with
    | none => s
    | some d =>
      let s := if x.turnEnded then s.passBoundary n x else s
      let x : Seat := (s.seat? n).getD x
      let e := if (x.epoch.toNat + 1) % 2 ^ 32 = 0 then 1 else (x.epoch.toNat + 1) % 2 ^ 32
      match d.kind with
      | .teardown =>
        let s := s.setEpoch n e
        let s := (((s.clearStores x).clearCounters n).clearFabric n)
        let s := s.onSeat n (fun y => { y with spaces := [], swaps := [], window := none, program := none, drain := none,
                                               heldSignals := [], routed := [], state := if d.halted then .halted else .idle })
        let s := x.swaps.foldl (fun s w => s.complete w.cmd .swapRejected [] []) s
        let s := match d.cmd with | some c => s.complete c st (natLe 4 e) [] | none => s
        s.seatSettle n
      | .destroy =>
        let s := State.applyReleased (2 * s.ni.lineOps.length + 1) s n
        let s := (s.clearCounters n).clearFabric n
        let s := { s with seats := FMap.erase s.seats n }
        let s := s.forgetStreams
        let s := x.swaps.foldl (fun s w => s.complete w.cmd .swapRejected [] []) s
        let s := s.dropWaiting n
        let s := match d.cmd with
          | some c => s.complete c st [] x.acctRecord
          | none => s.seatChanged n
        s.dispatch.shutdownStep (decide (st = .timeout))

/-- What is still outstanding at a drain limit ends with TIMEOUT, and the drain is over (R614). -/
def State.drainTimeout (s : State) (n : Nat) : State :=
  let late := !s.drained n
  let s := s.druind.runs.foldl (fun (s : State) (kr : Nat × RouteRun) => if kr.2.seat = n then s.routeKill kr.1 .timeout else s) s
  let s := { s with druind := { s.druind with asks := s.druind.asks.filter (fun a => (s.ctx a.tile a.ctx).seat ≠ n) } }
  let s := s.ni.requests.foldl (fun (s : State) (kr : Nat × Request) => if kr.2.seat = n then s.endRequest kr.1 (some .timeout) else s) s
  let s := s.ni.tx.foldl (fun (s : State) (kt : Nat × TxStream) => if kt.2.unacked.any (fun u => u.seat == n) then s.giveUp kt.1 else s) s
  let s := s.ni.actions.foldl (fun (s : State) (ka : Nat × Action) =>
    if ka.2.seat ≠ n then s else (s.setAction ka.1 (fun a => { a with status := a.status.orElse (fun _ => some .timeout) })).actionEnd ka.1) s
  let s := s.dropFills n
  s.drainOver n (if late then .timeout else .success)

/-- The drain of a seat begins: stop, disarm, stop fills; a limit of 0 ends it at once (R613, R614). -/
def State.startDrain (s : State) (n : Nat) (k : DrainKind) (limit : Nat) (cmd : Option Nat) (now : Bool) : State :=
  match s.seat? n with
  | none => s
  | some x =>
    let halted := x.state = .halted
    let s := s.setSeat n { x with preempt := { beganAt := x.preempt.beganAt } }
    let s := s.abortTurn n
    let left := match s.seat? n with | some y => y.launches | none => []
    let s := s.dropLaunches n left .turnAborted
    let st : SeatState := match k with | .destroy => .draining | .teardown => if halted then .halted else .running
    let dr : Drain := { kind := k, limit := limit, cmd := cmd, halted := halted }
    let s := s.onSeat n (fun y => { y with drain := some dr, state := st })
    let s := (s.disarm n).stopFills n
    if now then s.drainTimeout n else s

/-- DRAIN_END: the drain conditions hold (R614). -/
def execDrainEnd (seat : Nat) (s : State) : Out :=
  .next (match s.seat? seat with
    | none => s
    | some x => if x.drain.isSome && s.drained seat then s.drainOver seat .success else s)

/-- DRAIN_LIMIT: the drain limit passes first (R614). -/
def execDrainLimit (seat : Nat) (s : State) : Out :=
  .next (match s.seat? seat with
    | none => s
    | some x => if x.drain.isSome then s.drainTimeout seat else s)

/-- A seat is destroyed other than by its command; with a limit of 0 at once (R500, R568, R585). -/
def State.destroySeat (s : State) (n : Nat) (now : Bool) : State :=
  match s.seat? n with
  | none => s
  | some x =>
    match x.drain with
    | some d =>
      if d.kind = .destroy then (if now then s.drainTimeout n else s)
      else
        let s := match d.cmd with | some c => s.complete c .seatState [] [] | none => s
        s.startDrain n .destroy 0 none now
    | none => (s.seatChanged n).startDrain n .destroy 0 none now

/-- Every seat is destroyed with drain limit 0 (R568, R585). -/
def State.destroyAll (s : State) : State := s.seats.foldl (fun (s : State) (ks : Nat × Seat) => s.destroySeat ks.1 true) s

end Sys2Proof.Machine
end

