-- ==== Sys2Proof/Machine/Info.lean ====
section
/-!
DEFINITION. The information commands (R550, 0x01xx), and what they and the seat commands read of the running firmware
(R477, R577) and of the port allotments (R499).
-/

namespace Sys2Proof.Machine

/-! ### The firmware slots (R577) -/

/-- n bytes of a slot from an offset; a byte that nothing has written is 0. -/
def imgBytes (m : FMap Byte) (o n : Nat) : Bytes := (List.range n).map (fun i => FMap.get 0 m (o + i))

def State.slot (s : State) (b : Bool) : FMap Byte := if b then s.fw.slotB else s.fw.slotA

def imgVersion (m : FMap Byte) : Nat := slotField m 4 4
def imgSvn (m : FMap Byte) : Nat := slotField m 8 4
def imgArithLo (m : FMap Byte) : Nat := slotField m 12 2
def imgArithHi (m : FMap Byte) : Nat := slotField m 14 2
def imgCpl (m : FMap Byte) : Nat := slotField m 16 1
def imgMinStep (m : FMap Byte) : Nat := slotField m 17 1
def imgBodyLen (m : FMap Byte) : Nat := slotField m 24 8

/-! ### Allotments (R499) -/

def State.allot (s : State) (port : Nat) : Allot := s.host.allots.getD port {}

/-- The 64 bytes of an allotment in the seat-record layout. -/
def allotBytes (a : Allot) : Bytes :=
  List.replicate 16 (0 : Byte) ++ natLe 16 a.clusters ++ natLe 2 a.regions ++ natLe 2 a.qbase ++ natLe 2 a.qsize ++
    [BitVec.ofNat 8 a.nictr0, BitVec.ofNat 8 a.nictr1, BitVec.ofNat 8 a.trig0, BitVec.ofNat 8 a.trig1] ++
    natLe 2 a.windows ++ natLe 2 a.groups ++ natLe 2 a.tc0cap ++ natLe 4 a.extents ++ List.replicate 12 (0 : Byte)

/-- The seats of a host port. -/
def State.portSeats (s : State) (port : Nat) : List (Nat × Seat) := s.seats.filter (fun (ks : Nat × Seat) => ks.1 / 16 == port)

/-- What seats of records hold of a counted resource. -/
def heldSum (rs : List Bytes) (f : Bytes → Nat) : Nat := rs.foldl (fun a r => a + f r) 0

/-- The part of an allotment that seats of records leave free: clusters that none holds, and each counted resource less
what they hold; of the HBM range, the units of each region that none holds. -/
def allotFree (a : Allot) (rs : List Bytes) (extents : Nat) : Allot :=
  let sum := heldSum rs
  { clusters := (List.range 128).foldl (fun m i => if bit a.clusters i && !rs.any (fun r => bit (recClusters r) i) then m + 2 ^ i else m) 0
    regions := a.regions
    qbase := a.qbase
    qsize := a.qsize - sum recQsize
    nictr0 := a.nictr0 - sum (fun r => recNictr r 0)
    nictr1 := a.nictr1 - sum (fun r => recNictr r 1)
    trig0 := a.trig0 - sum (fun r => recTrig r 0)
    trig1 := a.trig1 - sum (fun r => recTrig r 1)
    windows := a.windows - sum recWindows
    groups := a.groups - sum recGroups
    tc0cap := a.tc0cap - sum recTc0Cap
    extents := a.extents - extents }

/-- The host port whose physical function issued a command, where one did. -/
def Cmd.port? (c : Cmd) : Option Nat := match c.issuer with | .ring fn _ => some (fn / 16) | .mgmt _ => none

/-- A command came by a management transport (issuer M of R537). -/
def Cmd.isMgmt (c : Cmd) : Bool := match c.issuer with | .mgmt _ => true | .ring _ _ => false

/-- A command came from a physical function. -/
def Cmd.isPhysical (c : Cmd) : Bool := match c.issuer with | .ring fn _ => fn % 16 == 0 | .mgmt _ => false

/-! ### The 0x01xx commands -/

/-- The ordering code in 16 ASCII bytes (R1, R660). -/
def orderBytes : OrderCode → Bytes
  | .a960x32 => ascii [67, 83, 77, 45, 50, 57, 54, 48, 45, 65, 51, 50]
  | .a960x64 => ascii [67, 83, 77, 45, 50, 57, 54, 48, 45, 65, 54, 52]
  | .a896x32 => ascii [67, 83, 77, 45, 50, 56, 57, 54, 45, 65, 51, 50]
where
  ascii (l : List Nat) : Bytes := padTo 16 (l.map (BitVec.ofNat 8))

/-- The stepping in two ASCII bytes. -/
def steppingBytes (b1 : Bool) : Bytes := if b1 then [66, 49] else [65, 48]

def State.identity (s : State) : Bytes :=
  let m := s.fw.image
  padTo 64 (orderBytes s.ident.code ++ steppingBytes s.ident.b1 ++ padTo 16 s.ident.serial ++ natLe 2 (imgArithLo m) ++
    natLe 2 (imgArithHi m) ++ natLe 1 (imgCpl m) ++ natLe 4 (imgVersion m) ++ natLe 2 s.fab.node)

/-- INFO_IDENTITY. -/
def execInfoIdentity (id : Nat) (s : State) : Out := .next (s.runCmd id 0x0101 (fun s _ _ => .data s s.identity))

/-- Seats that the module offers (R498). -/
def Ident.seats (i : Ident) : Nat := 32 + (if i.splitA then 16 else 0) + (if i.splitB then 16 else 0)

/-- The 64 bytes of INFO_CAPS (R550). -/
def State.capsBytes (s : State) : Bytes :=
  let b (c : Bool) (n : Nat) : Nat := if c then n else 0
  padTo 64 (natLe 2 s.ident.ltiles ++ natLe 2 s.spareTiles.length ++ natLe 1 (b s.mod.degraded 1) ++
    natLe 1 (b s.ident.splitA 1 + b s.ident.splitB 2) ++ natLe 1 s.ident.seats ++ [0] ++ natLe 4 s.ident.extents ++
    natLe 4 s.extentsFree ++ natLe 4 (b s.ident.b1 3))

/-- INFO_CAPS: 4:8 operands and flit mode are features of stepping B1 (R9). -/
def execInfoCaps (id : Nat) (s : State) : Out := .next (s.runCmd id 0x0102 (fun s _ _ => .data s s.capsBytes))

/-- The state code of a physical tile in INFO_TILE_MAP. -/
def State.tileCode (s : State) (pt : Nat) : Nat :=
  let x := s.ptile pt
  if x.testing then 3 else if x.fence.isSome then 2 else if (s.tileAt pt).isSome then 0 else 1

def State.tileMapBytes (s : State) : Bytes :=
  (List.range 1024).flatMap (fun pt => natLe 4 ((s.tileAt pt).getD 0xFFFF + s.tileCode pt * 2 ^ 16))

/-- INFO_TILE_MAP. -/
def execInfoTileMap (id : Nat) (s : State) : Out := .next (s.runCmd id 0x0103 (fun s _ _ => .data s s.tileMapBytes))

def remapBytes (r : Remap) : Bytes := natLe 8 r.turn ++ natLe 2 r.ltile ++ natLe 2 r.old ++ natLe 2 r.new ++ List.replicate 2 (0 : Byte)

/-- INFO_REMAPS: the first 256 records from a turn onward. -/
def execInfoRemaps (id : Nat) (s : State) : Out :=
  .next (s.runCmd id 0x0104 (fun s _ b =>
    .data s (((s.units.remaps.filter (fun r => chArg b ≤ r.turn)).take 256).flatMap remapBytes)))

/-- INFO_ALLOT. -/
def execInfoAllot (id : Nat) (s : State) : Out :=
  .next (s.runCmd id 0x0105 (fun s _ b =>
    let p := chArg b % 4
    let a := s.allot p
    .data s (allotBytes a ++ allotBytes (allotFree a ((s.portSeats p).map (·.2.record)) (s.extentsOf p)))))

end Sys2Proof.Machine
end

