-- ==== Sys2Proof/Machine/SeatCmds.lean ====
section
/-!
DEFINITION. The seat, allotment and memory commands (R550, 0x02xx and 0x03xx): records and their checks (R501 to R505), the
areas, exclusions and NI counters of a seat (R399, R493, R494), allotments (R499), windows (R361, R362), the layer window
(R274 to R276), the mode of a stack (R252).
-/

namespace Sys2Proof.Machine

/-! ### The checks of a seat record (R502 to R504, R568) -/

/-- Reserved fields are 0 and every field lies in its range. -/
def recFieldsOk (b1 : Bool) (r : Bytes) : Bool :=
  byteAt r 0 < 64 && byteAt r 1 < 8 && byteAt r 2 < 8 && zeros r 7 8 && zeros r 54 64
    && 1 ≤ recDreSlots r && recDreSlots r ≤ 4 && 4 ≤ recCheck r && recCheck r ≤ 16 && (b1 || recCheck r == 8)
    && recNictr r 0 ≤ 32 && recNictr r 1 ≤ 32 && recTrig r 0 ≤ 32 && recTrig r 1 ≤ 32 && recWindows r ≤ 4096
    && recGroups r ≤ 1024 && 1 ≤ recQuantum r && (!recShared r || saveUnits r < recQsize r)

def recClustersOk (i : Ident) (r : Bytes) : Bool := recClusters r != 0 && recClusters r < 2 ^ i.lclusters

def recQuotaOk (r : Bytes) : Bool := recQbase r + recQsize r ≤ 383 && (recQsize r == 0 || recRegions r != 0)

/-- The level of a record; 0 is the release's own (R477). -/
def State.levelOf (s : State) (r : Bytes) : Nat := if recLevel r = 0 then imgArithHi s.fw.image else recLevel r

/-- The release implements its own level and every lower one that its image names (R477, R577). -/
def State.levelOk (s : State) (r : Bytes) : Bool :=
  imgArithLo s.fw.image ≤ s.levelOf r && s.levelOf r ≤ imgArithHi s.fw.image

/-- A quota includes a region of a withdrawn stack (R568). -/
def State.quotaWithdrawn (s : State) (r : Bytes) : Bool := s.onWithdrawn { record := r }

/-- Every resource of the records of a port's seats fits the port's allotment. -/
def allotFits (a : Allot) (rs : List Bytes) : Bool :=
  let sum := heldSum rs
  rs.all (fun r => !outside128 (recClusters r) a.clusters
      && (recQsize r == 0 || ((regionsOf r).all (fun g => bit a.regions g) && a.qbase ≤ recQbase r
        && recQbase r + recQsize r ≤ a.qbase + a.qsize)))
    && sum (fun r => recNictr r 0) ≤ a.nictr0 && sum (fun r => recNictr r 1) ≤ a.nictr1
    && sum (fun r => recTrig r 0) ≤ a.trig0 && sum (fun r => recTrig r 1) ≤ a.trig1
    && sum recWindows ≤ a.windows && sum recGroups ≤ a.groups
where
  outside128 (x mask : Nat) : Bool := (List.range 128).any (fun i => bit x i && !bit mask i)

/-- A record fits its port's allotment less what the port's other seats hold. -/
def State.allotAllows (s : State) (n : Nat) (r : Bytes) : Bool :=
  let others := ((s.portSeats (n / 16)).filter (fun ks => ks.1 != n)).map (fun (ks : Nat × Seat) => ks.2.record)
  let sum := heldSum (r :: others)
  let a := s.allot (n / 16)
  allotFits { a with nictr0 := a.nictr0 - (sum (fun q => recNictr q 0) - recNictr r 0)
                     nictr1 := a.nictr1 - (sum (fun q => recNictr q 1) - recNictr r 1)
                     trig0 := a.trig0 - (sum (fun q => recTrig q 0) - recTrig r 0)
                     trig1 := a.trig1 - (sum (fun q => recTrig q 1) - recTrig r 1)
                     windows := a.windows - (sum recWindows - recWindows r)
                     groups := a.groups - (sum recGroups - recGroups r) } [r]

/-- Two HBM ranges overlap in a region that both include (R503). -/
def hbmOverlap (regs1 base1 size1 regs2 base2 size2 : Nat) : Bool :=
  (List.range 16).any (fun g => bit regs1 g && bit regs2 g) && size1 != 0 && size2 != 0
    && base1 < base2 + size2 && base2 < base1 + size1

/-- A record obeys R503 beside every other seat: a cluster in common only for two SHARED seats of one port, HBM never. -/
def State.overlapsOk (s : State) (n : Nat) (r : Bytes) : Bool :=
  s.seats.all (fun (ks : Nat × Seat) =>
    let q := ks.2.record
    ks.1 == n ||
      (!hbmOverlap (recRegions r) (recQbase r) (recQsize r) (recRegions q) (recQbase q) (recQsize q)
        && ((recShared r && recShared q && ks.1 / 16 == n / 16) || !(clustersOf r).any (fun c => (clustersOf q).contains c))))

/-- Every cluster that a record names is backed (R32). -/
def State.recordBacked (s : State) (r : Bytes) : Bool :=
  (clustersOf r).all (fun lc => (s.clusterPhys lc).isSome) && !s.holdsUnbacked { record := r }

/-- The checks of R502 in order; `place4` is the fourth. -/
def State.recordChecks (s : State) (n : Nat) (r : Bytes) (place4 : Bool) : List (Bool × Status) := [
  (recFieldsOk s.ident.b1 r, .configInvalid),
  (recClustersOk s.ident r, .configInvalid),
  (recQuotaOk r, .configInvalid),
  (place4, .seatState),
  (s.levelOk r, .levelUnsupported),
  (!s.quotaWithdrawn r, .moduleState),
  (s.allotAllows n r, .quotaExceeded),
  (s.overlapsOk n r, .seatConflict),
  (s.recordBacked r, .tilesUnavailable)]

/-! ### Creating and changing a seat (R198, R505) -/

/-- The region whose physical cluster backs each logical cluster of a record now. -/
def State.homeMap (s : State) (r : Bytes) : FMap Nat :=
  (clustersOf r).filterMap (fun lc => (FMap.find? s.units.clusterMap lc).map (fun pc => (lc, pc / 8)))

/-- The Druind share that goes with the clusters of a record (R198). -/
def State.shareOf (s : State) (r : Bytes) : List Nat :=
  (List.range 16).filter (fun g => (s.homeMap r).any (fun (kg : Nat × Nat) => kg.2 == g) && !s.units.lostDruinds.contains g)

/-- A SHARED seat beside another that is on one of its clusters starts off them. -/
def State.besideOthers (s : State) (n : Nat) (x : Seat) : Seat :=
  let busy := s.seats.any (fun (ks : Nat × Seat) => ks.1 != n && conflict ks.2 x && !(decide (ks.2.preempt.phase = .saved)))
  { x with preempt := if busy then { x.preempt with phase := .saved, image := none } else x.preempt }

/-- A seat takes the clusters of its record, and its Druind share with them (R198). -/
def State.takeClusters (s : State) (n : Nat) (x : Seat) : Seat :=
  s.besideOthers n { x with share := s.shareOf x.record, home := s.homeMap x.record }

/-- The fixed counters of the kinds seat-tile, seat-cluster and seat (R588, R591). -/
def seatKind (code : Nat) : Bool := code / 4096 == 1 || code / 4096 == 2 || code / 4096 == 10 || code == 0x7003

/-- The fixed counters of a new seat are 0 (R588). -/
def State.clearFixed (s : State) (n : Nat) : State :=
  { s with ctrs := { s.ctrs with fixed := s.ctrs.fixed.filter (fun (kv : Nat × W64) =>
      !(kv.1 / 2048 % 128 == n && seatKind (kv.1 / 2048 / 128))) } }

/-- A seat is created in IDLE. -/
def State.newSeat (s : State) (n : Nat) (r : Bytes) : State :=
  let x : Seat := { record := r, level := s.levelOf r, seed := BitVec.ofNat 64 (recSeed r), seedTurn := BitVec.ofNat 64 (recSeed r),
                    epoch := BitVec.ofNat 32 (recEpoch r), tc0Bucket := recTc0Cap r * 256, tc0At := s.time,
                    haltLatch := !s.pins.haltN }
  ((s.clearFixed n).clearCounters n).setSeat n (s.takeClusters n x)

/-- SEAT_CREATE (R501, R502, R551). -/
def State.seatCreate (s : State) (n : Nat) (r : Bytes) : Answer :=
  if byteAt r 0 ≠ n then s.deny .cmdInvalid
  else if !s.mod.admitted then s.deny .admissionRequired
  else
    match firstFail (s.recordChecks n r (s.fnPresent n && (s.seat? n).isNone)) with
    | some st => s.deny st
    | none => .ok (s.newSeat n r)

def execSeatCreate (id : Nat) (s : State) : Out :=
  .next (s.runCmd id 0x0201 (fun s _ b => s.seatCreate (chSeat b) (chPayload b)))

/-- The record of a seat as SEAT_QUERY reports it: the seed and the epoch are those in force. -/
def Seat.current (x : Seat) : Bytes := splice (splice x.record 8 (natLe 8 x.seed.toNat)) 48 (natLe 4 x.epoch.toNat)

/-- The fields that may change at any time: CS1400, PRIORITY, DRE_SLOTS, CHECK, TC0_CAP and QUANTUM of r, the rest of a
record. -/
def withDeferred (base r : Bytes) : Bytes :=
  let b := splice (splice base 2 ((r.drop 2).take 2)) 6 ((r.drop 6).take 1)
  let b := splice (splice b 46 ((r.drop 46).take 2)) 52 ((r.drop 52).take 2)
  splice b 1 [BitVec.ofNat 8 (byteAt base 1 % 4 + (if recCs1400 r then 4 else 0))]

/-- The fields that may change only while the seat is IDLE: SHARED, GRAIN, CLUSTERS, HBM, NI fields, WINDOWS, GROUPS. -/
def withIdleOnly (base r : Bytes) : Bytes :=
  let b := splice base 16 ((r.drop 16).take 30)
  splice b 1 [BitVec.ofNat 8 (byteAt base 1 / 4 * 4 + byteAt r 1 % 4)]

/-- SEAT_CHANGE (R505): what may not change in the seat's state must hold its current value. -/
def State.seatChange (s : State) (n : Nat) (x : Seat) (r : Bytes) : Answer :=
  let cur := x.current
  let idle := x.state = .idle
  let allowed := withDeferred (if idle then withIdleOnly cur r else cur) r
  if byteAt r 0 ≠ n then s.deny .cmdInvalid
  else
    match firstFail (s.recordChecks n r (r == allowed)) with
    | some st => s.deny st
    | none =>
      let moved := recClusters r ≠ recClusters x.record
      let y : Seat := if idle then { x with record := withIdleOnly x.record r } else x
      let y : Seat := if !idle then y else if moved then s.takeClusters n y
        else if recShared r ≠ recShared x.record then s.besideOthers n y else y
      let y : Seat := if x.turnBegun then { y with nextRecord := some (withDeferred y.record r) }
        else { y with record := withDeferred y.record r }
      .ok (s.setSeat n y).dispatch

def execSeatChange (id : Nat) (s : State) : Out :=
  .next (s.runSeat id 0x0202 (fun s n x b => s.seatChange n x (chPayload b)))

/-! ### Destroying, tearing down, querying (R550, R568, R613) -/

/-- SEAT_DESTROY: the seat drains and its command runs on. -/
def execSeatDestroy (id : Nat) (s : State) : Out :=
  .next (s.runSeat id 0x0203 (fun s n _ b => .runs (s.startDrain n .destroy (chArg b) (some id) (chArg b == 0))))

/-- SEAT_TEARDOWN: the seat drains in its state, and its command runs on; one that is off its clusters is restored first
(R613); one halted for a withdrawn stack refuses (R568). -/
def State.seatTeardown (s : State) (id : Nat) : State :=
  let waits : Bool := match s.cmd? id with
    | some c => !c.begun && chOpcode c.packet == 0x0209 && (match s.seat? (chSeat c.packet) with
      | some x => !(decide (x.preempt.phase = .none)) && x.state != .draining && x.haltCause != 4
      | none => false)
    | none => false
  if waits then s.dispatch
  else s.runSeat id 0x0209 (fun s n x b =>
    if x.state = .halted && x.haltCause = 4 then s.deny .seatState
    else .runs (s.startDrain n .teardown (chArg b) (some id) (chArg b == 0)))

def execSeatTeardown (id : Nat) (s : State) : Out := .next (s.seatTeardown id)

/-- The codes of R506. -/
def stateCode : SeatState → Nat
  | .idle => 1 | .running => 2 | .preempted => 3 | .halted => 4 | .draining => 5

/-- SEAT_QUERY. -/
def execSeatQuery (id : Nat) (s : State) : Out :=
  .next (s.runSeat id 0x0204 (fun s _ x _ =>
    .data s (padTo 96 (x.current ++ natLe 1 (stateCode x.state) ++ List.replicate 7 (0 : Byte) ++ natLe 8 x.turn.toNat ++
      natLe 4 x.epoch.toNat))))

/-- SEAT_SEED: the seed of every turn that begins afterwards (R71). -/
def execSeatSeed (id : Nat) (s : State) : Out :=
  .next (s.runSeat id 0x0205 (fun s n x b => .ok (s.setSeat n { x with seed := BitVec.ofNat 64 (chArg b) })))

/-- SEAT_NEXT_TURN: IDLE only (R493). -/
def execSeatNextTurn (id : Nat) (s : State) : Out :=
  .next (s.runSeat id 0x0206 (fun s n x b => .ok (s.setSeat n { x with turn := BitVec.ofNat 64 (chArg b) })))

/-! ### Areas, exclusions, NI counters (R399, R494, R550) -/

def powerOfTwo (n : Nat) : Bool := (List.range 17).any (fun i => n == 2 ^ i)

/-- The areas of a payload are well placed: in the quota, aligned, N a power of two up to 65,536. -/
def State.areasOk (s : State) (x : Seat) (a : Areas) : Bool :=
  (a.fault == 0 || (a.fault % 64 == 0 && (s.quotaAddr x a.fault 32832).isSome))
    && (a.event == 0 || (a.event % 64 == 0 && (s.quotaAddr x a.event 32832).isSome))
    && (a.manifest == 0 || (a.manifest % 128 == 0 && powerOfTwo a.n && (s.quotaAddr x a.manifest (128 * a.n)).isSome))

/-- Areas given later stand over areas that still wait. -/
def mergeAreas (old new : Areas) : Areas :=
  { fault := if new.fault = 0 then old.fault else new.fault
    event := if new.event = 0 then old.event else new.event
    manifest := if new.manifest = 0 then old.manifest else new.manifest
    n := if new.manifest = 0 then old.n else new.n }

/-- SEAT_AREAS (R505, R550). -/
def State.seatAreas (s : State) (n : Nat) (x : Seat) (p : Bytes) : Answer :=
  let a : Areas := { fault := fld p 0 8, event := fld p 8 8, manifest := fld p 16 8, n := fld p 24 4 }
  if !zeros p 28 32 then s.deny .cmdInvalid
  else if !s.areasOk x a then s.deny .configInvalid
  else if x.turnBegun then .ok (s.setSeat n { x with nextAreas := some (mergeAreas (x.nextAreas.getD {}) a) })
  else .ok (s.areasInForce n x a)

def execSeatAreas (id : Nat) (s : State) : Out :=
  .next (s.runSeat id 0x0207 (fun s n x b => s.seatAreas n x (chPayload b)))

/-- The members of a seat's group, where it has it. -/
def State.groupMembers (s : State) (n g : Nat) : Option Nat :=
  match FMap.find? s.ni.groups g with
  | some q => if q.seat = n then some q.nodes.length else none
  | none => none

/-- The ranks of range(r) in a group of m members (R414). -/
def rangeRanks (m r : Nat) : List Nat :=
  let low := if r = 0 then 65536 else ((List.range 17).foldl (fun a i => if r % 2 ^ i = 0 then 2 ^ i else a) 1)
  (List.range (min (r + low) m - r)).map (r + ·)

/-- The fields of an exclusion header are as R494 gives them. -/
def exclusionOk (h : Bytes) : Bool :=
  let scope := byteAt h 10
  fld h 8 2 < 1024 && 1 ≤ scope && scope ≤ 3 && zeros h 11 12 && zeros h 14 16 && zeros h 20 64
    && (if scope = 1 then fld h 12 2 == 0 else fld h 16 4 == 0)

/-- SEAT_EXCLUDE (R494): at most 64 records. -/
def State.seatExclude (s : State) (n : Nat) (x : Seat) (arg : Nat) : Answer :=
  match s.quotaAddr x arg 64 with
  | none => s.deny .addrInvalid
  | some a =>
    let h := s.bytes a 64
    match s.groupMembers n (fld h 8 2), exclusionOk h with
    | some m, true =>
      let len := (m + 7) / 8
      match s.quotaAddr x (arg + 64) len with
      | none => s.deny .addrInvalid
      | some b =>
        match (s.rangePoison a 64).orElse (fun _ => s.rangePoison b len) with
        | some c => s.deny (poisonStatus c)
        | none =>
          let map := s.bytes b len
          let out (r : Nat) : Bool := bit (byteAt map (r / 8)) (r % 8)
          let whole := byteAt h 10 ≠ 1 || (List.range m).all (fun r => !out r || (rangeRanks m r).all out)
          if out 0 || !whole || 64 ≤ x.exclusions.length then s.deny .configInvalid
          else
            let s := (s.hbmMoved n a 64 false).hbmMoved n b len false
            .ok (s.onSeat n (fun y =>
              { y with exclusions := y.exclusions ++ [h ++ map]
                       facts := if y.turnBegun && fld h 0 8 = y.turn.toNat then { y.facts with replay := true } else y.facts }))
    | _, _ => s.deny .configInvalid

def execSeatExclude (id : Nat) (s : State) : Out :=
  .next (s.runSeat id 0x0208 (fun s n x b => s.seatExclude n x (chArg b)))

/-- A seat has an NI counter of a seat-view number (R398). -/
def hasNiCtr (r : Bytes) (k : Nat) : Bool :=
  if k < 2048 then k < 64 * recNictr r 0 else k < 4096 && k - 2048 < 64 * recNictr r 1

/-- SEAT_NI_CLEAR: a range of the seat's counters that no armed entry watches goes to 0 (R399). -/
def State.niClear (s : State) (n : Nat) (x : Seat) (first count : Nat) : Answer :=
  let inside (k : Nat) : Bool := first ≤ k && k < first + count
  if count ≠ 0 && !(4096 ≥ first + count && (List.range count).all (fun i => hasNiCtr x.record (first + i))) then s.deny .configInvalid
  else if s.ni.triggers.any (fun (kt : Nat × Trigger) => kt.1 / 4096 == n && !kt.2.running && inside kt.2.ctr) then
    s.deny .triggerBusy
  else .ok { s with ni := { s.ni with ctr := s.ni.ctr.filter (fun (kv : Nat × W32) =>
      !(kv.1 / 4096 == n && inside (kv.1 % 4096))) } }

def execSeatNiClear (id : Nat) (s : State) : Out :=
  .next (s.runSeat id 0x020A (fun s n x b => s.niClear n x (chArg b % 2 ^ 16) (chArg b / 2 ^ 16 % 2 ^ 16)))

/-! ### Port allotments (R499) -/

/-- The allotment that a PORT_ALLOT payload names. -/
def allotOf (p : Bytes) : Allot :=
  { clusters := recClusters p, regions := recRegions p, qbase := recQbase p, qsize := recQsize p, nictr0 := recNictr p 0,
    nictr1 := recNictr p 1, trig0 := recTrig p 0, trig1 := recTrig p 1, windows := recWindows p, groups := recGroups p,
    tc0cap := recTc0Cap p, extents := fld p 48 4 }

/-- Fields in range, and cluster maps and HBM ranges disjoint from those of every other port. -/
def State.allotOk (s : State) (port : Nat) (a : Allot) : Bool :=
  s.portPresent port && a.clusters < 2 ^ s.ident.lclusters && a.qbase + a.qsize ≤ 383 && a.nictr0 ≤ 32 && a.nictr1 ≤ 32
    && a.trig0 ≤ 32 && a.trig1 ≤ 32 && a.windows ≤ 4096 && a.groups ≤ 1024 && a.extents ≤ s.ident.extents
    && (List.range 4).all (fun q =>
      let o := s.allot q
      q == port || (!(List.range 128).any (fun i => bit a.clusters i && bit o.clusters i)
        && !hbmOverlap a.regions a.qbase a.qsize o.regions o.qbase o.qsize))

/-- PORT_ALLOT: refused where it would take away what a seat or a namespace of the port holds. -/
def State.portAllot (s : State) (port : Nat) (p : Bytes) : Answer :=
  let a := allotOf p
  if !zeros p 0 16 || !zeros p 52 64 then s.deny .cmdInvalid
  else if !s.allotOk port a then s.deny .configInvalid
  else if !allotFits a ((s.portSeats port).map (·.2.record)) || a.extents < s.extentsOf port then s.deny .allotmentInUse
  else .ok { s with host := { s.host with allots := s.host.allots.set port a } }

def execPortAllot (id : Nat) (s : State) : Out :=
  .next (s.runCmd id 0x020B (fun s _ b => s.portAllot (chArg b % 4) (chPayload b)))

/-! ### The window table (R361, R362) -/

/-- The window that 32 bytes spell. -/
def windowOf (p : Bytes) : Window :=
  { v := bit (byteAt p 0) 0, rd := bit (byteAt p 0) 1, wr := bit (byteAt p 0) 2, at_ := bit (byteAt p 0) 3, tx := bit (byteAt p 0) 4,
    seat := byteAt p 1 % 64, key := fld p 4 4, srcMatch := fld p 8 2, srcMask := fld p 10 2, base := fld p 16 8, size := fld p 24 8 }

def windowBytes (w : Window) : Bytes :=
  let b (c : Bool) (n : Nat) : Nat := if c then n else 0
  natLe 1 (b w.v 1 + b w.rd 2 + b w.wr 4 + b w.at_ 8 + b w.tx 16) ++ natLe 1 w.seat ++ List.replicate 2 (0 : Byte) ++
    natLe 4 w.key ++ natLe 2 w.srcMatch ++ natLe 2 w.srcMask ++ List.replicate 4 (0 : Byte) ++ natLe 8 w.base ++ natLe 8 w.size

/-- Reserved fields are 0 and fields in range, for entry w of a seat (R361, R362). -/
def windowOk (p : Bytes) (n w : Nat) : Bool :=
  byteAt p 0 < 32 && byteAt p 1 == n && zeros p 2 4 && zeros p 12 16 && fld p 4 4 % 4096 == w && fld p 16 8 < 2 ^ 48
    && fld p 16 8 % 4096 == 0 && fld p 24 8 % 4096 == 0 && 4096 ≤ fld p 24 8 && fld p 24 8 ≤ 0x17F00000000

/-- MEM_WINDOW_SET (R361, R362): only the seat's own entries and closed ones; at most WINDOWS open. -/
def State.windowSet (s : State) (n : Nat) (x : Seat) (w : Nat) (p : Bytes) : Answer :=
  let own : Bool := match FMap.find? s.ni.windows w with | some o => !o.v || o.seat == n | none => true
  let q := windowOf p
  let others := (s.ni.windows.filter (fun (kw : Nat × Window) => kw.1 != w && kw.2.v && kw.2.seat == n)).length
  if !own then s.deny .permissionDenied
  else if !windowOk p n w then s.deny .windowInvalid
  else if !x.inQuota q.base q.size || (q.v && recWindows x.record ≤ others) then s.deny .quotaExceeded
  else .ok { s with ni := { s.ni with windows := FMap.insert s.ni.windows w q,
                                      windowsOld := FMap.insert s.ni.windowsOld w (s.hcNow, s.windowAt w) } }

def execMemWindowSet (id : Nat) (s : State) : Out :=
  .next (s.runSeat id 0x0301 (fun s n x b => s.windowSet n x (chArg b) (chPayload b)))

/-- MEM_WINDOW_GET: an entry never written reads as 0; the secret of another seat's key as 0. -/
def State.windowGet (s : State) (n w : Nat) : Bytes :=
  match FMap.find? s.ni.windows w with
  | none => List.replicate 32 0
  | some q => windowBytes (if q.seat = n then q else { q with key := q.key % 4096 })

def execMemWindowGet (id : Nat) (s : State) : Out :=
  .next (s.runSeat id 0x0302 (fun s n _ b => .data s (s.windowGet n (chArg b))))

/-! ### The layer window (R274 to R276) -/

/-- Reserved fields are 0 and fields in range. -/
def layerOk (p : Bytes) : Bool :=
  let slots := byteAt p 0
  let part := fld p 8 8
  let base := fld p 16 8
  zeros p 1 8 && zeros p 24 32 && 1 ≤ slots && slots ≤ 64 && 4096 ≤ part && part % 4096 == 0 && base % 4096 == 0
    && base + slots * part ≤ reservedFrom

/-- A STREAM of the seat has been handed over or accepted and is not over. -/
def State.streaming (s : State) (n : Nat) : Bool :=
  s.fillsOpen n || s.flash.asks.any (fun a => (s.ctx a.1 a.2).seat == n)

/-- MEM_LAYER_WINDOW: a window in use may not be replaced; the region list is the seat's share now (R275, R276). -/
def State.layerWindow (s : State) (n : Nat) (x : Seat) (p : Bytes) : Answer :=
  let regs := s.engines x
  let slots := byteAt p 0
  let part := fld p 8 8
  let base := fld p 16 8
  if x.window.isSome && (x.running.isSome || s.streaming n) then s.deny .seatState
  else if !layerOk p then s.deny .windowInvalid
  else if !regs.all (fun r => x.inQuota (r * regionBytes + base) (slots * part)) then s.deny .quotaExceeded
  else
    let w : LayerWindow := { slots := slots, partSize := part, pbase := base, regions := regs }
    .ok (s.setSeat n { x with window := some w, fillCtrs := [] })

def execMemLayerWindow (id : Nat) (s : State) : Out :=
  .next (s.runSeat id 0x0303 (fun s n x b => s.layerWindow n x (chPayload b)))

/-! ### The mode of a stack (R252, R484, R488) -/

/-- A region lies wholly in an allotment. -/
def allotWhole (a : Allot) (r : Nat) : Bool := bit a.regions r && a.qbase == 0 && 383 ≤ a.qsize

/-- MEM_HBM_MODE: refused while a kernel runs on a seat with quota on the stack; a stack that leaves scheduled mode ends
lockstep for the seats with quota on it. -/
def State.hbmMode (s : State) (c : Cmd) (st : Nat) (demand : Bool) : Answer :=
  let r := st / 2
  let mayPort : Bool := match c.port? with | some p => allotWhole (s.allot p) r | none => true
  if !mayPort then s.deny .permissionDenied
  else if (s.stackUsers st).any (fun ks => ks.2.running.isSome) then s.deny .hbmModeBusy
  else
    let lost := demand && !(s.stack st).demand
    let s := s.setStack st { s.stack st with demand := demand, hot := false }
    .ok (if lost then s.stackDemand st else s)

def execMemHbmMode (id : Nat) (s : State) : Out :=
  .next (s.runCmd id 0x0304 (fun s c b => s.hbmMode c (chArg b % 32) (bit (chArg b) 8)))

end Sys2Proof.Machine
end

