-- ==== Sys2Proof/Machine/Sha.lean ====
section
/-!
DEFINITION. The digests SHA-256 and SHA-384 that the spec names for programs, images and measurements (R491, R548,
R577, R581, R582), as FIPS 180-4 gives them (PRESUMED, log 64).
-/

namespace Sys2Proof.Sha

/-- The round constants of SHA-256. -/
def k256 : List (BitVec 32) :=
  [0x428a2f98, 0x71374491, 0xb5c0fbcf, 0xe9b5dba5, 0x3956c25b, 0x59f111f1, 0x923f82a4, 0xab1c5ed5] ++
  [0xd807aa98, 0x12835b01, 0x243185be, 0x550c7dc3, 0x72be5d74, 0x80deb1fe, 0x9bdc06a7, 0xc19bf174] ++
  [0xe49b69c1, 0xefbe4786, 0x0fc19dc6, 0x240ca1cc, 0x2de92c6f, 0x4a7484aa, 0x5cb0a9dc, 0x76f988da] ++
  [0x983e5152, 0xa831c66d, 0xb00327c8, 0xbf597fc7, 0xc6e00bf3, 0xd5a79147, 0x06ca6351, 0x14292967] ++
  [0x27b70a85, 0x2e1b2138, 0x4d2c6dfc, 0x53380d13, 0x650a7354, 0x766a0abb, 0x81c2c92e, 0x92722c85] ++
  [0xa2bfe8a1, 0xa81a664b, 0xc24b8b70, 0xc76c51a3, 0xd192e819, 0xd6990624, 0xf40e3585, 0x106aa070] ++
  [0x19a4c116, 0x1e376c08, 0x2748774c, 0x34b0bcb5, 0x391c0cb3, 0x4ed8aa4a, 0x5b9cca4f, 0x682e6ff3] ++
  [0x748f82ee, 0x78a5636f, 0x84c87814, 0x8cc70208, 0x90befffa, 0xa4506ceb, 0xbef9a3f7, 0xc67178f2]

/-- The round constants of SHA-384. -/
def k512 : List (BitVec 64) :=
  [0x428a2f98d728ae22, 0x7137449123ef65cd, 0xb5c0fbcfec4d3b2f, 0xe9b5dba58189dbbc] ++
  [0x3956c25bf348b538, 0x59f111f1b605d019, 0x923f82a4af194f9b, 0xab1c5ed5da6d8118] ++
  [0xd807aa98a3030242, 0x12835b0145706fbe, 0x243185be4ee4b28c, 0x550c7dc3d5ffb4e2] ++
  [0x72be5d74f27b896f, 0x80deb1fe3b1696b1, 0x9bdc06a725c71235, 0xc19bf174cf692694] ++
  [0xe49b69c19ef14ad2, 0xefbe4786384f25e3, 0x0fc19dc68b8cd5b5, 0x240ca1cc77ac9c65] ++
  [0x2de92c6f592b0275, 0x4a7484aa6ea6e483, 0x5cb0a9dcbd41fbd4, 0x76f988da831153b5] ++
  [0x983e5152ee66dfab, 0xa831c66d2db43210, 0xb00327c898fb213f, 0xbf597fc7beef0ee4] ++
  [0xc6e00bf33da88fc2, 0xd5a79147930aa725, 0x06ca6351e003826f, 0x142929670a0e6e70] ++
  [0x27b70a8546d22ffc, 0x2e1b21385c26c926, 0x4d2c6dfc5ac42aed, 0x53380d139d95b3df] ++
  [0x650a73548baf63de, 0x766a0abb3c77b2a8, 0x81c2c92e47edaee6, 0x92722c851482353b] ++
  [0xa2bfe8a14cf10364, 0xa81a664bbc423001, 0xc24b8b70d0f89791, 0xc76c51a30654be30] ++
  [0xd192e819d6ef5218, 0xd69906245565a910, 0xf40e35855771202a, 0x106aa07032bbd1b8] ++
  [0x19a4c116b8d2d0c8, 0x1e376c085141ab53, 0x2748774cdf8eeb99, 0x34b0bcb5e19b48a8] ++
  [0x391c0cb3c5c95a63, 0x4ed8aa4ae3418acb, 0x5b9cca4f7763e373, 0x682e6ff3d6b2b8a3] ++
  [0x748f82ee5defb2fc, 0x78a5636f43172f60, 0x84c87814a1f0ab72, 0x8cc702081a6439ec] ++
  [0x90befffa23631e28, 0xa4506cebde82bde9, 0xbef9a3f7b2c67915, 0xc67178f2e372532b] ++
  [0xca273eceea26619c, 0xd186b8c721c0c207, 0xeada7dd6cde0eb1e, 0xf57d4f7fee6ed178] ++
  [0x06f067aa72176fba, 0x0a637dc5a2c898a6, 0x113f9804bef90dae, 0x1b710b35131c471b] ++
  [0x28db77f523047d84, 0x32caab7b40c72493, 0x3c9ebe0a15c9bebc, 0x431d67c49c100d4c] ++
  [0x4cc5d4becb3e42b6, 0x597f299cfc657e2a, 0x5fcb6fab3ad6faec, 0x6c44198c4a475817]

/-- The initial value of SHA-256. -/
def h256 : List (BitVec 32) :=
  [0x6a09e667, 0xbb67ae85, 0x3c6ef372, 0xa54ff53a, 0x510e527f, 0x9b05688c, 0x1f83d9ab, 0x5be0cd19]

/-- The initial value of SHA-384. -/
def h384 : List (BitVec 64) :=
  [0xcbbb9d5dc1059ed8, 0x629a292a367cd507, 0x9159015a3070dd17, 0x152fecd8f70e5939] ++
  [0x67332667ffc00b31, 0x8eb44a8768581511, 0xdb0c2e0d64f98fa7, 0x47b5481dbefa4fa4]

variable {w : Nat}

/-- A word rotated right by each of three amounts, combined by exclusive or. -/
def big (r : Nat × Nat × Nat) (x : BitVec w) : BitVec w :=
  x.rotateRight r.1 ^^^ x.rotateRight r.2.1 ^^^ x.rotateRight r.2.2

/-- A word rotated right by two amounts and shifted right by a third, combined by exclusive or. -/
def small (r : Nat × Nat × Nat) (x : BitVec w) : BitVec w :=
  x.rotateRight r.1 ^^^ x.rotateRight r.2.1 ^^^ x >>> r.2.2

/-- The eight working words of a round. -/
structure Regs (w : Nat) where
  a : BitVec w
  b : BitVec w
  c : BitVec w
  d : BitVec w
  e : BitVec w
  f : BitVec w
  g : BitVec w
  h : BitVec w

/-- The rotations of one digest: of the round's two sums and of the schedule's two. -/
structure Rotations where
  s0 : Nat × Nat × Nat
  s1 : Nat × Nat × Nat
  t0 : Nat × Nat × Nat
  t1 : Nat × Nat × Nat

def rot256 : Rotations := { s0 := (2, 13, 22), s1 := (6, 11, 25), t0 := (7, 18, 3), t1 := (17, 19, 10) }
def rot512 : Rotations := { s0 := (28, 34, 39), s1 := (14, 18, 41), t0 := (1, 8, 7), t1 := (19, 61, 6) }

/-- One round with its constant and its schedule word. -/
def round (r : Rotations) (x : Regs w) (k m : BitVec w) : Regs w :=
  let t1 := x.h + big r.s1 x.e + ((x.e &&& x.f) ^^^ (~~~x.e &&& x.g)) + k + m
  let t2 := big r.s0 x.a + ((x.a &&& x.b) ^^^ (x.a &&& x.c) ^^^ (x.b &&& x.c))
  { a := t1 + t2, b := x.a, c := x.b, d := x.c, e := x.d + t1, f := x.e, g := x.f, h := x.g }

/-- The rounds of a block: the window holds the next 16 schedule words, oldest first. -/
def rounds (r : Rotations) : List (BitVec w) → List (BitVec w) → Regs w → Regs w
  | [], _, x => x
  | k :: ks, win, x =>
    let next := small r.t1 (win.getD 14 0) + win.getD 9 0 + small r.t0 (win.getD 1 0) + win.getD 0 0
    rounds r ks (win.drop 1 ++ [next]) (round r x k (win.getD 0 0))

def regsOf (h : List (BitVec w)) : Regs w :=
  { a := h.getD 0 0, b := h.getD 1 0, c := h.getD 2 0, d := h.getD 3 0, e := h.getD 4 0, f := h.getD 5 0,
    g := h.getD 6 0, h := h.getD 7 0 }

def Regs.words (x : Regs w) : List (BitVec w) := [x.a, x.b, x.c, x.d, x.e, x.f, x.g, x.h]

/-- The words of a byte string, most significant byte first, n bytes each. -/
def wordsOf (n : Nat) : Nat → Bytes → List (BitVec w)
  | 0, _ => []
  | k + 1, bs => BitVec.ofNat w ((bs.take n).foldl (fun a b => a * 256 + b.toNat) 0) :: wordsOf n k (bs.drop n)

/-- The blocks of a padded message, taken into the value one by one; n is the bytes of a word. -/
def blocks (r : Rotations) (ks : List (BitVec w)) (n : Nat) : Nat → Bytes → List (BitVec w) → List (BitVec w)
  | 0, _, h => h
  | k + 1, bs, h =>
    let x := rounds r ks (wordsOf n 16 (bs.take (16 * n))) (regsOf h)
    blocks r ks n k (bs.drop (16 * n)) ((h.zip x.words).map (fun p => p.1 + p.2))

/-- A number as n bytes, most significant first. -/
def bytesOf (n x : Nat) : Bytes := (List.range n).map (fun i => BitVec.ofNat 8 (x / 256 ^ (n - 1 - i)))

/-- A message with a one bit, zeros and its length in bits, a whole number of blocks of 16 words. -/
def padded (n : Nat) (bs : Bytes) : Bytes :=
  let used := bs.length + 1 + 2 * n
  bs ++ [0x80] ++ List.replicate ((16 * n - used % (16 * n)) % (16 * n)) 0 ++ bytesOf (2 * n) (8 * bs.length)

/-- The digest's words. -/
def digest (r : Rotations) (ks h : List (BitVec w)) (n : Nat) (bs : Bytes) : List (BitVec w) :=
  let p := padded n bs
  blocks r ks n (p.length / (16 * n)) p h

/-- SHA-256: 32 bytes, in digest order. -/
def sha256 (bs : Bytes) : Bytes := (digest rot256 k256 h256 4 bs).flatMap (fun x => bytesOf 4 x.toNat)

/-- SHA-384: 48 bytes, in digest order. -/
def sha384 (bs : Bytes) : Bytes := (digest rot512 k512 h384 8 bs).flatMap (fun x => bytesOf 8 x.toNat) |>.take 48

end Sys2Proof.Sha
end

