-- ==== Sys2Proof/Machine/KernelCmds.lean ====
section
/-!
DEFINITION. The kernel, turn and space commands (R550, 0x04xx): launches (R506, R512, R547, R635), program images (R548, R549),
KERNEL_ABORT, TURN_HALT and TURN_RESUME, space records (R204 to R206, R270), placement swaps (R211).
-/

namespace Sys2Proof.Machine

/-! ### Launches (R509, R512, R547, R635) -/

/-- KERNEL_LAUNCH: the launch joins its seat's queue and completes with its kernel; one of a turn that is being discarded
completes at once; an IDLE seat whose halt latch is set is HALTED. -/
def State.kernelLaunch (s : State) (id n : Nat) (x : Seat) (arg : Nat) : Answer :=
  let l : Launch := { cmd := id, kernel := arg % 65536, layerEnd := bit arg 16, turnEnd := bit arg 17 }
  match x.program with
  | none => s.deny .seatState
  | some p =>
    if p.kernels.length ≤ l.kernel then s.deny .configInvalid
    else if p.level ≠ x.level then s.deny .levelMismatch
    else if x.turnAborted && !x.turnEnded then
      { s := s.setSeat n { x with turnEnded := l.turnEnd }
        status := some .turnAborted
        result := launchResult x.turn.toNat 0 false
        resp := [] }
    else
      let s := s.setSeat n { x with launches := x.launches ++ [l] }
      let s := if x.state = .idle && x.haltLatch then s.haltSeat n 1 else s
      .runs (s.seatSettle n).dispatch

def execKernelLaunch (id : Nat) (s : State) : Out :=
  .next (s.runSeat id 0x0401 (fun s n x b => s.kernelLaunch id n x (chArg b)))

/-! ### Program images (R548, R549) -/

/-- A binding entry of 8 bytes. -/
def bindingOf (b : Bytes) : Binding :=
  { ltile := fld b 0 2, ctx := byteAt b 2 % 8, inCluster := bit (byteAt b 2) 3, offset := fld b 4 4 }

/-- The entry is as R548 gives it, for a program of a number of tiles. -/
def bindingOk (ltiles : Nat) (b : Bytes) : Bool :=
  let q := bindingOf b
  byteAt b 2 < 16 && byteAt b 3 == 0 && q.ltile < ltiles && q.offset % 64 == 0
    && q.offset < (if q.inCluster then 0x800000 else 0x180000)

/-- Entries of n bytes. -/
def entries (n count : Nat) (b : Bytes) : List Bytes := (List.range count).map (fun i => (b.drop (n * i)).take n)

/-- Every entry of the tables is as R548 gives it, and no kernel binds a context twice (R549). -/
def tablesOk (ltiles bindings : Nat) (ks bs : List Bytes) : Bool :=
  bs.all (bindingOk ltiles) && ks.all (fun k =>
    let first := fld k 0 4
    let n := fld k 4 4
    let mine := (bs.drop first).take n
    zeros k 8 16 && 1 ≤ n && n ≤ 8 * ltiles && first + n ≤ bindings
      && decide (mine.map (fun b => (fld b 0 2, byteAt b 2 % 8))).Nodup)

/-- PROGRAM_LOAD: reads the header and the tables and keeps the program (R3, R509, R548, R549). DESIGN CHOICE (log 46): of
an image with too many logical tiles that breaks a check of CONFIG_INVALID too, FORMAT, the reserved bytes and the multiple
of 8 are checked before TILES_UNAVAILABLE, the others after it; the spec gives no order. -/
def State.programLoad (s : State) (n : Nat) (x : Seat) (arg : Nat) : Answer :=
  match s.quotaAddr x arg 64 with
  | none => s.deny .addrInvalid
  | some a =>
    let h := s.bytes a 64
    let ltiles := fld h 6 2
    let nk := fld h 8 4
    let nb := fld h 12 4
    let len := fld h 16 8
    let size := 64 + 16 * nk + 8 * nb
    match s.rangePoison a 64 with
    | some c => s.deny (poisonStatus c)
    | none =>
      if fld h 0 4 ≠ 1 || !zeros h 24 64 || ltiles = 0 || ltiles % 8 ≠ 0 then s.deny .configInvalid
      else if x.ltiles < ltiles then s.deny .tilesUnavailable
      else if nk = 0 || 65536 < nk || 2 ^ 30 < len || len < size then s.deny .configInvalid
      else
        match s.quotaAddr x arg len, s.rangePoison a size with
        | none, _ => s.deny .addrInvalid
        | some _, some c => s.deny (poisonStatus c)
        | some _, none =>
          let ks := entries 16 nk (s.bytes (a + 64) (16 * nk))
          let bs := entries 8 nb (s.bytes (a + 64 + 16 * nk) (8 * nb))
          if !tablesOk ltiles nb ks bs then s.deny .configInvalid
          else
            let p : Program := { level := fld h 4 2, ltiles := ltiles, kernels := ks.map (fun k => (fld k 0 4, fld k 4 4)),
                                 bindings := bs.map bindingOf, hash := Sha.sha256 (s.bytes a len) }
            .ok ((s.hbmMoved n a size false).onSeat n (fun y => { y with program := some p }))

def execProgramLoad (id : Nat) (s : State) : Out :=
  .next (s.runSeat id 0x0402 (fun s n x b => s.programLoad n x (chArg b)))

/-! ### Stopping, halting, resuming (R550, R635) -/

/-- KERNEL_ABORT. -/
def execKernelAbort (id : Nat) (s : State) : Out := .next (s.runSeat id 0x0403 (fun s n _ _ => .ok (s.abortTurn n).dispatch))

/-- TURN_HALT: at the next turn boundary, or at once while no turn is in progress (R505). -/
def State.turnHalt (s : State) (n : Nat) (x : Seat) : State :=
  if x.state = .halted then s
  else if x.turnBegun then s.setSeat n { x with haltAsked := true }
  else (s.haltSeat n 2).onSeat n (fun y => { y with haltLatch := x.haltLatch })

def execTurnHalt (id : Nat) (s : State) : Out := .next (s.runSeat id 0x0404 (fun s n x _ => .ok (s.turnHalt n x)))

/-- A HALTED seat goes back to RUNNING, or to IDLE where no launch is queued (R506). -/
def State.resumeSeat (s : State) (n : Nat) : State :=
  let s := s.onSeat n (fun x =>
    { x with state := if x.launches.isEmpty && x.running.isNone then .idle else .running, haltCause := 0 })
  s.dispatch

/-- TURN_RESUME: not while HALT_N is asserted, a held tile is unbacked or a stack of the quota is withdrawn (R568, R635). -/
def execTurnResume (id : Nat) (s : State) : Out :=
  .next (s.runSeat id 0x0405 (fun s n x _ =>
    if !s.pins.haltN || x.haltCause = 4 || s.onWithdrawn x || s.holdsUnbacked x then s.deny .seatState else .ok (s.resumeSeat n)))

/-! ### Space records (R204 to R206, R270) -/

/-- The header's reserved fields are 0 and its fields lie in their ranges. -/
def spaceHeaderOk (r : Bytes) : Bool :=
  let p := spPolicy r
  1 ≤ spE r && spE r ≤ 8192 && p < 3 && byteAt r 4 < 8 && zeros r 12 16
    && (if p = 1 then 1 ≤ spProbe r && spProbe r ≤ 3 && spProbe r + 1 ≤ spE r else spProbe r == 0)
    && 1 ≤ spStages r && spStages r ≤ 4 && spShared r ≤ 15 && 10 ≤ spHorizon r && spHorizon r ≤ 10000000
    && spBankA r % 64 == 0 && spBankB r % 64 == 0 && 1 ≤ spTpc r && spRxOff r + spRxRows r * spXLd r ≤ 8388608

/-- A stage record's reserved fields are 0, and its output area lies in the cluster store. -/
def stageOk (r st : Bytes) : Bool :=
  byteAt st 8 < 2 && zeros st 9 12 && zeros st 30 32 && stYOff st + spRxRows r * stYLd st ≤ 8388608

/-- A descriptor address in the package's HBM, for a bank of e entries (R204). -/
def State.bankPlaced (s : State) (a e : Nat) : Bool := s.ownNode (a / 2 ^ 48) && a % 2 ^ 48 + 8 * e ≤ hbmEnd

/-- The checks of R206 and R270. -/
def State.spaceOk (s : State) (x : Seat) (r : Bytes) : Bool :=
  let space := fld r 0 2
  spaceHeaderOk r && s.bankPlaced (spBankA r) (spE r) && s.bankPlaced (spBankB r) (spE r)
    && (List.range (spStages r)).all (fun i => stageOk r (spStage r i))
    && x.spaces.all (fun (ks : Nat × SpaceRec) => ks.1 == space || ks.1 % 2048 != space % 2048)
    && spYsp r (spStages r) ≤ spSpillStride r
    && (spSpillStride r == 0 || (List.range (clustersOf x.record).length).all (fun c =>
      (s.quotaAddr x (spSpillBase r + c * spSpillStride r) (spSpillStride r)).isSome))

/-- A ROUTE of the seat for a space is in flight (R206). -/
def State.spaceRouting (s : State) (n space : Nat) : Bool :=
  s.druind.runs.any (fun (kr : Nat × RouteRun) => kr.2.seat == n && fld kr.2.record 0 2 == space && kr.2.status.isNone)
    || s.druind.asks.any (fun a =>
      let c := s.ctx a.tile a.ctx
      c.seat == n && (match c.cur with | some e => roSpace e.desc == space | none => false))

/-- SPACE_SET: bank A is active (R206, R211). -/
def State.spaceSet (s : State) (n : Nat) (x : Seat) (r : Bytes) : Answer :=
  if r.length ≠ 64 + 32 * spStages r then s.deny .cmdInvalid
  else if !s.spaceOk x r then s.deny .configInvalid
  else if s.spaceRouting n (fld r 0 2) then s.deny .spaceBusy
  else
    let rec_ : SpaceRec := { record := r, bankB := false }
    .ok (s.setSeat n { x with spaces := FMap.insert x.spaces (fld r 0 2) rec_ })

def execSpaceSet (id : Nat) (s : State) : Out :=
  .next (s.runSeat id 0x0406 (fun s n x b => s.spaceSet n x (chPayload b)))

/-! ### Placement swaps (R211) -/

/-- PLACEMENT_SWAP: refused for a begun turn or an unknown space; at once for the turn that comes; else it waits. -/
def State.placementSwap (s : State) (id n : Nat) (x : Seat) (p : Bytes) : Answer :=
  let t := fld p 0 8
  let k := byteAt p 8
  let items := entries 8 k (p.drop 16)
  let w : Swap := { cmd := id, turn := t, spaces := items.map (fun e => (fld e 0 2, fld e 4 4)) }
  if k = 0 || 8 < k || p.length ≠ 16 + 8 * k || !zeros p 9 16 || !items.all (fun e => zeros e 2 4) then s.deny .cmdInvalid
  else if t < x.turn.toNat || (t = x.turn.toNat && x.turnBegun) then s.deny .swapRejected
  else if !w.spaces.all (fun sd => (FMap.find? x.spaces sd.1).isSome) then s.deny .spaceUnknown
  else if t = x.turn.toNat then .runs (s.swapNow n w)
  else .runs (s.setSeat n { x with swaps := x.swaps ++ [w] })

def execPlacementSwap (id : Nat) (s : State) : Out :=
  .next (s.runSeat id 0x0407 (fun s n x b => s.placementSwap id n x (chPayload b)))

end Sys2Proof.Machine
end

