-- ==== Sys2Proof/Machine/FabricCmds.lean ====
section
/-!
DEFINITION. The fabric and group commands and the model-store commands (R550, 0x05xx and 0x06xx): the node number (R341), route
tables (R342, R345), ports (R330 to R334), hub parameters, groups (R406 to R408, R493), namespaces (R289 to R292), the rebuild
and the health of the flash tier (R311 to R318).
-/

namespace Sys2Proof.Machine

/-! ### Fabric (R330 to R345) -/

/-- FAB_NODE: only while every port is DISABLED (R341); 0xFFFF names no node. -/
def State.fabNode (s : State) (node : Nat) : Answer :=
  if !(List.range 24).all (fun p => (s.port p).state == .disabled) then s.deny .moduleState
  else if node = 0xFFFF then s.deny .configInvalid
  else .ok { s with fab := { s.fab with node := node } }

def execFabNode (id : Nat) (s : State) : Out := .next (s.runCmd id 0x0501 (fun s _ b => s.fabNode (chArg b)))

/-- A route is as R342 gives it. -/
def routeOk (r : Nat) : Bool := r / 128 == 0 && (!bit r 5 || r % 32 < 24)

/-- Entry e of a table of a holder is written whole; lookups of this hc still see what it held before (R342, R345). -/
def State.setRoute (s : State) (holder : Nat) (member : Bool) (e : Nat) (v : W64) : State :=
  let o : RouteOld := { holder := holder, member := member, entry := e, hc := s.hcNow, old := s.lookup holder member e }
  let others := s.fab.routesOld.filter (fun x => x.hc == s.hcNow
    && !(x.holder == holder && x.member == member && x.entry == e))
  let s := { s with fab := { s.fab with routesOld := others ++ [o] } }
  if holder < 24 then
    let x := s.port holder
    s.setPort holder (if member then { x with memberTable := FMap.put 0 x.memberTable e v }
      else { x with groupTable := FMap.put 0 x.groupTable e v })
  else
    let k := 256 * (holder - 24) + e
    { s with fab := if member then { s.fab with niMember := FMap.put 0 s.fab.niMember k v }
      else { s.fab with niGroup := FMap.put 0 s.fab.niGroup k v } }

/-- FAB_ROUTES: entries written in ascending order. -/
def State.fabRoutes (s : State) (arg : Nat) (p : Bytes) : Answer :=
  let holder := arg % 32
  let first := arg / 2 ^ 16 % 256
  let n := p.length / 8
  let routes := (List.range (4 * n)).map (fun i => fld p (2 * i) 2)
  if 25 < holder || 256 < first + n then s.deny .configInvalid
  else if routes.any (fun r => r / 128 != 0) then s.deny .cmdInvalid
  else if !routes.all routeOk then s.deny .configInvalid
  else
    let s := (List.range n).foldl (fun (s : State) i =>
      s.setRoute holder (bit arg 8) (first + i) (BitVec.ofNat 64 (fld p (8 * i) 8))) s
    let w := s.fab.routesWritten
    .ok { s with fab := { s.fab with routesWritten := if w.contains holder then w else w ++ [holder] } }

def execFabRoutes (id : Nat) (s : State) : Out :=
  .next (s.runCmd id 0x0502 (fun s _ b => s.fabRoutes (chArg b) (chPayload b)))

/-- A port trains, for its soak where it comes out of quarantine (R330, R334). -/
def State.trainPort (s : State) (p : Nat) (soak : Bool) : State :=
  s.setPort p { (s.port p).fresh with state := .training, soaking := soak, trainingSince := s.time }

/-- FAB_PORT: 0 disable, 1 enable, 2 release from quarantine, 3 set the transmit polarity. -/
def State.fabPort (s : State) (arg : Nat) : Answer :=
  let p := arg % 32
  let x := s.port p
  let quarantined := x.state = .quarantined
  if 23 < p then s.deny .configInvalid
  else
    match arg / 2 ^ 8 % 8 with
    | 0 => .ok (if x.state = .disabled then s else s.linkDown p .disabled)
    | 1 =>
      if x.state = .disabled then
        (if s.holdsRoutes && !s.mod.failedPackage then .ok (s.trainPort p false) else s.deny .moduleState)
      else .ok (if quarantined then s.trainPort p true else s)
    | 2 => .ok (if quarantined then s.trainPort p true else s)
    | 3 => .ok (s.setPort p { x with polarity := arg / 2 ^ 12 % 16 })
    | _ => s.deny .configInvalid

def execFabPort (id : Nat) (s : State) : Out := .next (s.runCmd id 0x0503 (fun s _ b => s.fabPort (chArg b)))

/-- FAB_PARAMS (R344, R349, R376, R377, R439). -/
def State.fabParams (s : State) (p : Bytes) : Answer :=
  let h : HubParams := { w1 := byteAt p 1, w2 := byteAt p 2, w3 := byteAt p 3, divert := fld p 4 2, gap := fld p 8 4,
                         tc2Limit := fld p 12 4, resend := fld p 16 4 }
  let within (lo x hi : Nat) : Bool := lo ≤ x && x ≤ hi
  if !zeros p 6 8 || !zeros p 20 24 then s.deny .cmdInvalid
  else if byteAt p 0 < 2 && within 1 h.w1 15 && within 1 h.w2 15 && within 1 h.w3 15 && within 8 h.divert 1024
      && within 10 h.gap 50000 && within 100 h.tc2Limit 100000 && within 20 h.resend 20000 then
    .ok { s with fab := { s.fab with params := FMap.put {} s.fab.params (byteAt p 0) h } }
  else s.deny .configInvalid

def execFabParams (id : Nat) (s : State) : Out := .next (s.runCmd id 0x0504 (fun s _ b => s.fabParams (chPayload b)))

/-- The states of R330 in the order of their table. -/
def portCode : PortState → Nat
  | .disabled => 0 | .training => 1 | .handshake => 2 | .up => 3 | .quarantined => 4

/-- The 16 bytes of a port in FAB_STATUS; ones where no partner has spoken. -/
def State.portStatus (s : State) (p : Nat) : Bytes :=
  let x := s.port p
  let flaps := (x.flaps.filter (fun t => s.time ≤ t + 10 * secondUnits)).length
  let q := x.partner.getD (0xFFFF, 0xFF, 0xFF)
  natLe 1 (portCode x.state) ++ natLe 1 flaps ++ natLe 2 q.1 ++ natLe 1 q.2.1 ++ natLe 1 q.2.2 ++ List.replicate 2 (0 : Byte) ++
    natLe 8 (s.counter 0x8007 none p).toNat

/-- FAB_STATUS. -/
def execFabStatus (id : Nat) (s : State) : Out :=
  .next (s.runCmd id 0x0505 (fun s _ _ => .data s ((List.range 24).flatMap s.portStatus)))

/-! ### Groups (R406 to R408, R493) -/

/-- Fields of a group record in their ranges (R407). -/
def groupFieldsOk (r : Bytes) : Bool :=
  let within (lo x hi : Nat) : Bool := lo ≤ x && x ≤ hi
  fld r 0 2 < 1024 && within 1 (grMembers r) 65534 && grRank r < grMembers r && within 2 (grFanout r) 8 && byteAt r 7 < 16
    && within 1 (grSlack r) 100000 && within 100 (grStall r) 10000000 && grRxBase r % 4096 == 0 && grRecords r % 64 == 0
    && zeros r 48 64

/-- Bytes of a result record (R431). -/
def recordSize (m : Nat) : Nat := roundUp (64 + (m + 7) / 8) 64

/-- A call of a group is in progress or waits. -/
def Group.busy (g : Group) : Bool := g.call.isSome || !g.waiting.isEmpty

/-- GROUP_SET: returns the membership digest (R408). -/
def State.groupSet (s : State) (n : Nat) (x : Seat) (r : Bytes) : Answer :=
  let m := grMembers r
  let k := fld r 0 2
  let old := FMap.find? s.ni.groups k
  let other : Bool := match old with | some g => g.seat != n | none => false
  let mine := (s.ni.groups.filter (fun (kg : Nat × Group) => kg.1 != k && kg.2.seat == n)).length
  if !groupFieldsOk r || other then s.deny .configInvalid
  else
    match s.quotaAddr x (grNodes r) (2 * m), s.quotaAddr x (grRxBase r) (grRxLen r),
        s.descAddr x (grRecords r) (64 * recordSize m) with
    | some a, some _, some _ =>
      let list := s.bytes a (2 * m)
      let nodes := (List.range m).map (fun i => fld list (2 * i) 2)
      match s.rangePoison a (2 * m) with
      | some c => s.deny (poisonStatus c)
      | none =>
        if nodes[grRank r]? ≠ some s.fab.node || nodes.contains 0xFFFF || !decide nodes.Nodup then s.deny .configInvalid
        else if recGroups x.record ≤ mine then s.deny .quotaExceeded
        else if (match old with | some g => g.busy | none => false) then s.deny .seatState
        else
          let g : Group := { seat := n, record := r, nodes := nodes, lastSeq := 0xFFFFFFFF, call := none, waiting := [], gather := [] }
          let s := s.hbmMoved n a (2 * m) false
          { s := { s with ni := { s.ni with groups := FMap.insert s.ni.groups k g } }
            status := some .success
            result := natLe 4 (crc32c list)
            resp := [] }
    | _, _, _ => s.deny .configInvalid

def execGroupSet (id : Nat) (s : State) : Out := .next (s.runSeat id 0x0506 (fun s n x b => s.groupSet n x (chPayload b)))

/-- A group of the seat without a call in progress, changed. -/
def State.onIdleGroup (s : State) (n k : Nat) (f : State → Group → State) : Answer :=
  match FMap.find? s.ni.groups k with
  | none => s.deny .configInvalid
  | some g => if g.seat ≠ n then s.deny .configInvalid else if g.busy then s.deny .seatState else .ok (f s g)

/-- GROUP_SEQ (R493). -/
def execGroupSeq (id : Nat) (s : State) : Out :=
  .next (s.runSeat id 0x0507 (fun s n _ b =>
    let k := chArg b % 1024
    s.onIdleGroup n k (fun s g =>
      { s with ni := { s.ni with groups := FMap.insert s.ni.groups k { g with lastSeq := chArg b / 2 ^ 32 } } })))

/-- GROUP_DELETE. -/
def execGroupDelete (id : Nat) (s : State) : Out :=
  .next (s.runSeat id 0x0508 (fun s n _ b =>
    let k := chArg b % 1024
    s.onIdleGroup n k (fun s _ => { s with ni := { s.ni with groups := FMap.erase s.ni.groups k } })))

/-! ### The model store (R289 to R292, R318) -/

/-- A model-store command is refused while the tier is unavailable (R318). -/
def State.whenFlash (s : State) (f : Answer) : Answer := if s.flash.available then f else s.deny .flashUnavailable

/-- NS_CREATE: from 1 extent to the extents free, within the port's allotment (R289, R499). -/
def State.nsCreate (s : State) (port extents : Nat) : Answer :=
  let n := (List.range 65536).find? (fun i => (FMap.find? s.flash.live.nss i).isNone)
  if extents = 0 then s.deny .configInvalid
  else if s.extentsFree < extents then s.deny .flashFull
  else if (s.allot port).extents < s.extentsOf port + extents then s.deny .quotaExceeded
  else
    match n with
    | none => s.deny .flashFull
    | some n =>
      { s := s.journal (.ns n (some { port := port, extents := extents }))
        status := some .success
        result := natLe 2 n
        resp := [] }

def execNsCreate (id : Nat) (s : State) : Out :=
  .next (s.runCmd id 0x0601 (fun s c b => s.whenFlash (s.nsCreate (c.port?.getD 0) (chArg b))))

/-- A namespace of a port. -/
def State.portNs (s : State) (port n : Nat) (f : Namespace → Answer) : Answer :=
  match FMap.find? s.flash.live.nss n with
  | none => s.deny .namespaceAbsent
  | some v => if v.port = port then f v else s.deny .permissionDenied

/-- NS_DELETE: not while attached (R292, R550). -/
def execNsDelete (id : Nat) (s : State) : Out :=
  .next (s.runCmd id 0x0602 (fun s c b =>
    s.whenFlash (s.portNs (c.port?.getD 0) (chArg b) (fun _ =>
      if (s.nsSeats (chArg b)).isEmpty then .ok (s.nsDelete (chArg b)) else s.deny .namespaceBusy))))

/-- NS_ATTACH: read-write to one seat alone, or read-only to any number of seats of the port (R290). -/
def State.nsAttach (s : State) (n : Nat) (x : Seat) (ns : Nat) (rw : Bool) : Answer :=
  s.portNs (n / 16) ns (fun _ =>
    let others := s.nsSeats ns
    if x.ns.isSome || (rw && !others.isEmpty) || others.any (·.2) then s.deny .namespaceBusy
    else .ok (s.setSeat n { x with ns := some (ns, rw) }))

def execNsAttach (id : Nat) (s : State) : Out :=
  .next (s.runSeat id 0x0603 (fun s n x b => s.whenFlash (s.nsAttach n x (chArg b % 65536) (bit (chArg b) 16))))

/-- NS_DETACH: not while a fill of the seat is outstanding. -/
def execNsDetach (id : Nat) (s : State) : Out :=
  .next (s.runSeat id 0x0604 (fun s n x _ => s.whenFlash (
    if x.ns.isNone then s.deny .namespaceAbsent
    else if s.fillsOpen n then s.deny .namespaceBusy
    else .ok (s.setSeat n { x with ns := none }))))

/-- A range of the namespace that the seat has attached read-write, in units of 4,096 bytes (R292). -/
def State.nsRange (s : State) (x : Seat) (off len : Nat) (f : Nat → Answer) : Answer :=
  match x.ns with
  | none => s.deny .namespaceAbsent
  | some (ns, rw) =>
    if !rw then s.deny .permissionDenied
    else if s.flashReadOnly then s.deny .flashReadOnly
    else if off % 4096 ≠ 0 || len % 4096 ≠ 0 then s.deny .configInvalid
    else if s.nsBytes ns < off + len then s.deny .addrInvalid
    else f ns

/-- NS_WRITE: units from the seat's HBM, durable when the command completes (R292, R524). -/
def State.nsWrite (s : State) (n : Nat) (x : Seat) (p : Bytes) : Answer :=
  let off := fld p 0 8
  let src := fld p 8 8
  let len := fld p 16 8
  s.nsRange x off len (fun ns =>
    if src % 4096 ≠ 0 then s.deny .configInvalid
    else
      match s.quotaAddr x src len with
      | none => s.deny .addrInvalid
      | some a =>
        match s.rangePoison a len with
        | some c => s.deny (poisonStatus c)
        | none =>
          if len = 0 then .ok s
          else
            let units := (List.range (len / 4096)).map (fun i => some (s.bytes (a + 4096 * i) 4096))
            let s := (s.hbmMoved n a len false).writeUnits ns (off / 4096) units
            .ok ((s.nsWritten len).charge n acctFlashWr len))

def execNsWrite (id : Nat) (s : State) : Out :=
  .next (s.runSeat id 0x0605 (fun s n x b => s.whenFlash (s.nsWrite n x (chPayload b))))

/-- NS_TRIM: the range reads as zeros (R291). -/
def State.nsTrim (s : State) (x : Seat) (p : Bytes) : Answer :=
  let off := fld p 0 8
  let len := fld p 8 8
  s.nsRange x off len (fun ns =>
    .ok (if len = 0 then s else s.writeUnits ns (off / 4096) (List.replicate (len / 4096) none)))

def execNsTrim (id : Nat) (s : State) : Out :=
  .next (s.runSeat id 0x0606 (fun s _ x b => s.whenFlash (s.nsTrim x (chPayload b))))

/-- The 16 bytes of a namespace in NS_LIST. -/
def State.nsEntry (s : State) (n : Nat) (v : Namespace) : Bytes :=
  natLe 2 n ++ natLe 1 v.port ++ [0] ++ natLe 4 v.extents ++ natLe 8 ((s.nsSeats n).foldl (fun a ks => a + 2 ^ ks.1) 0)

/-- NS_LIST: a physical function's own port's namespaces, every one by a management transport (R537). -/
def execNsList (id : Nat) (s : State) : Out :=
  .next (s.runCmd id 0x0607 (fun s c _ => s.whenFlash (
    let mine : FMap Namespace := s.flash.live.nss.filter (fun (kn : Nat × Namespace) =>
      match c.port? with | some p => kn.2.port == p | none => true)
    .data s (mine.flatMap (fun (kn : Nat × Namespace) => s.nsEntry kn.1 kn.2)))))

/-- FLASH_REBUILD (R318). -/
def execFlashRebuild (id : Nat) (s : State) : Out := .next (s.runCmd id 0x0608 (fun s _ _ => .ok s.flashRebuild))

/-- FLASH_HEALTH. -/
def State.flashHealth (s : State) : Bytes :=
  padTo 64 (natLe 4 (s.counter 0x7008 none 0).toNat ++ natLe 4 s.flash.live.bad.length ++ natLe 8 s.quarantined ++
    (List.range 16).map (fun ch => BitVec.ofNat 8 (s.reservePct ch)) ++
    natLe 2 (s.flash.fallback.foldl (fun a ch => a ||| 2 ^ ch) 0))

def execFlashHealth (id : Nat) (s : State) : Out := .next (s.runCmd id 0x0609 (fun s _ _ => .data s s.flashHealth))

end Sys2Proof.Machine
end

