-- ==== Sys2Proof/Machine/Reset.lean ====
section
/-!
DEFINITION. Module states and starts (18, 16, 19): what a reset leaves (R608, R611, R634), the pins and supply that cause it
(R641, R656), the boot ROM (R578, R579, R638), the steps of a start (R607, R481, R482), READY (R609), a package failure (R568).
-/

namespace Sys2Proof.Machine

/-! ### Module states and their notification (R606, R618) -/

def modCode : ModState → Nat
  | .reset => 0 | .boot => 1 | .init => 2 | .ready => 3 | .failsafe => 4 | .hold => 5

/-- The module enters a state; the bus owner is told of every state but RESET (R618). -/
def State.modState (s : State) (st : ModState) : State :=
  let s := { s with mod := { s.mod with state := st } }
  if st = .reset then s
  else s.notify 4 ([BitVec.ofNat 8 (modCode st)] ++ List.replicate 3 (0 : Byte) ++ natLe 4 (s.log.nextSeq - 1).toNat)

/-! ### What a reset leaves (R608, R611) -/

/-- The fence counts of the tiles, and the fences of those that are retired (R570). -/
def State.fenceCounts (s : State) : FMap PTile :=
  s.units.ptiles.foldl (fun (m : FMap PTile) (kp : Nat × PTile) =>
    let x := kp.2
    FMap.put {} m kp.1 (if x.retired then { x with testing := false, passed := false } else { ({} : PTile) with fences := x.fences })) []

/-- A port keeps its route tables, which the configuration store holds (R582). -/
def State.portTables (s : State) : FMap Port :=
  s.fab.ports.foldl (fun (m : FMap Port) (kp : Nat × Port) =>
    FMap.put {} m kp.1 { groupTable := kp.2.groupTable, memberTable := kp.2.memberTable }) []

/-- The flash tier as R317 leaves it: what the NAND and the power-loss store hold, the map not loaded, no work in progress. -/
def FlashSide.atReset (f : FlashSide) : FlashSide :=
  { nand := f.nand, banks := f.banks, current := f.current, journal := f.journal, jseq := f.jseq, wseq := f.wseq,
    failedChannels := f.failedChannels, failedPackages := f.failedPackages, written := f.written }

/-- The module enters RESET, or HOLD: only the firmware slots, the configuration store, the persistent log, the flash tier
and the fence counts survive (R608); the log's SEQ goes on (R559). Pins, supply, JTAG and host memory are the board's. -/
def State.atReset (s : State) (st : ModState) : State :=
  { time := s.time
    free := s.free
    pending := s.pending
    ident := s.ident
    mod := { state := st, powered := s.mod.powered, t0 := s.mod.t0, admitted := s.mod.admitted, jtagHold := s.mod.jtagHold,
             hold := s.mod.hold }
    pins := { s.pins with faultN := true, thermN := true, txIdle := true, i2cIdle := true, sclHeld := false, sdaHeld := false }
    jtag := s.jtag
    units := { ptiles := s.fenceCounts }
    host := { allots := s.host.allots, hostMem := s.host.hostMem, msixSent := s.host.msixSent, pcieOut := s.host.pcieOut,
              nextCmd := s.host.nextCmd }
    mgmt := { aclRequesters := s.mgmt.aclRequesters, aclMatch := s.mgmt.aclMatch, aclMask := s.mgmt.aclMask,
              mctpOut := s.mgmt.mctpOut }
    log := { nextSeq := s.log.nextSeq, persistent := s.log.persistent }
    fw := s.fw
    fab := { node := s.fab.node, ports := s.portTables, niGroup := s.fab.niGroup, niMember := s.fab.niMember,
             routesWritten := s.fab.routesWritten, sent := s.fab.sent }
    flash := s.flash.atReset }

/-- RESET by a pin, the supply or JTAG; HOLD is left by none of these but the supply. -/
def State.toReset (s : State) : State := if s.mod.state = .hold then s else s.atReset .reset

/-- MODULE_RESET: RST_N or PWR_OK goes low (R611, R634). -/
def execModuleReset (rstN pwrOk : Bool) (s : State) : Out :=
  .next (if rstN && pwrOk then s
    else { s with pins := { s.pins with rstN := rstN, pwrOk := pwrOk } }.toReset)

/-- INPUT_UNDERVOLTAGE: below 38 V for more than 50 µs RESET, held as by a low RST_N; below 36 V unpowered, a HOLD is over,
and the test access ports, whose rail is gone, start anew (R575, R641, R654). -/
def execInputUndervoltage (millivolts : Nat) (s : State) : Out :=
  .next (if millivolts < 36000 then
      let s := s.atReset .reset
      { s with mod := { s.mod with powered := false, hold := none, jtagHold := false }, jtag := {} }
    else if millivolts < 38000 then
      let s := s.toReset
      { s with mod := { s.mod with powered := false } }
    else s)

/-! ### t0 and BOOT (R578, R579, R607, R634, R638, R656) -/

/-- A module in HOLD may leave it: the monitors concerned have been within their warning bounds for 10 s (R575). -/
def State.holdOver (s : State) : Bool :=
  match s.mod.hold with
  | some h => (match h.okSince with | some t => t + 10 * secondUnits ≤ s.time | none => false)
  | none => true

/-- t0: RST_N and PWR_OK are both high and the chain is out of EXTEST, CLAMP and HIGHZ: BOOT (R607, R634, R656). -/
def State.leaveReset (s : State) : State :=
  let waits := s.mod.state = .reset || s.mod.state = .hold
  if waits && s.mod.powered && !s.mod.jtagHold && s.pins.rstN && s.pins.pwrOk && s.holdOver then
    let s := if s.mod.state = .hold then s.atReset .reset else s
    let s := { s with mod := { s.mod with t0 := s.time, hold := none } }
    s.modState .boot
  else s

/-- INPUT_POWER_RISE: above 39 V the module is no longer held: an unpowered one is in RESET, and RST_N and PWR_OK that
are both high make a new t0 (R634, R641). -/
def execInputPowerRise (s : State) : Out :=
  .next (let s := { s with mod := { s.mod with powered := true } }
    if s.mod.state = .reset then s.leaveReset else s)

/-- RESET_RELEASE: RST_N and PWR_OK are both high after one was low (R607). -/
def execResetRelease (s : State) : Out :=
  .next (if s.pins.rstN && s.pins.pwrOk then s else { s with pins := { s.pins with rstN := true, pwrOk := true } }.leaveReset)

/-- The number of a die in the chain. -/
def tapNumber : TapDie → Nat
  | .hd0 => 0 | .fd0 => 1 | .fd1 => 2 | .fd2 => 3 | .fd3 => 4 | .hd1 => 5

/-- IDCODE of a test access port (R654). -/
def State.idcode (s : State) (d : TapDie) : W32 :=
  BitVec.ofNat 32 ((if s.ident.b1 then 2 ^ 28 else 0) + (Config.diePart (tapNumber d)).toNat * 2 ^ 12 + Config.jepCode.toNat * 2 + 1)

/-- The ports of the chain leave Test-Logic-Reset: TRST_N is high, and an instruction has been shifted in (R654, R656). -/
def State.tapsRun (s : State) : State :=
  { s with jtag := { s.jtag with trstN := true, chain := s.jtag.chain.map (fun p => { p with logicReset := false }) } }

/-- JTAG_RESET_HOLD: EXTEST, CLAMP or HIGHZ is in force in a port of the chain, and the module is in RESET (R656). -/
def execJtagResetHold (s : State) : Out := .next { s.tapsRun with mod := { s.mod with jtagHold := true } }.toReset

/-- JTAG_RESET_RELEASE: a new t0 where RST_N and PWR_OK are high (R656). -/
def execJtagResetRelease (s : State) : Out :=
  .next (if s.mod.jtagHold then { s with mod := { s.mod with jtagHold := false } }.leaveReset else s)

/-- Bytes of a slot (R576). -/
def slotSize : Nat := 28 * 1048576

/-- The image's signature, hash and format hold, and its stepping is the module's (R578); slot A as it left manufacture
verifies (log 17). -/
def State.imageGenuine (s : State) (b : Bool) : Bool :=
  let m := s.slot b
  (!b && s.fw.factoryA) ||
    (imgBodyLen m ≤ slotSize - 256
      && Config.signatureValid 0 0 (Sha.sha384 (imgBytes m 0 160)) (imgBytes m 160 96)
      && Sha.sha384 (imgBytes m 256 (imgBodyLen m)) == imgBytes m 32 48
      && slotField m 0 4 == 1 && (s.ident.b1 || imgMinStep m == 0))

/-- R578 whole: the image's SVN also reaches the fused minimum. -/
def State.imageOk (s : State) (b : Bool) : Bool := s.imageGenuine b && s.fw.minSvn ≤ imgSvn (s.slot b)

/-- Why a slot is not started: 1 signature, 2 Ready not reached at three starts, 3 security version; 0 it is started
(R561, R579). -/
def State.slotFault (s : State) (b : Bool) : Nat :=
  if !s.imageGenuine b then 1
  else if imgSvn (s.slot b) < s.fw.minSvn then 3
  else if b = s.fw.selectedB && 3 ≤ s.fw.failedStarts then 2
  else 0

/-- A slot is started: the starts of a slot are counted until one reaches READY, and the starts that did are those of one
image (R578, R579). -/
def State.startSlot (s : State) (b : Bool) (failed : Nat) : State :=
  let f := s.fw
  { s with
    fw := { f with runningB := b, selectedB := b, failedStarts := failed + 1, readyStarts := if f.runningB = b then f.readyStarts else 0 }
    mod := { s.mod with verified := true } }

/-- BOOT: the straps are sampled; the selected slot starts, or the other one, or none and the module is in FAILSAFE (R579,
R638). -/
def State.boot (s : State) (addrSel : Nat) : State :=
  if s.mod.state ≠ .boot || s.mod.verified then s
  else
    let s := { s with pins := { s.pins with i2cAddr := 0x5A + (3 - addrSel % 4) } }
    let b := s.fw.selectedB
    let why := s.slotFault b
    if why = 0 then s.startSlot b s.fw.failedStarts
    else
      let s := s.logEvent 0x0702 none 0x0B 0 0 ((if b then 1 else 0) + why * 2 ^ 8)
      if s.imageOk (!b) then s.startSlot (!b) 0
      else { s with host := { s.host with configured := [true, true] } }.modState .failsafe

def execBoot (addrSel : Nat) (s : State) : Out := .next (s.boot addrSel)

/-! ### INIT (R564, R607) -/

/-- The persistent log is copied into the log, with PRIOR and new SEQ values (R564). -/
def State.copyPersistent (s : State) : State :=
  let n := s.log.persistent.length
  let old := ((List.range n).zip s.log.persistent).map (fun ir =>
    { ir.2 with prior := true, seq := s.log.nextSeq + BitVec.ofNat 32 ir.1 })
  { s with log := { s.log with records := s.log.records ++ old, nextSeq := s.log.nextSeq + BitVec.ofNat 32 n } }

/-- REFEREE_START: the Referee runs from the verified slot: INIT, FW_BOOT, the persistent log, the PCIe controllers
configured (R607, R610). -/
def State.refereeStart (s : State) : State :=
  if s.mod.state ≠ .boot || !s.mod.verified then s
  else
    let s := { s with mod := { s.mod with refereeRuns := true }, host := { s.host with configured := [true, true] } }
    let s := s.modState .init
    let s := s.logEvent 0x0701 none 0x0B 0 0 ((if s.fw.runningB then 1 else 0) + imgVersion s.fw.image * 2 ^ 32)
    s.copyPersistent.faultPin

def execRefereeStart (s : State) : Out := .next s.refereeStart

/-- HBM_TRAINING: stacks are trained and zeroed; those that fail are withdrawn (R568, R607). -/
def State.hbmTraining (s : State) (failed : List Nat) : State :=
  if s.mod.state ≠ .init || s.mod.hbmTrained then s
  else
    let s := (List.range 32).foldl (fun (s : State) st =>
      if failed.contains st then s.withdrawStack st else s.setStack st { s.stack st with trained := true }) s
    { s with mod := { s.mod with hbmTrained := true } }

def execHbmTraining (failed : List Nat) (s : State) : Out := .next (s.hbmTraining failed)

/-- The default map (R25, R26). -/
def State.defaultMap (s : State) : State :=
  let pcs := (List.range 128).filter (fun pc => !s.ident.spareCluster pc)
  let cs := (List.range pcs.length).zip pcs
  { s with units := { s.units with
      clusterMap := cs
      tileMap := cs.flatMap (fun jc => (List.range 8).map (fun p => (8 * jc.1 + p, 8 * jc.2 + p))) } }

/-- STARTUP_SELF_TEST: tiles and clusters that fail are fenced, retired tiles stay so, and the tile map is built: the default
map, then spares for what it lacks (R25 to R28, R32, R566, R607). -/
def State.startupTest (s : State) (tiles clusters : List Nat) : State :=
  if s.mod.state ≠ .init || !s.mod.hbmTrained || s.mod.mapBuilt then s
  else
    let s := s.defaultMap
    let s := clusters.foldl (fun (s : State) pc => s.fenceCluster pc .selfTest) s
    let s := tiles.foldl (fun (s : State) pt => s.fenceTile pt .selfTest) s
    let s := { s with mod := { s.mod with mapBuilt := true } }
    (s.remapUnits 64).settleDegraded

def execStartupSelfTest (failedTiles failedClusters : List Nat) (s : State) : Out := .next (s.startupTest failedTiles failedClusters)

/-! ### The Dawn alignment (R481, R482, R486) -/

/-- Steps 4 to 6, which a realignment repeats: the frames of every controller start, a stack that has cooled returns to scheduled
mode (R260), arbiters and issue stages start anew, and the package is in lockstep. -/
def State.align (s : State) : State :=
  let s := (List.range 32).foldl (fun (s : State) st =>
    let x := s.stack st
    let back := x.hot && x.cooled
    s.setStack st { x with frameStart := s.time, refreshOdd := false, slots := {}, arbPtr := 0, arrived := [], mcSlots := {},
                           demand := x.demand && !back, hot := x.hot && !back, cooled := false }) s
  let tiles := s.tiles.map (fun (kt : Nat × Tile) => (kt.1, { kt.2 with last := 7, lastTc := none, bankPtr := 0, queuePtr := 0, wants := [] }))
  { s with tiles := tiles, clusters := [], clk := { s.clk with lockstep := true, realignWanted := false } }

/-- A crossing's taking edge, where it changes, is logged (R483). -/
def State.setEdge (s : State) (first : Bool) (ce : Nat × Nat) : State :=
  let old := FMap.get 0 s.clk.crossings ce.1
  let s := { s with clk := { s.clk with crossings := FMap.put 0 s.clk.crossings ce.1 ce.2 } }
  if first || old = ce.2 then s
  else s.logEvent 0x0303 none 0x0D (ce.1 / 256) 0 (ce.1 % 256 + old % 256 * 2 ^ 8 + ce.2 % 256 * 2 ^ 16)

/-- REFCLK has been within tolerance long enough for Dawn step 1 (R644). -/
def State.refclkSteady (s : State) : Bool :=
  s.pins.refclkOk && (s.pins.refclkGoodSince = 0 || s.pins.refclkGoodSince + 10 * 1000 * usUnits ≤ s.time)

/-- DAWN_SEQUENCE: PLLs lock, the dawn beat, every crossing's schedule, every controller in scheduled mode, frames, arbiters,
lockstep (R252, R481, R482). -/
def State.dawn (s : State) (edges : List (Nat × Nat)) : State :=
  if s.mod.state ≠ .init || !s.mod.mapBuilt || s.mod.dawnDone || !s.refclkSteady then s
  else
    let s := { s with mod := { s.mod with dawnDone := true },
                      clk := { s.clk with pllLocked := true, dawnTime := s.time, lossTime := s.time, crossings := [] } }
    let s := (List.range 32).foldl (fun (s : State) st => s.setStack st { s.stack st with demand := false, hot := false }) s
    let s := edges.foldl (fun (s : State) ce => s.setEdge true ce) s
    s.align.logEvent 0x0302 none 0x0C 0 0 0

def execDawnSequence (edges : List (Nat × Nat)) (s : State) : Out := .next (s.dawn edges)

/-- REALIGNMENT: clocks have been nominal for 10 ms, or a crossing asks for it, and no seat with a kernel is within a turn: the
alignment repeats without the PLL lock, only the named crossings are calibrated anew, and lockstep returns (R33, R486, R488). Its
coming says that a PLL which lost lock has found it again (log 53). -/
def State.realign (s : State) (edges : List (Nat × Nat)) : State :=
  let held := s.seats.all (fun (ks : Nat × Seat) => ks.2.running.isNone && !(ks.2.turnBegun && !ks.2.launches.isEmpty))
  if !s.mod.dawnDone || !s.nominal || !held || (s.clk.lockstep && !s.clk.realignWanted) then s
  else
    let s := s.loseLockstep
    let took := nsOf (s.time - s.clk.lossTime)
    let named := edges.filter (fun ce => s.clk.realignCrossings.contains ce.1)
    let s := named.foldl (fun (s : State) ce => s.setEdge false ce) s
    let s := { s with clk := { s.clk with realignCrossings := [], pllLocked := true } }
    s.align.logEvent 0x0302 none 0x0C 0 0 took

def execRealignment (edges : List (Nat × Nat)) (s : State) : Out := .next (s.realign edges)

/-! ### READY (R578, R579, R609) -/

/-- A port does not hold READY up: it is DISABLED, has reached UP, or has trained for 500 ms. -/
def State.portSettled (s : State) (p : Nat) : Bool :=
  let x := s.port p
  if x.state = .disabled then s.mod.portsEnabled || !s.holdsRoutes
  else x.state = .up || 0 < x.upSince || x.trainingSince + secondUnits / 2 ≤ s.time

/-- The conditions of R609. -/
def State.readyDue (s : State) : Bool :=
  s.mod.refereeRuns && s.mod.dawnDone && s.clk.lockstep && s.mod.mapBuilt && s.mod.flashDone
    && (List.range 32).all (fun st => (s.stack st).trained || (s.stack st).withdrawn)
    && (List.range 24).all s.portSettled

/-- The starts of the running image: one that reached READY within 120 s of PWR_OK ends the count of failed ones, and the third
raises the fused minimum (R578, R579). -/
def State.countReady (s : State) : State :=
  let f := s.fw
  let n := f.readyStarts + 1
  { s with fw := { f with
      failedStarts := if s.time ≤ s.mod.t0 + 120 * secondUnits then 0 else f.failedStarts
      readyStarts := n
      minSvn := if 3 ≤ n then max f.minSvn (imgSvn f.image) else f.minSvn } }

/-- READY: READY records go out, and the event vector of every function is raised (R609). -/
def State.becomeReady (s : State) : State :=
  if s.mod.state ≠ .init || s.mod.failedPackage || !s.readyDue then s
  else
    let s := (s.modState .ready).countReady
    let s := (List.range 24).foldl (fun (s : State) p => s.sendReady p) s
    ((List.range 64).filter s.fnPresent).foldl (fun (s : State) n => s.event n evtReady) s

def execReady (s : State) : Out := .next s.becomeReady

/-! ### A package failure (R20, R568) -/

def unitLoc : PackageUnit → Nat × Nat
  | .dieLink n => (0x05, n)
  | .hub n => (0x06, n)
  | .island n => (0x0D, n)

/-- Every seat is destroyed with drain limit 0, every port is DISABLED, and only the management transports are served until
module reset. -/
def State.packageFailed (s : State) (u : PackageUnit) : State :=
  if s.mod.failedPackage || !s.mod.refereeRuns then s
  else
    let s := { s with mod := { s.mod with failedPackage := true } }
    let s := s.logEvent 0x010C none (unitLoc u).1 (unitLoc u).2 0 0
    let s := s.destroyAll
    (List.range 24).foldl (fun (s : State) p => if (s.port p).state = .disabled then s else s.linkDown p .disabled) s

def execPackageFailed (unit : PackageUnit) (s : State) : Out := .next (s.packageFailed unit)

end Sys2Proof.Machine
end

