-- ==== Sys2Proof/Machine/Monitors.lean ====
section
/-!
DEFINITION. Monitors and their thresholds (R571 to R575), crossings (R482, R483), the power controller and clock protection
(R485, R489, R490, R636, R644), and energy attribution (R526).
-/

namespace Sys2Proof.Machine

/-! ### The monitors and their defaults (R571 to R573) -/

/-- The IDs in ascending order. -/
def monitorIds : List Nat :=
  (List.range 114).map (fun i => 0x1000 + i) ++ (List.range 21).map (fun i => 0x2000 + i) ++ (List.range 200).map (fun i => 0x3000 + i)

def monitorExists (id : Nat) : Bool :=
  (0x1000 ≤ id && id < 0x1000 + 114) || (0x2000 ≤ id && id < 0x2000 + 21) || (0x3000 ≤ id && id < 0x3000 + 200)

/-- What a monitor measures: a die or hub sensor, an HBM stack, the coolant at the inlet or outlet, VIN, another rail, a ring
oscillator. -/
inductive MonKind where
  | die | hbm | inlet | outlet | vin | rail | ring
deriving DecidableEq, Repr

def monKind (id : Nat) : MonKind :=
  let i := id % 4096
  match id / 4096 with
  | 1 => if i < 80 then .die else if i < 112 then .hbm else if i = 112 then .inlet else .outlet
  | 2 => if i = 0 then .vin else .rail
  | _ => .ring

/-- Nominal millivolts of a rail. -/
def railNominal (i : Nat) : Nat :=
  if i = 0 then 48000 else if i = 1 then 12000 else if i < 6 then 750 else if i < 8 then 800 else if i < 12 then 1050
  else if i < 16 then 700 else if i < 18 then 900 else if i = 18 then 2500 else if i = 19 then 1200 else 3300

/-- Per mille of a nominal value, a low bound rounded up, a high bound rounded down. -/
def railLo (nominal permille : Nat) : Int := Int.ofNat ((nominal * permille + 999) / 1000)
def railHi (nominal permille : Nat) : Int := Int.ofNat (nominal * permille / 1000)

/-- A monitor with its default bounds (R573) and a nominal reading (log 16). -/
def monDefault (id : Nat) : Monitor :=
  let temp (w c : Int) : Monitor :=
    { reading := 200, warnLo := none, warnHi := some (8 * w), critLo := none, critHi := some (8 * c), state := 0, failed := false }
  match monKind id with
  | .die => temp 95 105
  | .hbm => temp 95 105
  | .inlet => temp 40 45
  | .outlet => temp 60 70
  | .vin => { reading := 48000, warnLo := some 42000, warnHi := some 58000, critLo := some 40000, critHi := some 59500, state := 0,
              failed := false }
  | .rail =>
    let n := railNominal (id % 4096)
    { reading := Int.ofNat n, warnLo := some (railLo n 970), warnHi := some (railHi n 1030), critLo := some (railLo n 950),
      critHi := some (railHi n 1050), state := 0, failed := false }
  | .ring => { reading := 1000, warnLo := some 960, warnHi := none, critLo := some 920, critHi := none, state := 0, failed := false }

def State.mon (s : State) (id : Nat) : Monitor := FMap.get (monDefault id) s.mons id

def State.setMon (s : State) (id : Nat) (m : Monitor) : State := { s with mons := FMap.put (monDefault id) s.mons id m }

/-- Signed readings are those of temperatures. -/
def monSigned (id : Nat) : Bool := id / 4096 == 1

/-- A 16-bit value of a monitor's field. -/
def monWord (v : Int) : Nat := (v % 65536).toNat

/-- A bound as its field holds it; no bound is 0x8000, 0x0000 or 0xFFFF. -/
def boundWord (id : Nat) (high : Bool) (b : Option Int) : Nat :=
  match b with
  | some v => monWord v
  | none => if monSigned id then 0x8000 else if high then 0xFFFF else 0

def wordBound (id : Nat) (high : Bool) (w : Nat) : Option Int :=
  if w = boundWord id high none then none
  else if monSigned id && 32768 ≤ w then some (Int.ofNat w - 65536) else some (Int.ofNat w)

/-- A 16-byte record of MONITORS (R572). -/
def monRecord (id : Nat) (m : Monitor) : Bytes :=
  natLe 2 id ++ natLe 2 (monWord m.reading) ++ natLe 2 (boundWord id false m.warnLo) ++ natLe 2 (boundWord id true m.warnHi) ++
    natLe 2 (boundWord id false m.critLo) ++ natLe 2 (boundWord id true m.critHi) ++
    [BitVec.ofNat 8 (m.state + (if m.failed then 4 else 0))] ++ List.replicate 3 (0 : Byte)

/-- MONITORS. -/
def execMonitors (id : Nat) (s : State) : Out :=
  .next (s.runCmd id 0x0805 (fun s _ _ => .data s (monitorIds.flatMap (fun i => monRecord i (s.mon i)))))

/-! ### THRESHOLDS (R572, R573) -/

/-- A bound lies in an inclusive range. -/
def within (lo hi : Int) (b : Option Int) : Bool := match b with | some v => decide (lo ≤ v) && decide (v ≤ hi) | none => false

/-- A warning bound is not outside its critical bound. -/
def warnInside (m : Monitor) : Bool :=
  (match m.warnLo, m.critLo with | some w, some c => decide (c ≤ w) | none, some _ => false | _, none => true) &&
  (match m.warnHi, m.critHi with | some w, some c => decide (w ≤ c) | none, some _ => false | _, none => true)

/-- The bounds of a record are within their settable limits. -/
def settable (id : Nat) (m : Monitor) : Bool :=
  let d := monDefault id
  let low (from_ : Int) : Bool := m.warnLo.isNone && m.critLo.isNone && within (8 * from_) (d.warnHi.getD 0) m.warnHi
    && within (8 * from_) (d.critHi.getD 0) m.critHi
  let both : Bool := [m.warnLo, m.warnHi, m.critLo, m.critHi].all (within (d.critLo.getD 0) (d.critHi.getD 0))
  match monKind id with
  | .die => low 40
  | .hbm => low 40
  | .inlet => low 20
  | .outlet => low 30
  | .vin => both
  | .rail => both
  | .ring => m.warnHi.isNone && m.critHi.isNone && within 900 1000 m.warnLo && within 900 1000 m.critLo

/-- A record's monitor with the bounds that it gives. -/
def State.boundsOf (s : State) (r : Bytes) : Nat × Monitor :=
  let id := fld r 0 2
  (id, { s.mon id with warnLo := wordBound id false (fld r 4 2), warnHi := wordBound id true (fld r 6 2),
                       critLo := wordBound id false (fld r 8 2), critHi := wordBound id true (fld r 10 2) })

/-- THRESHOLDS: every record is applied or none. -/
def State.thresholds (s : State) (p : Bytes) : Answer :=
  let rs := (List.range (p.length / 16)).map (fun i => (p.drop (16 * i)).take 16)
  if p.length = 0 || p.length % 16 ≠ 0 || !rs.all (fun r => zeros r 2 4 && zeros r 12 16) then s.deny .cmdInvalid
  else
    let ms := rs.map s.boundsOf
    if !ms.all (fun im => monitorExists im.1 && warnInside im.2 && settable im.1 im.2) then s.deny .configInvalid
    else .ok (ms.foldl (fun (s : State) (im : Nat × Monitor) => s.setMon im.1 im.2) s)

def execThresholds (id : Nat) (s : State) : Out := .next (s.runCmd id 0x0806 (fun s _ b => s.thresholds (chPayload b)))

/-! ### MONITOR_READ (R574) -/

/-- The reading is beyond a bound. -/
def outsideBounds (lo hi : Option Int) (v : Int) : Bool :=
  (match lo with | some b => decide (v < b) | none => false) || (match hi with | some b => decide (b < v) | none => false)

/-- A hundred times the distance within a bound at which a state clears: 3 °C, 1 % of nominal, 10 ‰. -/
def clearBy (id : Nat) : Int :=
  match monKind id with
  | .vin => 48000
  | .rail => Int.ofNat (railNominal (id % 4096))
  | .ring => 1000
  | _ => 2400

/-- The reading has returned within the bounds by that distance. -/
def backInside (id : Nat) (lo hi : Option Int) (v : Int) : Bool :=
  (match lo with | some b => decide (clearBy id ≤ 100 * (v - b)) | none => true)
    && (match hi with | some b => decide (clearBy id ≤ 100 * (b - v)) | none => true)

/-- The state after a reading; a monitor that has failed stands at its warning bound, in warning at least. -/
def monNext (id : Nat) (m : Monitor) : Nat :=
  let v := if m.failed then (m.warnHi.orElse (fun _ => m.warnLo)).getD m.reading else m.reading
  if outsideBounds m.critLo m.critHi v || (m.state = 2 && !backInside id m.critLo m.critHi v) then 2
  else if m.failed || outsideBounds m.warnLo m.warnHi v || (0 < m.state && !backInside id m.warnLo m.warnHi v) then 1
  else 0

/-- A sample is taken; a monitor that has failed stays so until module reset. -/
def State.sampled (s : State) (x : Sample) : Monitor :=
  let m := s.mon x.id
  match x.reading with
  | some v => { m with reading := v }
  | none => { m with failed := true }

/-- Protection by heat: every tc and nc island at half clock, once (R490). -/
def State.heatStep (s : State) : State :=
  if s.clk.tcHalf && s.clk.ncHalf then s
  else ({ s with clk := { s.clk with tcHalf := true, ncHalf := true } }.count 0xB001 none 0 1).loseLockstep

/-- A stack above 95 °C is switched to demand mode; below 90 °C it may return at the next realignment (R260). -/
def State.stackHeat (s : State) (st : Nat) (v : Int) : State :=
  let x := s.stack st
  if 760 < v then
    if x.demand then s.setStack st { x with cooled := false }
    else (s.setStack st { x with demand := true, hot := true, cooled := false }).stackDemand st
  else if v < 720 && x.hot then s.setStack st { x with cooled := true }
  else s

/-- The units of an island are fenced (R574). -/
def State.islandFails (s : State) (i : Nat) : State :=
  if i < 128 then s.fenceCluster i .process
  else if i < 144 then s.withdrawRegion (i - 128)
  else s.packageFailed (.island i)

/-- The event of a new monitor state. -/
def monEvent (st : Nat) : Nat := match st with | 0 => 0x0603 | 1 => 0x0601 | _ => 0x0602

def State.monLog (s : State) (event id : Nat) : State :=
  s.logEvent event none 0x0A (id % 4096) 0 (id + monWord (s.mon id).reading * 2 ^ 16)

/-- What a new state of a monitor does, beside the hold ratio and THERM_N. -/
def State.monAct (s : State) (id : Nat) (m : Monitor) (new : Nat) : State :=
  let s := match monKind id with
    | .hbm => if m.failed then s else s.stackHeat (id % 4096 - 80) m.reading
    | _ => s
  if new = m.state then s
  else
    let s := s.monLog (monEvent new) id
    match monKind id, new with
    | .die, 2 => s.heatStep
    | .ring, 2 => s.islandFails (id % 4096)
    | _, _ => s

/-- One sample: the reading, the state, its actions. -/
def State.monSample (s : State) (x : Sample) : State :=
  if !monitorExists x.id then s
  else
    let m := s.sampled x
    let new := monNext x.id m
    (s.setMon x.id { m with state := new }).monAct x.id m new

/-- The least hold ratio, in 1/256, that the temperatures ask for (R489, R574). -/
def State.heatFloor (s : State) : Nat :=
  s.mons.foldl (fun a (im : Nat × Monitor) =>
    if im.1 / 4096 ≠ 1 || im.2.state = 0 then a
    else max a (if im.2.state = 2 && !(decide (monKind im.1 = .die)) then 128 else 64)) 0

/-- A die, hub or HBM temperature monitor is critical (R637). -/
def State.thermLow (s : State) : Bool := s.mons.any (fun (im : Nat × Monitor) => im.1 / 4096 == 1 && im.1 % 4096 < 112 && im.2.state == 2)

/-- Above a trip point (R573). -/
def tripped (x : Sample) : Bool :=
  match x.reading, monKind x.id with
  | some v, .die => decide (920 < v)
  | some v, .hbm => decide (880 < v)
  | _, _ => false

/-- A monitor is critical on a rail (R574). -/
def State.railFault (s : State) (x : Sample) : Bool := x.id / 4096 == 2 && monitorExists x.id && (s.mon x.id).state == 2

/-- A trip or a rail fault: the FATAL records, then HOLD, with FAULT_N low and, for a trip, THERM_N (R575, R637). -/
def State.enterHold (s : State) (trips rails : List Sample) : State :=
  let s := trips.foldl (fun (s : State) x => s.monLog 0x0604 x.id) s
  let s := rails.foldl (fun (s : State) x => s.monLog 0x0605 x.id) s
  let ids := (trips ++ rails).map (·.id)
  let kept : FMap Monitor := ids.foldl (fun (m : FMap Monitor) i => FMap.put (monDefault i) m i { monDefault i with reading := (s.mon i).reading }) []
  let s := s.modState .hold
  let s := { s with mod := { s.mod with hold := some { trip := !trips.isEmpty, monitors := ids, okSince := none } } }
  let s := s.atReset .hold
  { s with mons := kept, pins := { s.pins with faultN := false, thermN := trips.isEmpty } }

/-- In HOLD only the monitors concerned matter: since when all of them have been within their warning bounds (R575). -/
def State.holdSample (s : State) (h : HoldInfo) (samples : List Sample) : State :=
  let s := samples.foldl (fun (s : State) x => if monitorExists x.id then s.setMon x.id (s.sampled x) else s) s
  let ok := h.monitors.all (fun i => let m := s.mon i; !m.failed && !outsideBounds m.warnLo m.warnHi m.reading)
  { s with mod := { s.mod with hold := some { h with okSince := if ok then some (h.okSince.getD s.time) else none } } }

/-- MONITOR_READ: samples of the monitors in one reading. -/
def State.monitorRead (s : State) (samples : List Sample) : State :=
  match s.mod.hold with
  | some h => s.holdSample h samples
  | none =>
    if s.mod.state = .reset || !s.mod.powered then s
    else
      let s := samples.foldl (fun (s : State) x => s.monSample x) s
      let s := { s with pwr := { s.pwr with rhoFloor := s.heatFloor }, pins := { s.pins with thermN := !s.thermLow } }
      let trips := samples.filter (fun x => monitorExists x.id && tripped x)
      let rails := samples.filter s.railFault
      if trips.isEmpty && rails.isEmpty then s else s.enterHold trips rails

def execMonitorRead (samples : List Sample) (s : State) : Out := .next (s.monitorRead samples)

/-! ### Crossings (R482, R483, R562) -/

/-- CROSSING_MARGIN_CHECK: crossings whose margin is low ask for a realignment, which calibrates them (R483). -/
def execCrossingMarginCheck (low : List Nat) (s : State) : Out :=
  .next (if low.isEmpty || !s.mod.dawnDone then s
    else { s with clk := { s.clk with realignWanted := true
                                      realignCrossings := s.clk.realignCrossings ++ low.filter (fun c => !s.clk.realignCrossings.contains c) } })

/-- The unit of an island of R562 is fenced for a crossing error: a cluster, a region, a stack; a link end or a hub is a
package failure (R482, R566, R568). -/
def State.crossingUnit (s : State) (i : Nat) : State :=
  if i < 128 then s.fenceCluster i .crossing
  else if i < 144 then s.withdrawRegion (i - 128)
  else if i < 176 then s.withdrawStack (i - 144)
  else if i < 196 then s.packageFailed (.dieLink ((i - 176) / 2))
  else s.packageFailed (.island i)

/-- CROSSING_ERROR: a crossing is numbered 256 × its sending island plus its receiving island; the units on both sides are
fenced (R482). -/
def execCrossingError (crossing : Nat) (s : State) : Out :=
  let a := crossing / 256
  let b := crossing % 256
  .next (if 200 ≤ a || 200 ≤ b || !s.mod.mapBuilt then s
    else ((s.logEvent 0x010D none 0x0D a 0 b).crossingUnit a).crossingUnit b)

/-! ### Power and clocks (R45, R485, R489, R490, R636, R644) -/

/-- The cap's floor (R9, R45). -/
def Ident.floor (i : Ident) : Nat := if i.b1 then 900 else 1200

/-- POWER_CAP. -/
def execPowerCap (id : Nat) (s : State) : Out :=
  .next (s.runCmd id 0x0807 (fun s _ b =>
    let w := chArg b
    if w < s.ident.floor || 2000 < w then s.deny .configInvalid else .ok { s with pwr := { s.pwr with cap := w } }))

/-- POWER_SAMPLE: above 2,400 W over 10 ms every tc island runs at half clock (R490). -/
def execPowerSample (avg10ms : Nat) (s : State) : Out :=
  let s := { s with pwr := { s.pwr with avg10ms := avg10ms } }
  .next (if avg10ms ≤ 2400 || s.clk.powerStep || !s.mod.dawnDone then s
    else ({ s with clk := { s.clk with tcHalf := true, powerStep := true } }.count 0xB001 none 0 1).loseLockstep)

/-- HOLD_RATIO_UPDATE: the cap in force is the floor if THROTTLE_N was low at any moment since the update before; the hold ratio
is 0 below 98 % of the cap, and else the controller's, in 1/256 (R489, R636). -/
def execHoldRatioUpdate (avg1s ratio : Nat) (s : State) : Out :=
  let cap := if s.pwr.throttleSeen || !s.pins.throttleN then s.ident.floor else s.pwr.cap
  let rho := if 100 * avg1s < 98 * cap then 0 else min 256 ratio
  .next ({ s with pwr := { s.pwr with capInForce := cap, avg1s := avg1s, rho := rho, throttleSeen := !s.pins.throttleN } }.gauge 0xB002 none 0 avg1s)

/-- No die or hub sensor is at or above its warning threshold. -/
def State.cool (s : State) : Bool :=
  (List.range 80).all (fun i => let m := s.mon (0x1000 + i); match m.warnHi with | some b => decide (m.reading < b) | none => true)

/-- The clocks once the steps whose conditions are over are undone: a power step below 2,000 W, a heat step when every sensor is
cool (R490). -/
def State.stepsUndone (s : State) : Clocks :=
  let power := s.clk.powerStep && 2000 ≤ s.pwr.avg10ms
  let heat := s.clk.ncHalf && !s.cool
  { s.clk with tcHalf := power || heat, ncHalf := heat, powerStep := power
               nominalSince := if s.clk.tcHalf && !power && !heat then s.time else s.clk.nominalSince }

/-- CLOCK_STEP_UNDO (R490). -/
def execClockStepUndo (s : State) : Out := .next { s with clk := s.stepsUndone }

/-- SUPPLY_DROOP: a droop stretches an island's clock; by more than one cycle in a beat it ends lockstep (R485, R490). -/
def execSupplyDroop (island cycles : Nat) (s : State) : Out :=
  .next (if cycles = 0 || 200 ≤ island || !s.mod.dawnDone then s
    else
      let s := s.count 0xB001 none 0 1
      if 1 < cycles then s.loseLockstep else s)

/-- PLL_LOCK_LOSS (R485). -/
def execPllLockLoss (_pll : Nat) (s : State) : Out :=
  .next (if !s.mod.dawnDone then s else { s with clk := { s.clk with pllLocked := false } }.loseLockstep)

/-- REFCLK_LOSS: every PLL enters holdover and lockstep ends (R644). -/
def execRefclkLoss (s : State) : Out :=
  let s := { s with pins := { s.pins with refclkOk := false } }
  .next (if s.mod.dawnDone then { s with clk := { s.clk with holdover := true } }.loseLockstep else s)

/-- REFCLK_RETURN: the PLLs relock, and a realignment may follow (R644). -/
def execRefclkReturn (s : State) : Out :=
  .next (if s.pins.refclkOk then s
    else { s with pins := { s.pins with refclkOk := true, refclkGoodSince := s.time },
                  clk := { s.clk with holdover := false, pllLocked := s.mod.dawnDone } })

/-- THROTTLE_N goes low (R636). -/
def execThrottleN (s : State) : Out := .next { s with pins := { s.pins with throttleN := false }, pwr := { s.pwr with throttleSeen := true } }

/-- THROTTLE_N goes high (R636). -/
def execThrottleNRelease (s : State) : Out := .next { s with pins := { s.pins with throttleN := true } }

/-- I2C_STALL_RELEASE: SDA and SCL are released and a new START is awaited (R639). -/
def execI2cStallRelease (s : State) : Out :=
  .next { s with pins := { s.pins with sdaHeld := false, sclHeld := false, i2cIdle := true } }

/-! ### Energy (R526) -/

/-- Activity of a seat over the interval, in nJ: pairs name 64 × activity + seat and its count. -/
def activityOf (activity : List (Nat × Nat)) (seat : Nat) : Nat :=
  activity.foldl (fun a kc => if kc.1 % 64 = seat then a + Config.activityCoef (kc.1 / 64) * kc.2 else a) 0

/-- k × a in µJ, k = e / total limited to 0.5 to 2, for a in nJ and e in µJ; k is 1 where the total is 0. -/
def energyShare (e total a : Nat) : Nat :=
  if total = 0 then a / 1000
  else if 2000 * e < total then a / 2000
  else if 2 * total < 1000 * e then 2 * a / 1000
  else e * a / total

/-- A seat holds its clusters' static energy: it is RUNNING or IDLE, an EXCLUSIVE one or the one on its clusters; of those that
share a cluster only the one RUNNING. -/
def staticShare (x : Seat) : Bool :=
  if recShared x.record then x.state == .running && decide (x.preempt.phase = .none)
  else x.state == .running || x.state == .idle

/-- k has reached a limit. -/
def kLimited (e total : Nat) : Bool := total != 0 && (2000 * e ≤ total || 2 * total ≤ 1000 * e)

/-- ENERGY_ATTRIBUTION: energies in µJ, activities in nJ. -/
def State.attribute (s : State) (em es dev : Nat) (activity : List (Nat × Nat)) : State :=
  let total := s.seats.foldl (fun a (ks : Nat × Seat) => a + activityOf activity ks.1) dev
  let e := em - es
  let dyn (n : Nat) : Nat := energyShare e total (activityOf activity n)
  let stat (x : Seat) : Nat := if staticShare x then es * (clustersOf x.record).length / s.ident.lclusters else 0
  let given := s.seats.foldl (fun a (ks : Nat × Seat) => a + dyn ks.1 + stat ks.2) 0
  let n := if kLimited e total then s.pwr.kLimitCount + 1 else 0
  let s := { s with
    seats := s.seats.map (fun (ks : Nat × Seat) =>
      (ks.1, { ks.2 with energyDyn := ks.2.energyDyn + dyn ks.1, energyStatic := ks.2.energyStatic + stat ks.2 }))
    pwr := { s.pwr with unattributed := s.pwr.unattributed + (em - given), kLimitCount := if n = 100 then 0 else n } }
  if n = 100 then s.logEvent 0x0606 none 0x0C 0 0 (if 2000 * e ≤ total then 0x3F000000 else 0x40000000) else s

def execEnergyAttribution (inputEnergy staticEnergy deviceActivity : Nat) (activity : List (Nat × Nat)) (s : State) : Out :=
  .next (if s.mod.refereeRuns then s.attribute inputEnergy staticEnergy deviceActivity activity else s)

end Sys2Proof.Machine
end

