-- ==== Sys2Proof/Machine/Pmc.lean ====
section
/-!
DEFINITION. Performance counters (17): selects and their application at a beat start (R596 to R600), snapshots (R601 to R605),
bandwidth windows (R595), and the accounting snapshots (R528, R669).
-/

namespace Sys2Proof.Machine

/-! ### Selects (R597, R599, R600, R603) -/

/-- Instances of a kind for a seat (R599); of a seat or module event the one instance 0. -/
def kindCount (x : Seat) : EvKind → Nat
  | .tile => x.ltiles
  | .cluster => (clustersOf x.record).length
  | .region => 16 | .stack => 32 | .link => 10 | .hub => 2 | .port => 24 | .channel => 16
  | .seatHub => 2 | .seatRegion => 16 | .seat => 1 | .module => 1

/-- The kinds that are one instance only, whose INST must be 0. -/
def kindSingle (k : EvKind) : Bool := decide (k = .seat) || decide (k = .module)

/-- The select names an event and an instance, and TCMASK only for an SFL event (R597, R599). -/
def selExists (x : Seat) (v : W64) : Bool :=
  match evKind (selEvent v) with
  | none => false
  | some k => (selInst v < kindCount x k || (selInst v == 0xFFFF && !kindSingle k)) && (selTcMask v == 0 || selEvent v / 4096 == 8)

/-- The seat may count what the select names; the sum over every instance takes those that it may count (R599, R603). -/
def selMay (x : Seat) (perm : Nat) (v : W64) : Bool :=
  match evKind (selEvent v) with
  | none => false
  | some k => if selInst v = 0xFFFF then (List.range (kindCount x k)).any (permits perm x.share k) else permits perm x.share k (selInst v)

/-- PMC_SEL without its reserved bits. -/
def selWord (v : W64) : W64 := v &&& 0xFFFFFFFF00FFFFFF

/-- Half h of a register replaced. -/
def setHalf (v : W64) (h : Nat) (w : Nat) : W64 :=
  BitVec.ofNat 64 (if h = 0 then v.toNat / 2 ^ 32 * 2 ^ 32 + w % 2 ^ 32 else v.toNat % 2 ^ 32 + w % 2 ^ 32 * 2 ^ 32)

/-- A write of a register of the block waits for the next beat, as its halves: 2 i is the low one of register i. -/
def waitHalves (m : FMap W64) (i : Nat) (v : W64) : FMap W64 :=
  FMap.insert (FMap.insert m (2 * i) (BitVec.ofNat 64 (v.toNat % 2 ^ 32))) (2 * i + 1) (BitVec.ofNat 64 (v.toNat / 2 ^ 32))

/-- Register i with the halves that wait for it. -/
def halvesOver (m : FMap W64) (i : Nat) (v : W64) : W64 :=
  let v := match FMap.find? m (2 * i) with | some w => setHalf v 0 w.toNat | none => v
  match FMap.find? m (2 * i + 1) with | some w => setHalf v 1 w.toNat | none => v

def waits (m : FMap W64) (i : Nat) : Bool := (FMap.find? m (2 * i)).isSome || (FMap.find? m (2 * i + 1)).isSome

/-- The counter block of the seat of a function; where no seat is, there is none. -/
def State.onPmc (s : State) (n : Nat) (f : Pmc → Pmc) : State := s.onSeat n (fun x => { x with pmc := f x.pmc })

/-- PMC_SEL_WRITE: a write of PMC_SEL[i], in force from the next beat. -/
def execPmcSelWrite (fn index : Nat) (value : W64) (s : State) : Out :=
  .next (if index < 16 then s.onPmc fn (fun p => { p with waitSel := waitHalves p.waitSel index value }) else s)

/-- A write of PMC_CTL: FREEZE, SNAP_FREEZE and CLEAR, from the next beat (R598, R600). -/
def Pmc.ctl (p : Pmc) (v : W64) : Pmc :=
  { p with waitFreeze := some (v.getLsbD 0), waitSnapFreeze := some (v.getLsbD 1), waitClear := p.waitClear || v.getLsbD 2 }

/-- PMC_CLEAR: PMC_CTL is written with CLEAR. -/
def execPmcClear (fn : Nat) (value : W64) (s : State) : Out := .next (s.onPmc fn (fun p => p.ctl (value ||| 4)))

/-- PMC_FREEZE: PMC_CTL is written to stop or restart the counters. -/
def execPmcFreeze (fn : Nat) (value : W64) (s : State) : Out := .next (s.onPmc fn (fun p => p.ctl value))

/-- VALUE is written and OVF cleared by a one (R598). -/
def ctrWritten (old v : W64) (high : Bool) : W64 :=
  BitVec.ofNat 64 (v.toNat % 2 ^ 48 + (if 2 ^ 63 ≤ old.toNat && !(high && 2 ^ 63 ≤ v.toNat) then 2 ^ 63 else 0))

/-- A waiting select of a register: taken, or refused with SEL_DENIED and its index (R599). -/
def Pmc.applySel (p : Pmc) (x : Seat) (hc i : Nat) : Pmc :=
  if !waits p.waitSel i then p
  else
    let v := selWord (halvesOver p.waitSel i (p.sel.getD i 0))
    if selExists x v && selMay x x.snap.perm v then
      { p with sel := p.sel.set i v, runs := p.runs.filter (fun kr => kr.1 / 2048 ≠ i) }
    else { p with selDenied := true, deniedAt := some hc, deniedIdx := i }

/-- At a beat start: CLEAR, VALUE writes, FREEZE and selects, in this order, after what was counted up to it (R600). -/
def Pmc.apply (p : Pmc) (x : Seat) (now : Nat) : Pmc :=
  let p := p.settle now
  let p := if p.waitClear then { p with ctr := List.replicate 16 0 } else p
  let ctr := (List.range 16).map (fun i =>
    let old := p.ctr.getD i 0
    if waits p.waitCtr i then ctrWritten old (halvesOver p.waitCtr i (old &&& 0xFFFFFFFFFFFF)) (FMap.find? p.waitCtr (2 * i + 1)).isSome
    else old)
  let p := { p with ctr := ctr, freeze := p.waitFreeze.getD p.freeze, snapFreeze := p.waitSnapFreeze.getD p.snapFreeze }
  let p := (List.range 16).foldl (fun (p : Pmc) i => p.applySel x (now / hcUnits) i) p
  { p with waitClear := false, waitFreeze := none, waitSnapFreeze := none, waitSel := [], waitCtr := [] }

/-- PMC_WRITE_APPLY: a beat starts: the writes that wait in every seat's block apply. -/
def execPmcWriteApply (s : State) : Out :=
  .next { s with seats := s.seats.map (fun (ks : Nat × Seat) => (ks.1, { ks.2 with pmc := ks.2.pmc.apply ks.2 s.time })) }

/-! ### Snapshots (R601 to R604) -/

/-- The events of a block and kind in ascending INDEX. -/
def blockEvents (block : Nat) (k : EvKind) : List Nat :=
  ((List.range 0x21).map (fun i => block * 4096 + i)).filter (fun c => decide (evKind c = some k))

/-- The kinds of a block's events, in the order of their first INDEX. -/
def blockKinds (block : Nat) : List EvKind := (((List.range 0x21).map (fun i => block * 4096 + i)).filterMap evKind).eraseDups

/-- Instances that a snapshot covers, as the seat whose counter it is, if any, and the number. -/
def kindInstances (seats : List (Nat × Seat)) (shared : EvKind → Nat → Bool) (k : EvKind) : List (Option Nat × Nat) :=
  match k with
  | .tile | .cluster | .seat | .seatHub | .seatRegion =>
    seats.flatMap (fun (ks : Nat × Seat) => (List.range (kindCount ks.2 k)).map (fun i => (some ks.1, i)))
  | _ => ((List.range (kindCount {} k)).filter (shared k)).map (fun i => (none, i))

/-- A section: its BLOCK, counters per instance, instances and values. -/
structure Section where
  block : Nat
  counters : Nat
  instances : Nat
  values : List Nat
deriving DecidableEq, Repr

/-- A section for each block and kind that has an instance, in ascending BLOCK. -/
def State.eventSections (s : State) (seats : List (Nat × Seat)) (shared : EvKind → Nat → Bool) : List Section :=
  ((List.range 12).map (· + 1)).flatMap (fun b => (blockKinds b).filterMap (fun k =>
    let is := kindInstances seats shared k
    let es := blockEvents b k
    if is.isEmpty then none
    else some { block := b, counters := es.length, instances := is.length,
                values := is.flatMap (fun i => es.map (fun c => (s.counter c i.1 i.2).toNat)) }))

/-- Section 0xD: LAST and PEAK of each resource and direction, TX first (R595, R604). -/
def State.bwSection (s : State) : Section :=
  { block := 0xD, counters := 4, instances := 76,
    values := (List.range 152).flatMap (fun k => let b := FMap.get {} s.ctrs.bw k; [b.last, b.peak]) }

/-- The sections of a snapshot of a seat, by its PERM, or of the device for an issuer's seats. -/
def State.sections (s : State) (n : Nat) (x : Seat) (device : Option (List (Nat × Seat))) : List Section :=
  let zero : Section := { block := 0, counters := 16, instances := 1, values := x.pmc.shadow.map (·.toNat) }
  match device with
  | some seats => [zero] ++ s.eventSections seats (fun _ _ => true) ++ [s.bwSection]
  | none => [zero] ++ s.eventSections [(n, x)] (fun k i => permits x.snap.perm x.share k i) ++ (if x.snap.perm = 2 then [s.bwSection] else [])

def sectionBytes (z : Section) : Bytes := z.values.flatMap (fun v => natLe 8 v)

/-- The directory and the sections, with the offsets from the header. -/
def directory (zs : List Section) : Bytes :=
  let start := 64 + 16 * zs.length
  (zs.foldl (fun (a : Bytes × Nat) z =>
    (a.1 ++ natLe 1 z.block ++ [0] ++ natLe 2 z.counters ++ natLe 4 z.instances ++ natLe 8 a.2, a.2 + 8 * z.values.length)) ([], start)).1

/-- The whole snapshot (R604). -/
def State.snapBytes (s : State) (x : Seat) (zs : List Section) (seq : Nat) (device timed late : Bool) : Bytes :=
  let b (c : Bool) (n : Nat) : Nat := if c then n else 0
  let body := directory zs ++ zs.flatMap sectionBytes
  natLe 4 seq ++ [BitVec.ofNat 8 (b device 1 + b timed 2 + b late 4 + b x.pmc.freeze 8)] ++ List.replicate 3 (0 : Byte) ++
    natLe 8 s.beat ++ natLe 8 (if s.tk.held then s.sysTime else 0) ++ natLe 8 (64 + body.length) ++ natLe 4 zs.length ++
    List.replicate 28 (0 : Byte) ++ body

/-- The counters of a seat are latched: shadows, SNAP_SEQ, the beat, and FREEZE where SNAP_FREEZE asks for it (R598, R601). -/
def Pmc.latch (p : Pmc) (now beat : Nat) (late : Bool) : Pmc :=
  let p := p.settle now
  { p with shadow := p.ctr, snapSeq := p.snapSeq + 1, snapBeat := BitVec.ofNat 64 beat, freeze := p.freeze || p.snapFreeze,
           snapLate := p.snapLate || late
           lateAt := if late then some (now / hcUnits) else p.lateAt }

/-- A snapshot goes to the seat's snapshot area, up to its length. -/
def State.writeSnap (s : State) (n : Nat) (x : Seat) (b : Bytes) : State :=
  if x.snap.area = 0 then s
  else match s.quotaAddr x x.snap.area (min x.snap.len b.length) with
    | some a => s.seatStore n a (b.take x.snap.len)
    | none => s

/-- A snapshot of a seat is taken. -/
def State.takeSnap (s : State) (n : Nat) (x : Seat) (timed late : Bool) : State × Bytes :=
  let y := { x with pmc := x.pmc.latch s.time s.beat late }
  let s := s.setSeat n y
  let b := s.snapBytes y (s.sections n y none) y.pmc.snapSeq.toNat false timed late
  (s.writeSnap n y b, b)

/-- A snapshot of the device: the seats of the issuer's port, or all of them by a management transport. -/
def State.takeDevice (s : State) (n : Nat) (x : Seat) (seats : List (Nat × Seat)) : State × Bytes :=
  let s := { s with ctrs := { s.ctrs with deviceSeq := s.ctrs.deviceSeq + 1 } }
  let b := s.snapBytes x (s.sections n x (some seats)) s.ctrs.deviceSeq.toNat true false false
  (s.writeSnap n x b, b)

/-- What the issuer is answered: the header, and on a management transport the sections from the first asked for (R604). -/
def snapAnswer (mgmt : Bool) (first : Nat) (b : Bytes) : Bytes :=
  let h := b.take 64
  if !mgmt || fld h 32 4 ≤ first then h else h ++ b.drop (fld b (64 + 16 * first + 8) 8)

/-- PMC_SNAPSHOT (R602). -/
def State.pmcSnapshot (s : State) (c : Cmd) (n : Nat) (x : Seat) (arg : Nat) : Answer :=
  let seats := match c.port? with | some p => s.portSeats p | none => s.seats
  let first := arg / 256 % 256
  if bit arg 0 then .data s (snapAnswer c.isMgmt first (padTo (max 64 x.snap.last.length) x.snap.last))
  else if bit arg 1 then
    if !c.isMgmt && !c.isPhysical then s.deny .permissionDenied
    else let r := s.takeDevice n x seats; .data r.1 (snapAnswer c.isMgmt first r.2)
  else let r := s.takeSnap n x false false; .data r.1 (snapAnswer c.isMgmt first r.2)

def execPmcSnapshot (id : Nat) (s : State) : Out :=
  .next (s.runCmd id 0x0703 (fun s c b => match s.seat? (chSeat b) with
    | some x => s.pmcSnapshot c (chSeat b) x (chArg b)
    | none => s.deny .seatState))

/-- TIMED_SNAPSHOT: system time has reached SNAP_TIME (R602). -/
def execTimedSnapshot (seat : Nat) (s : State) : Out :=
  .next (match s.seat? seat with
    | none => s
    | some x =>
      if x.snap.time = 0 || !s.tk.held || s.sysTime < x.snap.time then s
      else
        let r := s.takeSnap seat { x with snap := { x.snap with time := 0, late := false } } true x.snap.late
        r.1.onSeat seat (fun y => { y with snap := { y.snap with last := r.2 } }))

/-! ### PMC_SELECT (R605) -/

def psArea (p : Bytes) : Nat := fld p 0 8
def psLen (p : Bytes) : Nat := fld p 8 4
def psPerm (p : Bytes) : Nat := byteAt p 12
def psWindow (p : Bytes) : Nat := byteAt p 13
def psPeak (p : Bytes) : Bool := bit (byteAt p 14) 0
def psSels (p : Bytes) : Bool := bit (byteAt p 14) 1
def psTime (p : Bytes) : Nat := fld p 16 8
def psSel (p : Bytes) (i : Nat) : W64 := BitVec.ofNat 64 (fld p (24 + 8 * i) 8)

/-- The issuer may give the fields that it gives. -/
def psAllowed (c : Cmd) (p : Bytes) : Bool :=
  (psPerm p == 0xFF || c.isMgmt || (c.isPhysical && psPerm p != 2)) && (psWindow p == 0xFF || c.isMgmt)
    && (!psPeak p || c.isMgmt || c.isPhysical)

/-- The first failed check of PMC_SELECT. -/
def State.pmcSelectCheck (s : State) (c : Cmd) (x : Seat) (p : Bytes) : Option Status :=
  let perm := if psPerm p = 0xFF then x.snap.perm else psPerm p
  let sels := if psSels p then (List.range 16).map (psSel p) else []
  firstFail [
    (byteAt p 14 < 4 && byteAt p 15 == 0 && sels.all (fun v => v == selWord v), .cmdInvalid),
    (psAllowed c p, .permissionDenied),
    ((psPerm p == 0xFF || psPerm p < 3) && (psWindow p == 0xFF || psWindow p ≤ 16), .configInvalid),
    (psArea p == 0 || (psArea p % 64 == 0 && (s.quotaAddr x (psArea p) (psLen p)).isSome), .configInvalid),
    (sels.all (selExists x), .configInvalid),
    (sels.all (selMay x perm), .permissionDenied),
    (psTime p == 0 || s.tk.held, .moduleState)]

/-- PMC_SELECT: every field applies, or none. -/
def State.pmcSelect (s : State) (c : Cmd) (n : Nat) (x : Seat) (p : Bytes) : Answer :=
  match s.pmcSelectCheck c x p with
  | some st => s.deny st
  | none =>
    let late : Bool := psTime p != 0 && psTime p < s.sysTime
    let snap := { x.snap with area := if psArea p = 0 then x.snap.area else psArea p
                              len := if psArea p = 0 then x.snap.len else psLen p
                              perm := if psPerm p = 0xFF then x.snap.perm else psPerm p
                              time := psTime p
                              late := late }
    let wait := if psSels p then (List.range 16).foldl (fun m i => waitHalves m i (psSel p i)) x.pmc.waitSel else x.pmc.waitSel
    let s := s.setSeat n { x with snap := snap, pmc := { x.pmc with waitSel := wait } }
    let bw := if psPeak p then s.ctrs.bw.map (fun (kb : Nat × Bw) => (kb.1, { kb.2 with peak := 0 })) else s.ctrs.bw
    .ok { s with ctrs := { s.ctrs with bw := bw, nextWindow := if psWindow p = 0xFF then s.ctrs.nextWindow else some (psWindow p) } }

def execPmcSelect (id : Nat) (s : State) : Out :=
  .next (s.runCmd id 0x0702 (fun s c b => match s.seat? (chSeat b) with
    | some x => s.pmcSelect c (chSeat b) x (chPayload b)
    | none => s.deny .seatState))

/-! ### Bandwidth windows (R595) -/

/-- BANDWIDTH_WINDOW_END: LAST and PEAK take the window that ends; a new window length comes into force at a beat that is a
multiple of both, and PEAK is reset. -/
def State.windowEnd (s : State) : State :=
  let c := s.ctrs
  let bw := (c.bw.map (fun (kb : Nat × Bw) => (kb.1, ({ cur := 0, last := kb.2.cur, peak := max kb.2.peak kb.2.cur } : Bw)))).filter
    (fun kb => 0 < kb.2.peak)
  match c.nextWindow with
  | some w =>
    if w ≤ c.window || s.beat % 2 ^ w = 0 then
      { s with ctrs := { c with bw := bw.map (fun (kb : Nat × Bw) => (kb.1, { kb.2 with peak := 0 })), window := w, nextWindow := none } }
    else { s with ctrs := { c with bw := bw } }
  | none => { s with ctrs := { c with bw := bw } }

def execBandwidthWindowEnd (s : State) : Out := .next s.windowEnd

/-! ### Accounting (R528, R546, R669) -/

/-- ACCT_SNAPSHOT. -/
def execAcctSnapshot (id : Nat) (s : State) : Out := .next (s.runSeat id 0x0701 (fun s _ x _ => .data s x.acctRecord))

/-- ACCT_LATCH: the 64 fields go to the counter page, and SEQ goes up (R669). -/
def execAcctLatch (fn : Nat) (value : W64) (s : State) : Out :=
  .next (if value.getLsbD 0 then s.onSeat fn (fun x => { x with acctSnap := x.acctFields, acctSeq := x.acctSeq + 1 }) else s)

end Sys2Proof.Machine
end

