-- ==== Sys2Proof/Machine/Service.lean ====
section
/-!
DEFINITION. Service commands: the log (R559 to R564), fencing and return by command (R565, R570), SHUTDOWN (R611), the firmware
slots (R577, R578), admission and the management filter (R551, R555, R556), the debug lock (R584, R585).
-/

namespace Sys2Proof.Machine

/-! ### The log -/

/-- LOG_READ: up to 128 records from a SEQ on; a physical function receives those of its port's seats and of no one seat. -/
def State.logRead (s : State) (c : Cmd) (first : Nat) : Bytes :=
  let mine (r : LogRec) : Bool := match c.port?, r.seat with
    | some p, some n => n / 16 == p
    | _, _ => true
  ((s.log.records.filter (fun r => first ≤ r.seq.toNat && mine r)).take 128).flatMap LogRec.bytes

def execLogRead (id : Nat) (s : State) : Out := .next (s.runCmd id 0x0801 (fun s c b => .data s (s.logRead c (chArg b))))

/-- LOG_CLEAR: the records up to a SEQ are removed; FAULT_N follows (R563, R564). -/
def execLogClear (id : Nat) (s : State) : Out :=
  .next (s.runCmd id 0x0802 (fun s _ b =>
    .ok { s with log := { s.log with records := s.log.records.filter (fun r => chArg b < r.seq.toNat) } }.faultPin))

/-! ### Tiles by command -/

/-- TILE_FENCE: a tile already fenced stays as it is (R570). -/
def execTileFence (id : Nat) (s : State) : Out := .next (s.runCmd id 0x0803 (fun s _ b => .ok (s.fenceTile (chArg b) .command)))

/-- TILE_RETURN: the self-test of a fenced tile starts; one that is not fenced, or is retired, refuses (R569, R570). -/
def execTileReturn (id : Nat) (s : State) : Out :=
  .next (s.runCmd id 0x0804 (fun s _ b =>
    let x := s.ptile (chArg b)
    if x.fence.isNone || x.retired then s.deny .moduleState
    else .ok (s.setPtile (chArg b) { x with testing := !x.passed })))

/-! ### SHUTDOWN -/

/-- SHUTDOWN: every seat is destroyed with the drain limit; the last of them ends the command. -/
def State.shutdownBegin (s : State) (id limit : Nat) : State :=
  let s := { s with mod := { s.mod with shutdown := some (id, false) } }
  if s.seats.isEmpty then s.shutdownEnd id false
  else s.seats.foldl (fun (s : State) (ks : Nat × Seat) =>
    if ks.2.drain.isSome then s else (s.seatChanged ks.1).startDrain ks.1 .destroy limit none (limit == 0)) s

def execShutdown (id : Nat) (s : State) : Out := .next (s.runCmd id 0x0808 (fun s _ b => .runs (s.shutdownBegin id (chArg b))))

/-! ### Firmware slots -/

/-- The 64 bytes of FW_QUERY. -/
def State.fwQuery (s : State) : Bytes :=
  let b (c : Bool) : Byte := if c then 1 else 0
  let m := s.fw.slotA
  let k := s.fw.slotB
  padTo 64 ([b s.fw.runningB, b s.fw.selectedB, 0, 0] ++ natLe 4 (imgVersion m) ++ natLe 4 (imgVersion k) ++
    natLe 2 (imgArithLo m) ++ natLe 2 (imgArithHi m) ++ natLe 2 (imgArithLo k) ++ natLe 2 (imgArithHi k) ++
    natLe 1 (imgCpl m) ++ natLe 1 (imgCpl k))

/-- FW_QUERY. -/
def execFwQuery (id : Nat) (s : State) : Out := .next (s.runCmd id 0x0901 (fun s _ _ => .data s s.fwQuery))

/-- FW_WRITE: image bytes go to the slot that is not running; a selection of that slot is cancelled (R577). -/
def State.fwWrite (s : State) (o : Nat) (p : Bytes) : Answer :=
  if p.length % 64 ≠ 0 then s.deny .cmdInvalid
  else if o % 64 ≠ 0 || slotSize < o + p.length then s.deny .configInvalid
  else
    let put (m : FMap Byte) : FMap Byte := ((List.range p.length).zip p).foldl (fun (m : FMap Byte) ib => FMap.put 0 m (o + ib.1) ib.2) m
    let f := s.fw
    let f := if f.runningB then { f with slotA := put f.slotA, factoryA := false } else { f with slotB := put f.slotB }
    .ok { s with fw := { f with selectedB := f.runningB } }

def execFwWrite (id : Nat) (s : State) : Out := .next (s.runCmd id 0x0902 (fun s _ b => s.fwWrite (chArg b) (chPayload b)))

/-- FW_ACTIVATE: an image that R578 admits is selected for the next reset. -/
def execFwActivate (id : Nat) (s : State) : Out :=
  .next (s.runCmd id 0x0903 (fun s _ b =>
    let slot := bit (chArg b) 0
    if !s.imageOk slot then s.deny .imageInvalid
    else .ok ({ s with fw := { s.fw with selectedB := slot, failedStarts := 0 } }.logEvent 0x0703 none 0x0B 0 0
      ((if slot then 1 else 0) + imgVersion (s.slot slot) * 2 ^ 32))))

/-! ### Admission, the management filter -/

/-- The admission state changes, and the change is logged (R551, R561). -/
def State.setAdmission (s : State) (on : Bool) (detail : Nat) : State :=
  if s.mod.admitted = on then s
  else { s with mod := { s.mod with admitted := on } }.logEvent (if on then 0x0704 else 0x0705) none 0x0C 0 0 detail

/-- SEC_ADMIT. -/
def execSecAdmit (id : Nat) (s : State) : Out := .next (s.runCmd id 0x0A01 (fun s _ b => .ok (s.setAdmission (bit (chArg b) 0) 0)))

/-- SEC_MGMT_ACL. -/
def State.setAcl (s : State) (p : Bytes) : Answer :=
  let n := byteAt p 0
  if byteAt p 1 ≠ 0 || !zeros p 6 8 then s.deny .cmdInvalid
  else if 8 < n then s.deny .configInvalid
  else .ok { s with mgmt := { s.mgmt with aclRequesters := (List.range n).map (fun i => fld p (8 + 2 * i) 2)
                                          aclMatch := fld p 2 2
                                          aclMask := fld p 4 2 } }

def execSecMgmtAcl (id : Nat) (s : State) : Out := .next (s.runCmd id 0x0A02 (fun s _ b => s.setAcl (chPayload b)))

/-! ### The debug lock (R584, R585) -/

/-- SEC_UNLOCK_CHALLENGE: a fresh nonce takes the place of the last. -/
def State.challenge (s : State) : Answer :=
  let n := padTo 32 (Config.nonce s.free)
  .data { s with free := s.free + 1, sec := { s.sec with nonce := some n, nonceAt := s.time } } (n ++ padTo 16 s.ident.serial)

def execSecUnlockChallenge (id : Nat) (s : State) : Out := .next (s.runCmd id 0x0A03 (fun s _ _ => s.challenge))

/-- The unlock payload names this module and the nonce in force, and a Calnen debug key has signed it. -/
def State.unlockValid (s : State) (p : Bytes) : Bool :=
  fld p 0 4 == 1 && decide (s.sec.nonce = some ((p.drop 8).take 32)) && s.time ≤ s.sec.nonceAt + 600 * secondUnits
    && (p.drop 40).take 16 == padTo 16 s.ident.serial
    && Config.signatureValid 1 (fld p 56 8) (Sha.sha384 (p.take 64)) ((p.drop 64).take 96)

/-- Every store of the package reads as zero: tile, cluster and Druind table stores, line caches, NI buffers, HBM. -/
def State.zeroStores (s : State) : State :=
  { s with mem := [], poison := [], druind := {},
           ni := { s.ni with caches := [], directory := [], inbox := [], tc0 := [], rx := s.ni.rx.map (fun (kr : Nat × RxStream) => (kr.1, { kr.2 with early := [] })) } }

/-- A valid unlock, in the order of R585. -/
def State.unlock (s : State) (scope : Nat) : State :=
  let s := s.destroyAll.zeroStores.setAdmission false 1
  let s := { s with flash := { s.flash with available := false }, sec := { s.sec with scope := scope } }
  s.logEvent 0x0706 none 0x0C 0 0 scope

/-- SEC_UNLOCK: a nonce serves one try. -/
def State.secUnlock (s : State) (p : Bytes) : Answer :=
  let scope := fld p 4 4
  if 4 ≤ scope then s.deny .cmdInvalid
  else
    let ok := s.unlockValid p
    let s := { s with sec := { s.sec with nonce := none } }
    if ok then .ok (s.unlock scope) else (s.logEvent 0x0707 none 0x0C 0 0 0).deny .unlockDenied

def execSecUnlock (id : Nat) (s : State) : Out := .next (s.runCmd id 0x0A04 (fun s _ b => s.secUnlock (chPayload b)))

end Sys2Proof.Machine
end

