-- ==== Sys2Proof/Machine/Identity.lean ====
section
/-!
DEFINITION. The MCTP control messages of the module's endpoint (R553) and the SPDM responder (R581, R582). The bodies follow
DSP0236 and DSP0274, which the spec names; a body starts at its command code (log 21).
-/

namespace Sys2Proof.Machine

/-! ### MCTP control messages (R553) -/

/-- A message leaves for an endpoint, while the management transports are served. -/
def State.sendMctp (s : State) (dest type : Nat) (body : Bytes) : State :=
  if s.mgmtServed then { s with mgmt := { s.mgmt with mctpOut := s.mgmt.mctpOut ++ [{ dest := dest, type := type, body := body }] } }
  else s

/-- A control response: command code, completion code, data. -/
def State.sendControl (s : State) (dest code cc : Nat) (data : Bytes) : State :=
  s.sendMctp dest 0 ([BitVec.ofNat 8 code, BitVec.ofNat 8 cc] ++ data)

/-- MCTP_SET_ENDPOINT_ID: the bus owner assigns the endpoint ID; 0 to 7 and 255 are no endpoint IDs. -/
def execMctpSetEndpointId (source eid : Nat) (s : State) : Out :=
  .next (if !s.mgmtServed then s
    else if eid < 8 || 254 < eid then s.sendControl source 1 2 []
    else
      { s with mgmt := { s.mgmt with eid := eid, busOwner := some source } }.sendControl source 1 0 [0, BitVec.ofNat 8 eid, 0])

/-- MCTP_GET_ENDPOINT_ID. -/
def execMctpGetEndpointId (source : Nat) (s : State) : Out := .next (s.sendControl source 2 0 [BitVec.ofNat 8 s.mgmt.eid, 0, 0])

/-- GET_MCTP_VERSION_SUPPORT: for the base, control messages, SPDM and the vendor's commands. -/
def execGetMctpVersionSupport (source msgType : Nat) (s : State) : Out :=
  .next (if [0xFF, 0x00, 0x05, 0x7E].contains msgType then s.sendControl source 4 0 ([1] ++ natLe 4 (Config.mctpVersion msgType).toNat)
    else s.sendControl source 4 0x80 [])

/-- GET_MESSAGE_TYPE_SUPPORT: SPDM and the vendor's commands. -/
def execGetMessageTypeSupport (source : Nat) (s : State) : Out := .next (s.sendControl source 5 0 [2, 0x05, 0x7E])

/-- GET_VENDOR_DEFINED_MESSAGE_SUPPORT: the one set is the PCI vendor ID's. -/
def execGetVendorDefinedMessageSupport (source selector : Nat) (s : State) : Out :=
  .next (if selector = 0 then
      s.sendControl source 6 0 ([0xFF, 0, BitVec.ofNat 8 (s.ident.vendorId / 256), BitVec.ofNat 8 s.ident.vendorId] ++
        natLe 2 Config.vendorCommandSet.toNat)
    else s.sendControl source 6 2 [])

/-! ### SPDM (R581, R582) -/

/-- The certificate chain of slot 0, rooted in the sample authority for A0 and in the production authority for B1 (R9,
R581). -/
def State.certificateChain (s : State) : Bytes := Config.rootCertificate s.ident.b1 ++ Config.deviceCertificates

/-- An SPDM response leaves and joins the transcript. -/
def State.sendSpdm (s : State) (dest code p1 p2 : Nat) (data : Bytes) : State :=
  let v := if s.mgmt.spdmVersion = 0 then 0x10 else s.mgmt.spdmVersion
  let body := [BitVec.ofNat 8 v, BitVec.ofNat 8 code, BitVec.ofNat 8 p1, BitVec.ofNat 8 p2] ++ data
  { s with mgmt := { s.mgmt with spdmTranscript := s.mgmt.spdmTranscript ++ body } }.sendMctp dest 5 body

/-- An ERROR response: 1 invalid request, 4 unexpected request, 0x41 version mismatch. -/
def State.spdmError (s : State) (dest e : Nat) : State := s.sendMctp dest 5 [0x11, 0x7F, BitVec.ofNat 8 e, 0]

/-- SPDM_GET_VERSION: versions 1.1 and 1.2; a new exchange begins. -/
def execSpdmGetVersion (source : Nat) (s : State) : Out :=
  .next (if !s.mgmtServed then s
    else
      { s with mgmt := { s.mgmt with spdmVersion := 0, spdmAlgorithms := false, spdmTranscript := [] } }.sendSpdm source 0x04 0 0
        [0, 2, 0x00, 0x11, 0x00, 0x12])

/-- SPDM_GET_CAPABILITIES: certificates, challenges and signed measurements. -/
def execSpdmGetCapabilities (source version : Nat) (s : State) : Out :=
  .next (if !s.mgmtServed then s
    else if version = 0x11 || version = 0x12 then
      { s with mgmt := { s.mgmt with spdmVersion := version } }.sendSpdm source 0x61 0 0 ([0, 0, 0, 0] ++ natLe 4 0x16)
    else s.spdmError source 0x41)

/-- SPDM_NEGOTIATE_ALGORITHMS: ECDSA with P-384 and SHA-384 only. -/
def execSpdmNegotiateAlgorithms (source : Nat) (asym hash : W32) (s : State) : Out :=
  .next (if !s.mgmtServed then s
    else if s.mgmt.spdmVersion = 0 then s.spdmError source 4
    else if asym.getLsbD 7 && hash.getLsbD 1 then
      { s with mgmt := { s.mgmt with spdmAlgorithms := true } }.sendSpdm source 0x63 0 0
        (natLe 2 36 ++ [1, 0] ++ natLe 4 4 ++ natLe 4 0x80 ++ natLe 4 2 ++ List.replicate 16 (0 : Byte))
    else s.spdmError source 1)

/-- A request that needs the algorithms. -/
def State.whenNegotiated (s : State) (dest : Nat) (f : State) : State :=
  if !s.mgmtServed then s else if s.mgmt.spdmAlgorithms then f else s.spdmError dest 4

/-- SPDM_GET_DIGESTS: slot 0 only. -/
def execSpdmGetDigests (source : Nat) (s : State) : Out :=
  .next (s.whenNegotiated source (s.sendSpdm source 0x01 0 1 (padTo 48 (Sha.sha384 s.certificateChain))))

/-- SPDM_GET_CERTIFICATE: a part of the chain of slot 0. -/
def execSpdmGetCertificate (source slot offset len : Nat) (s : State) : Out :=
  let chain := s.certificateChain
  let part := (chain.drop offset).take len
  .next (s.whenNegotiated source
    (if slot = 0 && offset < chain.length then
      s.sendSpdm source 0x02 0 0 (natLe 2 part.length ++ natLe 2 (chain.length - offset - part.length) ++ part)
    else s.spdmError source 1))

/-- The allotments, admission, filter, node number and route tables that index 4 measures. -/
def State.configBytes (s : State) : Bytes :=
  let table (m : FMap W64) : Bytes := m.flatMap (fun (kv : Nat × W64) => natLe 2 kv.1 ++ natLe 8 kv.2.toNat)
  s.host.allots.flatMap allotBytes ++ [if s.mod.admitted then 1 else 0] ++ s.mgmt.aclRequesters.flatMap (natLe 2) ++
    natLe 2 s.mgmt.aclMatch ++ natLe 2 s.mgmt.aclMask ++ natLe 2 s.fab.node ++
    s.fab.ports.flatMap (fun (kp : Nat × Port) => natLe 2 kp.1 ++ table kp.2.groupTable ++ table kp.2.memberTable) ++
    table s.fab.niGroup ++ table s.fab.niMember

/-- The bytes whose SHA-384 an index reports (R582). -/
def State.measured (s : State) (i : Nat) : Bytes :=
  let image (b : Bool) : Bytes := imgBytes (s.slot b) 0 (256 + imgBodyLen (s.slot b))
  match i with
  | 1 => Config.bootRom ++ natLe 4 s.fw.minSvn ++ natLe 4 s.sec.scope
  | 2 => image s.fw.runningB
  | 3 => image (!s.fw.runningB)
  | 4 => s.configBytes
  | _ => natLe 4 s.sec.scope

/-- A measurement block. -/
def State.measurement (s : State) (i : Nat) : Bytes :=
  [BitVec.ofNat 8 i, 1] ++ natLe 2 51 ++ [BitVec.ofNat 8 (i - 1)] ++ natLe 2 48 ++ padTo 48 (Sha.sha384 (s.measured i))

/-- A response that the device key signs over the transcript, with a fresh nonce. -/
def State.signSpdm (s : State) (dest code p1 p2 : Nat) (head nonce tail : Bytes) : State :=
  let own := padTo 32 (Config.nonce s.free)
  let signedOver := s.mgmt.spdmTranscript ++ nonce ++ head ++ own ++ tail
  let sig := padTo 96 (Config.deviceSignature s.free signedOver)
  { s with free := s.free + 1 }.sendSpdm dest code p1 p2 (head ++ own ++ tail ++ sig)

/-- SPDM_CHALLENGE: the device key signs the exchange with the chain's digest and the summary of all measurements. -/
def execSpdmChallenge (source slot : Nat) (nonce : Bytes) (s : State) : Out :=
  let summary := padTo 48 (Sha.sha384 ([1, 2, 3, 4, 5].flatMap s.measurement))
  .next (s.whenNegotiated source
    (if slot = 0 then s.signSpdm source 0x03 0 1 (padTo 48 (Sha.sha384 s.certificateChain)) nonce (summary ++ [0, 0])
     else s.spdmError source 1))

/-- SPDM_GET_MEASUREMENTS: index 0 asks how many there are, 255 for all of them. -/
def execSpdmGetMeasurements (source index : Nat) (nonce : Bytes) (s : State) : Out :=
  let blocks := if index = 0 then [] else if index = 255 then [1, 2, 3, 4, 5] else [index]
  let body := blocks.flatMap s.measurement
  .next (s.whenNegotiated source
    (if index ≤ 5 || index = 255 then
      s.signSpdm source 0x60 (if index = 0 then 5 else 0) 0 ([BitVec.ofNat 8 blocks.length] ++ natLe 3 body.length ++ body) nonce [0, 0]
    else s.spdmError source 1))

end Sys2Proof.Machine
end

