-- ==== Sys2Proof/Machine/SysTime.lean ====
section
/-!
DEFINITION. System time (R619 to R623), PPS_IN (R646) and HALT_N (R635).
-/

namespace Sys2Proof.Machine

/-! ### The counter (R619) -/

/-- The counter's reading at a time. -/
def State.sysAt (s : State) (u : Nat) : Int :=
  if s.tk.baseAt ≤ u then { s with time := u }.sysTime else Int.ofNat s.tk.base - Int.ofNat (nsOf (s.tk.baseAt - u))

/-- The counter is stepped to a reading and its rate word set, within ±200 ppm. -/
def State.setCounter (s : State) (v : Int) (rate : Int) : State :=
  { s with tk := { s.tk with base := v.toNat, baseAt := s.time, ratePpb := max (-200000) (min 200000 rate) } }

/-! ### Sources and the parent port (R620, R622) -/

/-- An offered source: class, node, steps. -/
abbrev Source := Nat × Nat × Nat

/-- The module's own source: a 1588 master with or without a valid PPS_IN, else its free-running counter (R620). -/
def State.ownSource (s : State) : Source := (if s.tk.ownMaster then (if s.tk.ppsValid then 1 else 2) else 3, s.fab.node, 0)

/-- A source ranks before another: by class, then by node, lower first. -/
def Source.better (a b : Source) : Bool := a.1 < b.1 || (a.1 == b.1 && a.2.1 < b.2.1)

/-- The best announced source with its port; fewer steps, then the lower port, break a tie. -/
def State.bestAnnounced (s : State) : Option (Nat × Source) :=
  let all : List (Nat × Source) := (s.tk.announces.filter (fun (ka : Nat × Announce) => ka.2.source ≠ s.fab.node)).map
    (fun (ka : Nat × Announce) => (ka.1, (ka.2.cls, ka.2.source, ka.2.steps)))
  let before (a b : Nat × Source) : Bool :=
    Source.better a.2 b.2 || (!Source.better b.2 a.2 && (a.2.2.2 < b.2.2.2 || (a.2.2.2 == b.2.2.2 && a.1 < b.1)))
  all.foldl (fun (a : Option (Nat × Source)) x => match a with | none => some x | some y => if before x y then some x else some y) none

/-- The parent port is chosen: the best announced source where it ranks before the own one; with neither parent nor master, a
module that holds time is in holdover (R622, R623). -/
def State.chooseParent (s : State) : State :=
  let p := match s.bestAnnounced with
    | some a => if Source.better a.2 s.ownSource then some a.1 else none
    | none => none
  let changed := !(decide (p = s.tk.parent))
  { s with tk := { s.tk with parent := p
                             good := if changed then 0 else s.tk.good
                             holdover := s.tk.held && p.isNone && !s.tk.ownMaster } }

/-- The source that the module offers: its parent's one link further, or its own; class 0xFF while it holds no time. -/
def State.offer (s : State) : Source :=
  if !s.tk.held then (0xFF, s.fab.node, 0)
  else
    match s.tk.parent.bind (fun p => FMap.find? s.tk.announces p) with
    | some a => (a.cls, a.source, a.steps + 1)
    | none => s.ownSource

/-! ### TIME packets (R621) -/

def timePayload (kind : Nat) (o : Source) (id t1 : Nat) : Bytes :=
  padTo 48 ([BitVec.ofNat 8 kind, BitVec.ofNat 8 o.1] ++ natLe 2 o.2.1 ++ natLe 2 o.2.2 ++ natLe 2 id ++ natLe 8 t1)

/-- A TIME packet for the partner of a port that is UP. -/
def State.sendTime (s : State) (p kind id t1 : Nat) : State :=
  let s := s.markDepth p
  let x := s.port p
  match x.state, x.partner with
  | .up, some (node, _, _) =>
    let k := { mkPacket node 0x21 0 0 0 0 (timePayload kind s.offer id t1) with src := s.fab.node }
    s.setPort p { x with queue := x.queue ++ [{ req := 24, hub := portHub p, seat := none, pkt := k, sent := 0, origin := [] }] }
  | _, _ => s

/-- A TIME packet of a KIND at a place of the released packets, taken, with its port; one of another length or of a reserved KIND
is discarded. -/
def State.takeTime (s : State) (i kind : Nat) : State × Option Inbound :=
  match s.taken i [0x21] with
  | none => (s, none)
  | some q =>
    let k := byteAt q.pkt.payload 0
    if q.pkt.payload.length ≠ 48 || k = 0 || 6 < k || 24 ≤ q.port then (s.dropTaken i false, none)
    else if k = kind then (s.dropTaken i false, some q)
    else (s, none)

def tpId (b : Bytes) : Nat := fld b 6 2
def tpT1 (b : Bytes) : Nat := fld b 8 8
/-- CORR in whole ns, rounded down. -/
def tpCorr (b : Bytes) : Int := (BitVec.ofNat 64 (fld b 16 8)).toInt / 65536

/-- ANNOUNCE: what the partner of a port offers; 0xFF is no source. -/
def State.announced (s : State) (p : Nat) (b : Bytes) : State :=
  let c := byteAt b 1
  let a : Announce := { cls := c, source := fld b 2 2, steps := fld b 4 2, at_ := s.time }
  let m := if 1 ≤ c && c ≤ 3 then FMap.insert s.tk.announces p a else FMap.erase s.tk.announces p
  { s with tk := { s.tk with announces := m } }.chooseParent

def State.onTime (s : State) (i kind : Nat) (f : State → Nat → Inbound → State) : State :=
  match s.takeTime i kind with
  | (s, some q) => f s q.port q
  | (s, none) => s

def execAnnounce (index : Nat) (s : State) : Out := .next (s.onTime index 1 (fun s p q => s.announced p q.pkt.payload))

/-- TIME_SYNC: its receive stamp is kept. -/
def execTimeSync (index : Nat) (s : State) : Out :=
  .next (s.onTime index 2 (fun s p q => { s with tk := { s.tk with syncs := FMap.insert s.tk.syncs p (tpId q.pkt.payload, q.at_) } }))

/-- The servo takes an offset estimate; 16 in a row within 100 ns, and the module holds time (R619, R623). -/
def State.servo (s : State) (offset : Int) : State :=
  let good := if decide (-100 ≤ offset) && decide (offset ≤ 100) then s.tk.good + 1 else 0
  let v := s.sysAt s.time + Config.servoStep s.free offset
  let s := { s with free := s.free + 1 }.setCounter v (Config.servoRate s.free offset)
  { s with tk := { s.tk with good := good, held := s.tk.held || decide (16 ≤ good) } }

/-- FOLLOW_UP: the parent's time at the SYNC of the same exchange gives the offset (R623). -/
def State.followUp (s : State) (p : Nat) (b : Bytes) : State :=
  match FMap.find? s.tk.syncs p with
  | none => s
  | some (id, at_) =>
    let s := { s with tk := { s.tk with syncs := FMap.erase s.tk.syncs p } }
    if id ≠ tpId b || !(decide (s.tk.parent = some p)) then s
    else s.servo (s.sysAt at_ - (Int.ofNat (tpT1 b) + tpCorr b + FMap.get 0 s.tk.linkDelay p))

def execFollowUp (index : Nat) (s : State) : Out := .next (s.onTime index 3 (fun s p q => s.followUp p q.pkt.payload))

/-- PDELAY_REQ: answered with its receive stamp, then with the answer's transmit stamp. -/
def execPdelayReq (index : Nat) (s : State) : Out :=
  .next (s.onTime index 4 (fun s p q =>
    let id := tpId q.pkt.payload
    (s.sendTime p 5 id (s.sysAt q.at_).toNat).sendTime p 6 id (s.sysAt s.time).toNat))

/-- PDELAY_RESP: the stamps of the port's exchange are kept. -/
def execPdelayResp (index : Nat) (s : State) : Out :=
  .next (s.onTime index 5 (fun s p q =>
    match FMap.find? s.tk.pdelays p with
    | some x =>
      if x.id ≠ tpId q.pkt.payload then s
      else { s with tk := { s.tk with pdelays := FMap.insert s.tk.pdelays p { x with t2 := some (tpT1 q.pkt.payload), t4 := (s.sysAt q.at_).toNat } } }
    | none => s))

/-- PDELAY_FOLLOW_UP: half of what the round trip took beyond the partner's turnaround is the link's delay. -/
def execPdelayFollowUp (index : Nat) (s : State) : Out :=
  .next (s.onTime index 6 (fun s p q =>
    match FMap.find? s.tk.pdelays p with
    | some x =>
      match x.t2 with
      | some t2 =>
        if x.id ≠ tpId q.pkt.payload then s
        else
          let d := ((Int.ofNat x.t4 - Int.ofNat x.t1) - (Int.ofNat (tpT1 q.pkt.payload) - Int.ofNat t2) - tpCorr q.pkt.payload) / 2
          { s with tk := { s.tk with pdelays := FMap.erase s.tk.pdelays p, linkDelay := FMap.put 0 s.tk.linkDelay p d } }
      | none => s
    | none => s))

/-- ANNOUNCE_SEND: ANNOUNCE and a peer-delay request leave by a port in UP (R622). -/
def State.announceSend (s : State) (p : Nat) : State :=
  if 24 ≤ p || (s.port p).state ≠ .up then s
  else
    let id := s.tk.nextId
    let s := (s.sendTime p 1 id 0).sendTime p 4 id 0
    { s with tk := { s.tk with nextId := (id + 1) % 65536
                               pdelays := FMap.insert s.tk.pdelays p { id := id, t1 := (s.sysAt s.time).toNat, t2 := none, t4 := 0 } } }

def execAnnounceSend (port : Nat) (s : State) : Out := .next (s.announceSend port)

/-- A port takes SYNCs from here: it is not the parent port and its partner offers no source as good (R622). -/
def State.syncsTo (s : State) (p : Nat) : Bool :=
  s.tk.held && !(decide (s.tk.parent = some p)) &&
    (match FMap.find? s.tk.announces p with
     | some a => Source.better s.offer (a.cls, a.source, a.steps) || (s.tk.parent.isNone && s.tk.ownMaster)
     | none => true)

/-- SYNC_SEND: SYNC and FOLLOW_UP leave by a port (R622). -/
def State.sendSyncs (s : State) (p : Nat) : State :=
  if 24 ≤ p || (s.port p).state ≠ .up || !s.syncsTo p then s
  else
    let id := s.tk.nextId
    let s := (s.sendTime p 2 id 0).sendTime p 3 id (s.sysAt s.time).toNat
    { s with tk := { s.tk with nextId := (id + 1) % 65536 } }

def execSyncSend (port : Nat) (s : State) : Out := .next (s.sendSyncs port)

/-- PARENT_ANNOUNCE_TIMEOUT: no ANNOUNCE has come on the parent port for 3 s (R623). -/
def execParentAnnounceTimeout (s : State) : Out :=
  .next (match s.tk.parent with
    | some p => { s with tk := { s.tk with announces := FMap.erase s.tk.announces p } }.chooseParent
    | none => s)

/-- HOLDOVER_EXPIRY: after 600 s without a source the module stops holding time (R623). -/
def execHoldoverExpiry (s : State) : Out :=
  .next (if s.tk.holdover then { s with tk := { s.tk with held := false, holdover := false, good := 0 } } else s)

/-! ### The management lane and PPS_IN (R620, R646, R647) -/

/-- The whole second nearest to a reading. -/
def nearestSecond (v : Int) : Int := (v + 500000000) / 1000000000 * 1000000000

/-- PTP_FRAME: an IEEE 1588 frame gives the master's time, any other frame is discarded; a module whose own source is in force
locks to it: with a valid PPS_IN the master gives the second only. -/
def State.ptpFrame (s : State) (frame : Bytes) (t : Nat) : State :=
  if !s.mod.refereeRuns || (frame.drop 12).take 2 ≠ [0x88, 0xF7] then s
  else
    let s := { s with tk := { s.tk with ownMaster := true } }.chooseParent
    if s.tk.parent.isSome then s
    else
      let now := s.sysAt s.time
      let v := if s.tk.ppsValid then now + nearestSecond (Int.ofNat t - now) else Int.ofNat t
      let s := s.setCounter v s.tk.ratePpb
      { s with tk := { s.tk with held := true } }

def execPtpFrame (frame : Bytes) (masterTime : Nat) (s : State) : Out := .next (s.ptpFrame frame masterTime)

/-- An edge that is not accepted sets every function's PPS rejection flag (R646, R660). -/
def State.ppsRejectAll (s : State) : State :=
  ((List.range 64).filter s.fnPresent).foldl (fun (s : State) n => s.setFn n { s.fn n with ppsReject := true
                                                                                           setAt := FMap.insert (s.fn n).setAt 8 s.hcNow }) s

/-- PPS_IN_EDGE: accepted 1 s ± 100 µs after the edge before; three accepted intervals make PPS_IN valid; with a master the pulse
sets the phase. -/
def State.ppsEdge (s : State) : State :=
  let ok := match s.tk.ppsLast with
    | some t => secondUnits ≤ s.time - t + 100 * usUnits && s.time - t ≤ secondUnits + 100 * usUnits
    | none => false
  if ok then
    let n := s.tk.ppsGood + 1
    let s := { s with tk := { s.tk with ppsLast := some s.time, ppsGood := n, ppsValid := s.tk.ppsValid || decide (3 ≤ n) } }.chooseParent
    if s.tk.ppsValid && s.tk.ownMaster && s.tk.parent.isNone then s.setCounter (nearestSecond (s.sysAt s.time)) s.tk.ratePpb else s
  else { s with tk := { s.tk with ppsLast := some s.time, ppsGood := 0, ppsValid := false } }.ppsRejectAll.chooseParent

def execPpsInEdge (s : State) : Out := .next (if s.mod.refereeRuns then s.ppsEdge else s)

/-- PPS_TIMEOUT: 1.2 s without an accepted edge (R646). -/
def execPpsTimeout (s : State) : Out := .next { s with tk := { s.tk with ppsValid := false, ppsGood := 0 } }.chooseParent

/-! ### HALT_N (R635) -/

/-- HALT_N_ASSERT: every seat's latch is set. -/
def execHaltNAssert (s : State) : Out :=
  .next { s with pins := { s.pins with haltN := false }
                 seats := s.seats.map (fun (ks : Nat × Seat) => (ks.1, { ks.2 with haltLatch := true })) }

/-- HALT_N_DEASSERT: the seats that HALT_N has halted while it was asserted run on, their latches cleared, which is no change by
their own command; one that it halted after its release waits for TURN_RESUME (R540, R635). -/
def execHaltNDeassert (s : State) : Out :=
  .next (if s.pins.haltN then s
    else s.seats.foldl (fun (s : State) (ks : Nat × Seat) =>
      if ks.2.state = .halted && ks.2.haltCause = 1 && ks.2.haltHeld && ks.2.drain.isNone then
        ((s.onSeat ks.1 (fun x => { x with haltLatch := false })).resumeSeat ks.1).seatChanged ks.1
      else s) { s with pins := { s.pins with haltN := true } })

end Sys2Proof.Machine
end

