-- ==== Sys2Proof/Machine/Registers.lean ====
section
/-!
DEFINITION. The PCIe functions (20): BAR0 registers, ring registers and doorbells (R658 to R668), MSI-X (R670), BAR2 (R671 to
R673), and what resets a function (R500, R545, R610, R645).
-/

namespace Sys2Proof.Machine

/-- The host ports are served: the identification page from INIT on, rings too (R606, R610). -/
def State.hostServed (s : State) (fn : Nat) : Bool :=
  fn < 64 && s.fnPresent fn && (s.mod.state == .init || s.mod.state == .ready || s.mod.state == .failsafe)

/-! ### Ring registers (R663 to R665) -/

/-- An enable succeeds: both addresses are set and every field of RQ_CFG lies in its range (R664). -/
def Ring.cfgOk (r : Ring) : Bool :=
  let c := r.cfg.toNat
  let sq := c % 32
  let cq := c / 2 ^ 8 % 32
  r.sqBase != 0 && r.cqBase != 0 && 6 ≤ sq && sq ≤ 16 && 6 ≤ cq && cq ≤ 16 && 1 ≤ rqVector r.cfg
    && 1 ≤ rqCount r.cfg && rqCount r.cfg ≤ 256 && rqTime r.cfg ≤ 1000

/-- A ring pair is enabled, or refuses with CFG_INVALID. -/
def Ring.enabled (r : Ring) : Ring :=
  if r.cfgOk then
    { r with enable := true, state := .enabled, cfgInvalid := false, sqHead := 0, sqTail := 0, cqHead := 0, cqTail := 0, phase := true,
             outstanding := 0, unsignalled := 0, firstIrq := 0 }
  else { r with cfgInvalid := true }

/-- A command of a ring runs or, a launch, has its kernel in progress (R543, R545). -/
def State.running (s : State) (c : Cmd) : Bool :=
  if chOpcode c.packet = 0x0401 then s.seats.any (fun (ks : Nat × Seat) => match ks.2.running with | some r => r.launch.cmd == c.id | none => false)
  else c.begun

/-- The commands of a ring: those that run end with their completions discarded, the others are dropped (R545). -/
def State.dropRing (s : State) (fn q : Nat) : State :=
  let mine (c : Cmd) : Bool := decide (c.issuer = .ring fn q)
  let gone := s.host.cmds.filter (fun (c : Cmd) => mine c && !s.running c)
  let ids : List Nat := gone.map (fun (c : Cmd) => c.id)
  let r := s.ring fn q
  let s := { s with
    host := { s.host with cmds := (s.host.cmds.filter (fun (c : Cmd) => !ids.contains c.id)).map (fun (c : Cmd) => if mine c then { c with discard := true } else c) }
    seats := s.seats.map (fun (ks : Nat × Seat) => (ks.1, { ks.2 with launches := ks.2.launches.filter (fun l => !ids.contains l.cmd) })) }
  let s := s.setRing fn q { r with outstanding := r.outstanding - ids.length }
  s.seats.foldl (fun (s : State) (ks : Nat × Seat) => s.seatSettle ks.1) s

/-- A ring pair is reset (R665). -/
def State.ringReset (s : State) (fn q : Nat) : State :=
  let r := s.ring fn q
  (s.setRing fn q { r with state := .resetting, enable := false, badTail := false, badHeader := false, badHead := false }).dropRing fn q

/-- A write of RQ_CTL: RESET, or ENABLE 0 while the pair is ENABLED or in ERROR, resets; ENABLE 1 enables a DISABLED pair. -/
def State.rqCtl (s : State) (fn q : Nat) (v : W64) : State :=
  let r := s.ring fn q
  if v.getLsbD 1 then s.ringReset fn q
  else if v.getLsbD 0 then (if r.state = .disabled then s.setRing fn q r.enabled else s)
  else if r.state = .enabled || r.state = .error then s.ringReset fn q
  else s

/-- RING_ENABLE: RQ_CTL is written. -/
def execRingEnable (fn ring : Nat) (value : W64) (s : State) : Out :=
  .next (if s.hostServed fn && ring < 4 then s.rqCtl fn ring value else s)

/-- RING_RESET: RQ_CTL is written. -/
def execRingReset (fn ring : Nat) (value : W64) (s : State) : Out :=
  .next (if s.hostServed fn && ring < 4 then s.rqCtl fn ring value else s)

/-- RING_RESET_DONE: no command of the pair runs: it is DISABLED (R665). -/
def execRingResetDone (fn ring : Nat) (s : State) : Out :=
  .next (let r := s.ring fn ring
    if ring < 4 && r.state = .resetting && !(s.host.cmds.any (fun c => decide (c.issuer = .ring fn ring))) then
      s.setRing fn ring { r with state := .disabled, outstanding := 0 }
    else s)

/-! ### Doorbells (R531, R532, R666) -/

/-- A new submission tail. -/
def State.dbTail (s : State) (fn q : Nat) (v : W64) : State :=
  let r := s.ring fn q
  if r.state ≠ .enabled then s
  else if v.toNat < rqSq r.cfg then s.setRing fn q { r with sqTail := v.toNat }
  else s.ringError fn q (fun r => { r with badTail := true })

/-- A new completion head. -/
def State.dbHead (s : State) (fn q : Nat) (v : W64) : State :=
  let r := s.ring fn q
  let h := v.toNat % 65536
  let size := rqCq r.cfg
  if r.state ≠ .enabled || h = r.cqHead then s
  else if h < size && (h + size - r.cqHead) % size ≤ (r.cqTail + size - r.cqHead) % size then s.setRing fn q { r with cqHead := h }
  else s.ringError fn q (fun r => { r with badHead := true })

def execDbSqTail (fn ring : Nat) (value : W64) (s : State) : Out :=
  .next (if s.hostServed fn && ring < 4 then s.dbTail fn ring value else s)

def execDbCqHead (fn ring : Nat) (value : W64) (s : State) : Out :=
  .next (if s.hostServed fn && ring < 4 then s.dbHead fn ring value else s)

/-! ### Event registers and the aperture (R661, R662, R671) -/

/-- The bits of EVT_STATUS that the hardware set in the hc that runs. -/
def State.evtJustSet (s : State) (fn : Nat) : BitVec 7 :=
  (s.fn fn).setAt.foldl (fun b ka => if ka.2 = s.hcNow then b ||| BitVec.ofNat 7 (2 ^ ka.1) else b) 0

/-- EVT_STATUS_CLEAR: a write of EVT_STATUS clears the bits that are 1, but for those that the hardware sets in the same hc
(R15). -/
def State.evtClear (s : State) (fn : Nat) (v : W64) : State :=
  let f := s.fn fn
  s.setFn fn { f with evtStatus := f.evtStatus &&& (~~~(v.setWidth 7) ||| s.evtJustSet fn) }

def execEvtStatusClear (fn : Nat) (value : W64) (s : State) : Out := .next (if s.hostServed fn then s.evtClear fn value else s)

/-- EVT_ENABLE_WRITE: a one written over a status bit that is 1 raises the vector once. -/
def State.evtEnable (s : State) (fn : Nat) (v : W64) : State :=
  let f := s.fn fn
  let s := s.setFn fn { f with evtEnable := v.setWidth 7 }
  if v.setWidth 7 &&& f.evtStatus = 0 then s else s.raiseVector fn 0

def execEvtEnableWrite (fn : Nat) (value : W64) (s : State) : Out := .next (if s.hostServed fn then s.evtEnable fn value else s)

/-- BAR2_APERTURE_WRITE. -/
def State.setAperture (s : State) (fn : Nat) (v : W64) : State := s.setFn fn { s.fn fn with aperture := v.setWidth 9 }

def execBar2ApertureWrite (fn : Nat) (value : W64) (s : State) : Out := .next (if s.hostServed fn then s.setAperture fn value else s)

/-! ### MSI-X (R670) -/

/-- The pending vectors that are masked no longer are sent, once. -/
def State.sendPending (s : State) (fn : Nat) : State :=
  let f := s.fn fn
  if f.msixMasked then s
  else
    let due := f.msixPending.filter (fun v => !(FMap.get {} f.msix v).masked)
    let s := s.setFn fn { f with msixPending := f.msixPending.filter (fun v => (FMap.get {} f.msix v).masked) }
    { s with host := { s.host with msixSent := s.host.msixSent ++ due.map (fun v => (fn, v)) } }

/-- MSIX_UNMASK: a vector is unmasked by its entry, or all of them, from 128 on, by the function mask. -/
def State.msixUnmask (s : State) (fn v : Nat) : State :=
  let f := s.fn fn
  if v < 128 then (s.setFn fn { f with msix := FMap.put {} f.msix v { FMap.get {} f.msix v with masked := false } }).sendPending fn
  else (s.setFn fn { f with msixMasked := false }).sendPending fn

def execMsixUnmask (fn vector : Nat) (s : State) : Out := .next (if s.hostServed fn then s.msixUnmask fn vector else s)

/-! ### Reading BAR0 (R658 to R668) -/

def b64 (b : Bool) (i : Nat) : Nat := if b then 2 ^ i else 0

/-- The identification page (R660). -/
def State.idReg (s : State) (fn o : Nat) : Nat :=
  let m := s.fw.image
  match o / 8 with
  | 0 => fld (orderBytes s.ident.code) 0 8
  | 1 => fld (orderBytes s.ident.code) 8 8
  | 2 => fld s.ident.serial 0 8
  | 3 => fld s.ident.serial 8 8
  | 4 => fld (steppingBytes s.ident.b1) 0 2 + b64 s.ident.b1 16
  | 5 => imgVersion m + imgArithLo m * 2 ^ 32 + imgArithHi m * 2 ^ 48
  | 6 => imgCpl m + b64 s.fw.runningB 8 + s.fab.node * 2 ^ 16 + s.ident.ltiles * 2 ^ 32 + s.spareTiles.length * 2 ^ 48
  | 7 => modCode s.mod.state + b64 s.mod.degraded 3 + b64 s.mod.admitted 4 + b64 s.clk.lockstep 5 + b64 s.tk.held 6 + b64 s.tk.ppsValid 7
      + b64 (s.fn fn).ppsReject 8
  | 8 => s.beat
  | 9 => if s.tk.held then s.sysTime else 0
  | 10 => fn + fn / 16 * 64 + b64 (fn % 16 == 0) 8
  | _ => 0

/-- The seat page (R661). -/
def State.seatReg (s : State) (fn o : Nat) : Nat :=
  let f := s.fn fn
  let inError := (List.range 4).foldl (fun a q => a + b64 (decide ((s.ring fn q).state = .error)) q) 0
  match o / 8, s.seat? fn with
  | 0, some x => stateCode x.state + (if x.state = .halted then x.haltCause * 16 else 0) + b64 x.lastLockstep 7
  | 1, some x => x.turn.toNat
  | 2, some x => x.epoch.toNat
  | 3, some x => x.lossBeat.toNat
  | 4, _ => f.evtStatus.toNat
  | 5, _ => f.evtEnable.toNat
  | 6, _ => inError
  | 7, _ => f.aperture.toNat
  | _, _ => 0

def ringCode : RingState → Nat
  | .disabled => 0 | .enabled => 1 | .error => 2 | .resetting => 3

/-- A ring pair's registers (R663). -/
def Ring.reg (r : Ring) (o : Nat) : Nat :=
  match o / 8 with
  | 0 => r.sqBase.toNat
  | 1 => r.cqBase.toNat
  | 2 => r.cfg.toNat
  | 3 => b64 r.enable 0
  | 4 => ringCode r.state + b64 r.cfgInvalid 2 + b64 r.badTail 3 + b64 r.badHeader 4 + b64 r.badHead 5 + r.outstanding * 2 ^ 32
  | 5 => r.sqHead
  | 6 => r.cqTail + b64 r.phase 16
  | _ => 0

/-- The counter block of a seat (R596 to R598). -/
def Pmc.reg (p : Pmc) (o : Nat) : Nat :=
  let i := o / 8 % 16
  if o = 0 then b64 p.freeze 0 + b64 p.snapFreeze 1
  else if o = 8 then b64 p.freeze 0 + b64 p.selDenied 1 + b64 p.snapLate 2 + p.deniedIdx * 256 + p.snapSeq.toNat * 2 ^ 32
  else if o = 0x10 then p.snapBeat.toNat
  else if 0x100 ≤ o && o < 0x180 then (p.sel.getD i 0).toNat
  else if 0x200 ≤ o && o < 0x280 then (p.ctr.getD i 0).toNat
  else if 0x300 ≤ o && o < 0x380 then (p.shadow.getD i 0).toNat
  else 0

/-- The counter page (R668). -/
def State.counterReg (s : State) (fn o : Nat) : Nat :=
  match s.seat? fn with
  | none => 0
  | some x =>
    if o < 0x380 then (x.pmc.settle s.time).reg o
    else if o = 0x408 then x.acctSeq.toNat
    else if 0x800 ≤ o && o < 0xA00 then x.acctSnap.getD ((o - 0x800) / 8) 0
    else 0

/-- The MSI-X table and its pending bits (R670). -/
def Func.msixReg (f : Func) (o : Nat) : Nat :=
  let e : MsixEntry := FMap.get {} f.msix (o / 16)
  if o % 16 = 0 then e.addr.toNat else e.data.toNat + b64 e.masked 32

/-- An aligned BAR0 register of a function, as its tables list it; any other offset reads as 0 (R658, R659). -/
def State.readReg (s : State) (fn off : Nat) : Nat :=
  let o := off % 4096
  match off / 4096 with
  | 0 => s.idReg fn o
  | 1 => s.seatReg fn o
  | 2 => if o < 0x400 then (s.ring fn (o / 256)).reg (o % 256) else 0
  | 3 => s.counterReg fn o
  | 8 => if o < 2048 then (s.fn fn).msixReg o else 0
  | 9 => if o < 16 then (s.fn fn).msixPending.foldl (fun a v => if v / 64 = o / 8 then a + 2 ^ (v % 64) else a) 0 else 0
  | _ => 0

/-! ### Writing BAR0 (R658) -/

/-- The value of a register with the halves that are written; of a WO register the other half is 0. -/
def merged (old : Nat) (lo hi : Option Nat) : W64 :=
  BitVec.ofNat 64 (lo.getD (old % 2 ^ 32) % 2 ^ 32 + hi.getD (old / 2 ^ 32) % 2 ^ 32 * 2 ^ 32)

/-- A ring register. -/
def State.writeRing (s : State) (fn q o : Nat) (lo hi : Option Nat) : State :=
  let r := s.ring fn q
  let v := merged (r.reg o) lo hi
  if o = 0x18 then (if lo.isSome then s.rqCtl fn q v else s)
  else if r.state ≠ .disabled then s
  else
    match o with
    | 0x00 => s.setRing fn q { r with sqBase := v &&& 0xFFFFFFFFFFFFF000 }
    | 0x08 => s.setRing fn q { r with cqBase := v &&& 0xFFFFFFFFFFFFF000 }
    | 0x10 => s.setRing fn q { r with cfg := v &&& 0x03FF01FF007F1F1F }
    | _ => s

/-- The high half of PMC_CTR waits for the next beat; a 1 written to OVF before is kept, since a 0 has no effect (R13). -/
def waitHigh (m : FMap W64) (k : Nat) (v : Option Nat) : FMap W64 :=
  let old := match FMap.find? m k with | some w => w.toNat / 2 ^ 31 % 2 * 2 ^ 31 | none => 0
  match v with | some w => FMap.insert m k (BitVec.ofNat 64 ((w % 2 ^ 32) ||| old)) | none => m

/-- One half of a register waits for the next beat. -/
def waitHalf (m : FMap W64) (k : Nat) (v : Option Nat) : FMap W64 :=
  match v with | some w => FMap.insert m k (BitVec.ofNat 64 (w % 2 ^ 32)) | none => m

/-- A write of PMC_STATUS clears SEL_DENIED and SNAP_LATE by ones, but for what is set in the same hc (R15, R598). -/
def Pmc.statusClear (p : Pmc) (hc : Nat) (v : W64) : Pmc :=
  { p with selDenied := p.selDenied && (!v.getLsbD 1 || p.deniedAt == some hc)
           snapLate := p.snapLate && (!v.getLsbD 2 || p.lateAt == some hc) }

/-- A register of the counter page. -/
def State.writeCounter (s : State) (fn o : Nat) (lo hi : Option Nat) : State :=
  let i := o / 8 % 16
  let v := merged 0 lo hi
  if o = 0 then (if lo.isSome then s.onPmc fn (fun p => p.ctl v) else s)
  else if o = 8 then s.onPmc fn (fun p => p.statusClear s.hcNow v)
  else if 0x100 ≤ o && o < 0x180 then s.onPmc fn (fun p => { p with waitSel := waitHalf (waitHalf p.waitSel (2 * i) lo) (2 * i + 1) hi })
  else if 0x200 ≤ o && o < 0x280 then s.onPmc fn (fun p => { p with waitCtr := waitHigh (waitHalf p.waitCtr (2 * i) lo) (2 * i + 1) hi })
  else if o = 0x400 && v.getLsbD 0 then s.onSeat fn (fun x => { x with acctSnap := x.acctFields, acctSeq := x.acctSeq + 1 })
  else s

/-- An MSI-X table entry; clearing its mask sends what is pending. -/
def State.writeMsix (s : State) (fn o : Nat) (lo hi : Option Nat) : State :=
  let f := s.fn fn
  let v := merged (f.msixReg o) lo hi
  let e : MsixEntry := FMap.get {} f.msix (o / 16)
  let e := if o % 16 = 0 then { e with addr := v } else { e with data := v.setWidth 32, masked := v.getLsbD 32 }
  (s.setFn fn { f with msix := FMap.put {} f.msix (o / 16) e }).sendPending fn

/-- A write of one or both halves of the register at an aligned offset. -/
def State.writeReg (s : State) (fn off : Nat) (lo hi : Option Nat) : State :=
  let o := off % 4096
  let w := merged 0 lo hi
  match off / 4096 with
  | 0 => if o = 0x38 && w.getLsbD 8 then s.setFn fn { s.fn fn with ppsReject := FMap.find? (s.fn fn).setAt 8 == some s.hcNow } else s
  | 1 =>
    match o with
    | 0x20 => s.evtClear fn w
    | 0x28 => if lo.isSome then s.evtEnable fn w else s
    | 0x38 => if lo.isSome then s.setAperture fn w else s
    | _ => s
  | 2 => if o < 0x400 then s.writeRing fn (o / 256) (o % 256) lo hi else s
  | 3 => s.writeCounter fn o lo hi
  | 8 => if o < 2048 then s.writeMsix fn o lo hi else s
  | p => if 4 ≤ p && p < 8 then (if o = 0 then s.dbTail fn (p - 4) w else if o = 8 then s.dbHead fn (p - 4) w else s) else s

/-- REGISTER_WRITE: a naturally aligned write of 8 or 4 bytes; any other sets BAD_ACCESS and is discarded. -/
def State.registerWrite (s : State) (fn off size : Nat) (v : W64) : State :=
  let half := v.toNat % 2 ^ 32
  if !s.hostServed fn || 65536 ≤ off then s
  else if size = 8 && off % 8 = 0 then s.writeReg fn off (some half) (some (v.toNat / 2 ^ 32))
  else if size = 4 && off % 8 = 0 then s.writeReg fn off (some half) none
  else if size = 4 && off % 8 = 4 then s.writeReg fn (off - 4) none (some half)
  else s.event fn evtBadAccess

def execRegisterWrite (fn offset size : Nat) (value : W64) (s : State) : Out := .next (s.registerWrite fn offset size value)

/-! ### BAR2 (R389, R394, R671 to R673) -/

/-- A completion leaves. -/
def State.reply (s : State) (fn : Nat) (r : PcieReply) : State := { s with host := { s.host with pcieOut := s.host.pcieOut ++ [(fn, r)] } }

/-- A refused request completes and is counted. -/
def State.refuseBar2 (s : State) (fn : Nat) (r : PcieReply) : State := (s.count 0xA000 (some fn) 0 1).reply fn r

/-- The package offset, in the seat's view, that a BAR2 offset reaches, or none at a reserved one (R671). -/
def Func.bar2Addr (f : Func) (o : Nat) : Option Nat :=
  let a := 2 ^ f.bar2Log2 - 2 ^ 32
  if o < a then (let h := f.aperture.toNat * 2 ^ 32 + o; if h < hbmEnd then some h else none)
  else
    let t := o - a
    if t < 120 * clusterBytes then some (clusterBase + t)
    else if 2 ^ 30 ≤ t && t < 2 ^ 30 + 960 * tileSlot then some (tileBase + (t - 2 ^ 30))
    else none

/-- What a BAR2 request reaches: a physical address, or how it completes. -/
def State.bar2Reach (s : State) (fn o n : Nat) : Except PcieReply (Nat × Nat) :=
  match s.seat? fn, (s.fn fn).bar2Addr o with
  | some x, some a =>
    match s.resolve x a n with
    | some p => if hbmEnd ≤ a && !(decide (x.preempt.phase = .none)) then .error .abort else .ok (a, p)
    | none => .error .unsupported
  | _, _ => .error .unsupported

/-- The lines of a host access go through the cache of its controller's hub, and its bytes from there to their place. -/
def State.hostAccess (s : State) (fn a n : Nat) (write : Bool) : State :=
  let s := s.carryHub (fn / 32) a n write
  if a < hbmEnd then
    ((linesOf a (a % 64 + n)).foldl (fun s l => s.cacheLine (fn / 32) l write) s).hbmCount fn a n write
  else s

/-- BAR2_READ: data after every earlier write, with EP where it touches poison. -/
def State.bar2Read (s : State) (fn o n : Nat) : State :=
  if !s.fnPresent fn || 64 ≤ fn then s
  else if s.mod.state ≠ .ready then s.reply fn .unsupported
  else
    match s.bar2Reach fn o n with
    | .error r => s.refuseBar2 fn r
    | .ok (_, p) =>
      let s := ((s.hostAccess fn p n false).charge fn acctPcieRd n).moved (56 + fn / 16) false n
      s.reply fn (.data (s.bytes p n) (s.rangePoison p n).isSome)

def execBar2Read (fn offset len : Nat) (s : State) : Out := .next (s.bar2Read fn offset len)

/-- BAR2_WRITE. -/
def State.bar2Write (s : State) (fn o : Nat) (b : Bytes) : State :=
  if !s.fnPresent fn || 64 ≤ fn then s
  else if s.mod.state ≠ .ready then s.reply fn .unsupported
  else
    match s.bar2Reach fn o b.length with
    | .error r => s.refuseBar2 fn r
    | .ok (_, p) => (((s.hostAccess fn p b.length true).store p b).charge fn acctPcieWr b.length).moved (56 + fn / 16) true b.length

def execBar2Write (fn offset : Nat) (data : Bytes) (s : State) : Out := .next (s.bar2Write fn offset data)

/-- BAR2_ATOMICOP: Unsupported Request (R394, R672). -/
def execBar2Atomicop (fn _offset : Nat) (s : State) : Out :=
  .next (if !s.fnPresent fn || 64 ≤ fn then s
    else if s.mod.state ≠ .ready then s.reply fn .unsupported else s.refuseBar2 fn .unsupported)

/-! ### Configuration, function and link resets (R500, R545, R610, R645) -/

/-- PCIE_CONFIG_REQUEST: answered with retry status until the controller is configured; what its registers hold then is not said. -/
def execPcieConfigRequest (port : Nat) (s : State) : Out :=
  .next (if !s.portPresent port || s.mod.state = .reset || s.mod.state = .hold then s
    else if s.host.configured.getD (port / 2) false then
      let r := s.fresh
      r.2.reply (16 * port) (.data (natLe 4 r.1.toNat) false)
    else s.reply (16 * port) .retry)

/-- A function is reset: its rings' commands are discarded or dropped, its registers are as after reset. -/
def State.resetFn (s : State) (fn : Nat) : State :=
  let s := (List.range 4).foldl (fun (s : State) q => s.dropRing fn q) s
  s.setFn fn {}

/-- FUNCTION_LEVEL_RESET: the function's seat is destroyed; of a physical function, every function and seat of its port (R500). -/
def State.flr (s : State) (fn : Nat) : State :=
  if !s.fnPresent fn || 64 ≤ fn then s
  else
    let fns := if fn % 16 = 0 then (List.range 16).map (fun i => fn + i) else [fn]
    fns.foldl (fun (s : State) n => (s.resetFn n).destroySeat n false) s

def execFunctionLevelReset (fn : Nat) (s : State) : Out := .next (s.flr fn)

/-- A host port's link is lost: its functions are reset and its seats destroyed, and the event is logged (R500, R568). -/
def State.linkLost (s : State) (port : Nat) : State :=
  if !s.portPresent port || !s.mod.refereeRuns then s
  else ((s.logEvent 0x0405 none 0x08 port 0 0).flr (16 * port))

def execPcieLinkDown (port : Nat) (s : State) : Out := .next (s.linkLost port)

/-- PERST_N: the pin changes; its assertion in READY is a link loss, before it a reset of the port's functions (R645). -/
def execPerstN (port : Nat) (level : Bool) (s : State) : Out :=
  .next (if 4 ≤ port then s
    else
      let was := s.pins.perstN.getD port false
      let s := { s with pins := { s.pins with perstN := s.pins.perstN.set port level } }
      if level || !was then s
      else if s.mod.state = .ready then s.linkLost port
      else s.flr (16 * port))

end Sys2Proof.Machine
end

