-- ==== Sys2Proof/Machine/Dispatch.lean ====
section
/-!
DEFINITION. The meaning of every command: one arm for each row of spec/opcode_table.json, each one call of its meaning.
-/

namespace Sys2Proof.Machine

/-- The effect of a command on everything but the queue. -/
def exec (i : Instr) (s : State) : Host.Outcome State Fault Refusal :=
  match i with
  | .infoIdentity id => Sys2Proof.Machine.execInfoIdentity id s
  | .infoCaps id => Sys2Proof.Machine.execInfoCaps id s
  | .infoTileMap id => Sys2Proof.Machine.execInfoTileMap id s
  | .infoRemaps id => Sys2Proof.Machine.execInfoRemaps id s
  | .infoAllot id => Sys2Proof.Machine.execInfoAllot id s
  | .seatCreate id => Sys2Proof.Machine.execSeatCreate id s
  | .seatChange id => Sys2Proof.Machine.execSeatChange id s
  | .seatDestroy id => Sys2Proof.Machine.execSeatDestroy id s
  | .seatQuery id => Sys2Proof.Machine.execSeatQuery id s
  | .seatSeed id => Sys2Proof.Machine.execSeatSeed id s
  | .seatNextTurn id => Sys2Proof.Machine.execSeatNextTurn id s
  | .seatAreas id => Sys2Proof.Machine.execSeatAreas id s
  | .seatExclude id => Sys2Proof.Machine.execSeatExclude id s
  | .seatTeardown id => Sys2Proof.Machine.execSeatTeardown id s
  | .seatNiClear id => Sys2Proof.Machine.execSeatNiClear id s
  | .portAllot id => Sys2Proof.Machine.execPortAllot id s
  | .memWindowSet id => Sys2Proof.Machine.execMemWindowSet id s
  | .memWindowGet id => Sys2Proof.Machine.execMemWindowGet id s
  | .memLayerWindow id => Sys2Proof.Machine.execMemLayerWindow id s
  | .memHbmMode id => Sys2Proof.Machine.execMemHbmMode id s
  | .kernelLaunch id => Sys2Proof.Machine.execKernelLaunch id s
  | .programLoad id => Sys2Proof.Machine.execProgramLoad id s
  | .kernelAbort id => Sys2Proof.Machine.execKernelAbort id s
  | .turnHalt id => Sys2Proof.Machine.execTurnHalt id s
  | .turnResume id => Sys2Proof.Machine.execTurnResume id s
  | .spaceSet id => Sys2Proof.Machine.execSpaceSet id s
  | .placementSwap id => Sys2Proof.Machine.execPlacementSwap id s
  | .fabNode id => Sys2Proof.Machine.execFabNode id s
  | .fabRoutes id => Sys2Proof.Machine.execFabRoutes id s
  | .fabPort id => Sys2Proof.Machine.execFabPort id s
  | .fabParams id => Sys2Proof.Machine.execFabParams id s
  | .fabStatus id => Sys2Proof.Machine.execFabStatus id s
  | .groupSet id => Sys2Proof.Machine.execGroupSet id s
  | .groupSeq id => Sys2Proof.Machine.execGroupSeq id s
  | .groupDelete id => Sys2Proof.Machine.execGroupDelete id s
  | .nsCreate id => Sys2Proof.Machine.execNsCreate id s
  | .nsDelete id => Sys2Proof.Machine.execNsDelete id s
  | .nsAttach id => Sys2Proof.Machine.execNsAttach id s
  | .nsDetach id => Sys2Proof.Machine.execNsDetach id s
  | .nsWrite id => Sys2Proof.Machine.execNsWrite id s
  | .nsTrim id => Sys2Proof.Machine.execNsTrim id s
  | .nsList id => Sys2Proof.Machine.execNsList id s
  | .flashRebuild id => Sys2Proof.Machine.execFlashRebuild id s
  | .flashHealth id => Sys2Proof.Machine.execFlashHealth id s
  | .acctSnapshot id => Sys2Proof.Machine.execAcctSnapshot id s
  | .pmcSelect id => Sys2Proof.Machine.execPmcSelect id s
  | .pmcSnapshot id => Sys2Proof.Machine.execPmcSnapshot id s
  | .logRead id => Sys2Proof.Machine.execLogRead id s
  | .logClear id => Sys2Proof.Machine.execLogClear id s
  | .tileFence id => Sys2Proof.Machine.execTileFence id s
  | .tileReturn id => Sys2Proof.Machine.execTileReturn id s
  | .monitors id => Sys2Proof.Machine.execMonitors id s
  | .thresholds id => Sys2Proof.Machine.execThresholds id s
  | .powerCap id => Sys2Proof.Machine.execPowerCap id s
  | .shutdown id => Sys2Proof.Machine.execShutdown id s
  | .fwQuery id => Sys2Proof.Machine.execFwQuery id s
  | .fwWrite id => Sys2Proof.Machine.execFwWrite id s
  | .fwActivate id => Sys2Proof.Machine.execFwActivate id s
  | .secAdmit id => Sys2Proof.Machine.execSecAdmit id s
  | .secMgmtAcl id => Sys2Proof.Machine.execSecMgmtAcl id s
  | .secUnlockChallenge id => Sys2Proof.Machine.execSecUnlockChallenge id s
  | .secUnlock id => Sys2Proof.Machine.execSecUnlock id s
  | .commandAccept fn ring => Sys2Proof.Machine.execCommandAccept fn ring s
  | .irqTimeThreshold fn ring => Sys2Proof.Machine.execIrqTimeThreshold fn ring s
  | .dbSqTail fn ring value => Sys2Proof.Machine.execDbSqTail fn ring value s
  | .dbCqHead fn ring value => Sys2Proof.Machine.execDbCqHead fn ring value s
  | .ringEnable fn ring value => Sys2Proof.Machine.execRingEnable fn ring value s
  | .ringReset fn ring value => Sys2Proof.Machine.execRingReset fn ring value s
  | .ringResetDone fn ring => Sys2Proof.Machine.execRingResetDone fn ring s
  | .acctLatch fn value => Sys2Proof.Machine.execAcctLatch fn value s
  | .evtStatusClear fn value => Sys2Proof.Machine.execEvtStatusClear fn value s
  | .evtEnableWrite fn value => Sys2Proof.Machine.execEvtEnableWrite fn value s
  | .bar2ApertureWrite fn value => Sys2Proof.Machine.execBar2ApertureWrite fn value s
  | .pmcSelWrite fn index value => Sys2Proof.Machine.execPmcSelWrite fn index value s
  | .pmcClear fn value => Sys2Proof.Machine.execPmcClear fn value s
  | .pmcFreeze fn value => Sys2Proof.Machine.execPmcFreeze fn value s
  | .pmcWriteApply => Sys2Proof.Machine.execPmcWriteApply s
  | .registerWrite fn offset size value => Sys2Proof.Machine.execRegisterWrite fn offset size value s
  | .bar2Read fn offset len => Sys2Proof.Machine.execBar2Read fn offset len s
  | .bar2Write fn offset data => Sys2Proof.Machine.execBar2Write fn offset data s
  | .bar2Atomicop fn offset => Sys2Proof.Machine.execBar2Atomicop fn offset s
  | .msixUnmask fn vector => Sys2Proof.Machine.execMsixUnmask fn vector s
  | .pcieConfigRequest port => Sys2Proof.Machine.execPcieConfigRequest port s
  | .functionLevelReset fn => Sys2Proof.Machine.execFunctionLevelReset fn s
  | .pcieLinkDown port => Sys2Proof.Machine.execPcieLinkDown port s
  | .perstN port level => Sys2Proof.Machine.execPerstN port level s
  | .mctpSetEndpointId source eid => Sys2Proof.Machine.execMctpSetEndpointId source eid s
  | .mctpGetEndpointId source => Sys2Proof.Machine.execMctpGetEndpointId source s
  | .getMctpVersionSupport source msgType => Sys2Proof.Machine.execGetMctpVersionSupport source msgType s
  | .getMessageTypeSupport source => Sys2Proof.Machine.execGetMessageTypeSupport source s
  | .getVendorDefinedMessageSupport source selector => Sys2Proof.Machine.execGetVendorDefinedMessageSupport source selector s
  | .mctpVendorCommand via message => Sys2Proof.Machine.execMctpVendorCommand via message s
  | .spdmGetVersion source => Sys2Proof.Machine.execSpdmGetVersion source s
  | .spdmGetCapabilities source version => Sys2Proof.Machine.execSpdmGetCapabilities source version s
  | .spdmNegotiateAlgorithms source asym hash => Sys2Proof.Machine.execSpdmNegotiateAlgorithms source asym hash s
  | .spdmGetDigests source => Sys2Proof.Machine.execSpdmGetDigests source s
  | .spdmGetCertificate source slot offset len => Sys2Proof.Machine.execSpdmGetCertificate source slot offset len s
  | .spdmChallenge source slot nonce => Sys2Proof.Machine.execSpdmChallenge source slot nonce s
  | .spdmGetMeasurements source index nonce => Sys2Proof.Machine.execSpdmGetMeasurements source index nonce s
  | .moduleReset rstN pwrOk => Sys2Proof.Machine.execModuleReset rstN pwrOk s
  | .resetRelease => Sys2Proof.Machine.execResetRelease s
  | .boot addrSel => Sys2Proof.Machine.execBoot addrSel s
  | .refereeStart => Sys2Proof.Machine.execRefereeStart s
  | .hbmTraining failed => Sys2Proof.Machine.execHbmTraining failed s
  | .startupSelfTest failedTiles failedClusters => Sys2Proof.Machine.execStartupSelfTest failedTiles failedClusters s
  | .dawnSequence edges => Sys2Proof.Machine.execDawnSequence edges s
  | .flashMapLoad fallback goodBanks goodRecords => Sys2Proof.Machine.execFlashMapLoad fallback goodBanks goodRecords s
  | .refereePortEnable => Sys2Proof.Machine.execRefereePortEnable s
  | .ready => Sys2Proof.Machine.execReady s
  | .haltNAssert => Sys2Proof.Machine.execHaltNAssert s
  | .haltNDeassert => Sys2Proof.Machine.execHaltNDeassert s
  | .throttleN => Sys2Proof.Machine.execThrottleN s
  | .ppsInEdge => Sys2Proof.Machine.execPpsInEdge s
  | .ppsTimeout => Sys2Proof.Machine.execPpsTimeout s
  | .refclkLoss => Sys2Proof.Machine.execRefclkLoss s
  | .refclkReturn => Sys2Proof.Machine.execRefclkReturn s
  | .inputUndervoltage millivolts => Sys2Proof.Machine.execInputUndervoltage millivolts s
  | .jtagResetHold => Sys2Proof.Machine.execJtagResetHold s
  | .jtagResetRelease => Sys2Proof.Machine.execJtagResetRelease s
  | .i2cStallRelease => Sys2Proof.Machine.execI2cStallRelease s
  | .powerSample avg10ms => Sys2Proof.Machine.execPowerSample avg10ms s
  | .holdRatioUpdate avg1s ratio => Sys2Proof.Machine.execHoldRatioUpdate avg1s ratio s
  | .clockStepUndo => Sys2Proof.Machine.execClockStepUndo s
  | .supplyDroop island cycles => Sys2Proof.Machine.execSupplyDroop island cycles s
  | .pllLockLoss pll => Sys2Proof.Machine.execPllLockLoss pll s
  | .crossingMarginCheck low => Sys2Proof.Machine.execCrossingMarginCheck low s
  | .crossingError crossing => Sys2Proof.Machine.execCrossingError crossing s
  | .realignment edges => Sys2Proof.Machine.execRealignment edges s
  | .monitorRead samples => Sys2Proof.Machine.execMonitorRead samples s
  | .energyAttribution inputEnergy staticEnergy deviceActivity activity => Sys2Proof.Machine.execEnergyAttribution inputEnergy staticEnergy deviceActivity activity s
  | .issueStep tile => Sys2Proof.Machine.execIssueStep tile s
  | .matmul tile ctx => Sys2Proof.Machine.execMatmul tile ctx s
  | .gmm tile ctx => Sys2Proof.Machine.execGmm tile ctx s
  | .vec tile ctx => Sys2Proof.Machine.execVec tile ctx s
  | .reduce tile ctx => Sys2Proof.Machine.execReduce tile ctx s
  | .copy tile ctx => Sys2Proof.Machine.execCopy tile ctx s
  | .stream tile ctx => Sys2Proof.Machine.execStream tile ctx s
  | .syncSignal tile ctx => Sys2Proof.Machine.execSyncSignal tile ctx s
  | .syncWait tile ctx => Sys2Proof.Machine.execSyncWait tile ctx s
  | .syncSet tile ctx => Sys2Proof.Machine.execSyncSet tile ctx s
  | .barrier tile ctx => Sys2Proof.Machine.execBarrier tile ctx s
  | .route tile ctx => Sys2Proof.Machine.execRoute tile ctx s
  | .nitrig tile ctx => Sys2Proof.Machine.execNitrig tile ctx s
  | .descriptorFetchLand tile ctx => Sys2Proof.Machine.execDescriptorFetchLand tile ctx s
  | .remoteAccessComplete tile ctx => Sys2Proof.Machine.execRemoteAccessComplete tile ctx s
  | .remoteAccessTimeout tile ctx => Sys2Proof.Machine.execRemoteAccessTimeout tile ctx s
  | .descriptorComplete tile ctx => Sys2Proof.Machine.execDescriptorComplete tile ctx s
  | .signalApply index => Sys2Proof.Machine.execSignalApply index s
  | .syncWaitLimit tile ctx => Sys2Proof.Machine.execSyncWaitLimit tile ctx s
  | .barrierArrival index => Sys2Proof.Machine.execBarrierArrival index s
  | .barrierRelease index => Sys2Proof.Machine.execBarrierRelease index s
  | .barrierLimit tile ctx => Sys2Proof.Machine.execBarrierLimit tile ctx s
  | .stealRequest tile => Sys2Proof.Machine.execStealRequest tile s
  | .stolenSlotArrival index => Sys2Proof.Machine.execStolenSlotArrival index s
  | .tileFenced ptile cause => Sys2Proof.Machine.execTileFenced ptile cause s
  | .clusterFenced pcluster cause => Sys2Proof.Machine.execClusterFenced pcluster cause s
  | .regionWithdrawn region => Sys2Proof.Machine.execRegionWithdrawn region s
  | .stackWithdrawn stack => Sys2Proof.Machine.execStackWithdrawn stack s
  | .packageFailed unit => Sys2Proof.Machine.execPackageFailed unit s
  | .selftestStart ptile => Sys2Proof.Machine.execSelftestStart ptile s
  | .selftestEnd ptile failed => Sys2Proof.Machine.execSelftestEnd ptile failed s
  | .kernelBind seat => Sys2Proof.Machine.execKernelBind seat s
  | .kernelComplete seat => Sys2Proof.Machine.execKernelComplete seat s
  | .turnBoundary seat => Sys2Proof.Machine.execTurnBoundary seat s
  | .quantumExpiry seat => Sys2Proof.Machine.execQuantumExpiry seat s
  | .saveComplete seat => Sys2Proof.Machine.execSaveComplete seat s
  | .restoreComplete seat => Sys2Proof.Machine.execRestoreComplete seat s
  | .routeAccept route => Sys2Proof.Machine.execRouteAccept route s
  | .grantCount index => Sys2Proof.Machine.execGrantCount index s
  | .grantReply index => Sys2Proof.Machine.execGrantReply index s
  | .grantHorizon route => Sys2Proof.Machine.execGrantHorizon route s
  | .routeTablesWritten route => Sys2Proof.Machine.execRouteTablesWritten route s
  | .druindEngineFailure region => Sys2Proof.Machine.execDruindEngineFailure region s
  | .triggerFire seat hub slot => Sys2Proof.Machine.execTriggerFire seat hub slot s
  | .actionEnd action => Sys2Proof.Machine.execActionEnd action s
  | .actionSignal action => Sys2Proof.Machine.execActionSignal action s
  | .actionRead action => Sys2Proof.Machine.execActionRead action s
  | .actionWrite action => Sys2Proof.Machine.execActionWrite action s
  | .actionAtomic action => Sys2Proof.Machine.execActionAtomic action s
  | .actionTxn action => Sys2Proof.Machine.execActionTxn action s
  | .actionBroadcast action => Sys2Proof.Machine.execActionBroadcast action s
  | .actionAllGather action => Sys2Proof.Machine.execActionAllGather action s
  | .actionShift action => Sys2Proof.Machine.execActionShift action s
  | .actionPermute action => Sys2Proof.Machine.execActionPermute action s
  | .actionBarrier action => Sys2Proof.Machine.execActionBarrier action s
  | .exchange action => Sys2Proof.Machine.execExchange action s
  | .returnAction action => Sys2Proof.Machine.execReturnAction action s
  | .callBegin group => Sys2Proof.Machine.execCallBegin group s
  | .openRecord index => Sys2Proof.Machine.execOpenRecord index s
  | .agreementDeadline group => Sys2Proof.Machine.execAgreementDeadline group s
  | .finalRecord index => Sys2Proof.Machine.execFinalRecord index s
  | .collData index => Sys2Proof.Machine.execCollData index s
  | .closeRecord index => Sys2Proof.Machine.execCloseRecord index s
  | .finalCloseRecord index => Sys2Proof.Machine.execFinalCloseRecord index s
  | .stallExpiry group => Sys2Proof.Machine.execStallExpiry group s
  | .absentResultTimeout group => Sys2Proof.Machine.execAbsentResultTimeout group s
  | .permData index => Sys2Proof.Machine.execPermData index s
  | .exchangeHorizon action => Sys2Proof.Machine.execExchangeHorizon action s
  | .returnPartEnd action => Sys2Proof.Machine.execReturnPartEnd action s
  | .combineEnd action => Sys2Proof.Machine.execCombineEnd action s
  | .flitReceive port flit => Sys2Proof.Machine.execFlitReceive port flit s
  | .flitSend port => Sys2Proof.Machine.execFlitSend port s
  | .credit port => Sys2Proof.Machine.execCredit port s
  | .replay port => Sys2Proof.Machine.execReplay port s
  | .replayRepeat port => Sys2Proof.Machine.execReplayRepeat port s
  | .ackStallResend port => Sys2Proof.Machine.execAckStallResend port s
  | .linkInfo port => Sys2Proof.Machine.execLinkInfo port s
  | .handshakeRetry port => Sys2Proof.Machine.execHandshakeRetry port s
  | .notReady port => Sys2Proof.Machine.execNotReady port s
  | .readyRecord port => Sys2Proof.Machine.execReadyRecord port s
  | .backoffEnd port => Sys2Proof.Machine.execBackoffEnd port s
  | .portTrainingDone port => Sys2Proof.Machine.execPortTrainingDone port s
  | .portLoss port cause => Sys2Proof.Machine.execPortLoss port cause s
  | .quarantineHoldExpiry port => Sys2Proof.Machine.execQuarantineHoldExpiry port s
  | .soakEnd port passed => Sys2Proof.Machine.execSoakEnd port passed s
  | .gapExpiry stream => Sys2Proof.Machine.execGapExpiry stream s
  | .read index => Sys2Proof.Machine.execRead index s
  | .readData index => Sys2Proof.Machine.execReadData index s
  | .write index => Sys2Proof.Machine.execWrite index s
  | .writeAck index => Sys2Proof.Machine.execWriteAck index s
  | .writeAckTimer stream => Sys2Proof.Machine.execWriteAckTimer stream s
  | .atomic index => Sys2Proof.Machine.execAtomic index s
  | .atomicData index => Sys2Proof.Machine.execAtomicData index s
  | .txnPart index => Sys2Proof.Machine.execTxnPart index s
  | .txnDone index => Sys2Proof.Machine.execTxnDone index s
  | .status index => Sys2Proof.Machine.execStatus index s
  | .lineApply index => Sys2Proof.Machine.execLineApply index s
  | .tc2Timeout request => Sys2Proof.Machine.execTc2Timeout request s
  | .e2eAck index => Sys2Proof.Machine.execE2eAck index s
  | .e2eAckTimer stream => Sys2Proof.Machine.execE2eAckTimer stream s
  | .e2eResend stream => Sys2Proof.Machine.execE2eResend stream s
  | .mgmt index => Sys2Proof.Machine.execMgmt index s
  | .announce index => Sys2Proof.Machine.execAnnounce index s
  | .timeSync index => Sys2Proof.Machine.execTimeSync index s
  | .followUp index => Sys2Proof.Machine.execFollowUp index s
  | .pdelayReq index => Sys2Proof.Machine.execPdelayReq index s
  | .pdelayResp index => Sys2Proof.Machine.execPdelayResp index s
  | .pdelayFollowUp index => Sys2Proof.Machine.execPdelayFollowUp index s
  | .ptpFrame frame masterTime => Sys2Proof.Machine.execPtpFrame frame masterTime s
  | .announceSend port => Sys2Proof.Machine.execAnnounceSend port s
  | .syncSend port => Sys2Proof.Machine.execSyncSend port s
  | .parentAnnounceTimeout => Sys2Proof.Machine.execParentAnnounceTimeout s
  | .holdoverExpiry => Sys2Proof.Machine.execHoldoverExpiry s
  | .hbmFrame stack => Sys2Proof.Machine.execHbmFrame stack s
  | .hbmAccess address len kind foreign outcome => Sys2Proof.Machine.execHbmAccess address len kind foreign outcome s
  | .hbmScrub stack outcome => Sys2Proof.Machine.execHbmScrub stack outcome s
  | .sramScrub region errors => Sys2Proof.Machine.execSramScrub region errors s
  | .fillAccept tile ctx => Sys2Proof.Machine.execFillAccept tile ctx s
  | .fillStripe hub failedUnits => Sys2Proof.Machine.execFillStripe hub failedUnits s
  | .unitRecovery unit recovered => Sys2Proof.Machine.execUnitRecovery unit recovered s
  | .mirrorFetchDone unit => Sys2Proof.Machine.execMirrorFetchDone unit s
  | .mirrorFetchTimeout unit => Sys2Proof.Machine.execMirrorFetchTimeout unit s
  | .fillEnd fill => Sys2Proof.Machine.execFillEnd fill s
  | .mirrorRepairWrite repair => Sys2Proof.Machine.execMirrorRepairWrite repair s
  | .backgroundWork channel block => Sys2Proof.Machine.execBackgroundWork channel block s
  | .readDisturbRelocate channel block => Sys2Proof.Machine.execReadDisturbRelocate channel block s
  | .patrolRead channel block weak => Sys2Proof.Machine.execPatrolRead channel block weak s
  | .blockProgramFail channel block => Sys2Proof.Machine.execBlockProgramFail channel block s
  | .channelFailure channel package => Sys2Proof.Machine.execChannelFailure channel package s
  | .bankWrite => Sys2Proof.Machine.execBankWrite s
  | .timedSnapshot seat => Sys2Proof.Machine.execTimedSnapshot seat s
  | .bandwidthWindowEnd => Sys2Proof.Machine.execBandwidthWindowEnd s
  | .drainEnd seat => Sys2Proof.Machine.execDrainEnd seat s
  | .drainLimit seat => Sys2Proof.Machine.execDrainLimit seat s
  | .throttleNRelease => Sys2Proof.Machine.execThrottleNRelease s
  | .inputPowerRise => Sys2Proof.Machine.execInputPowerRise s

end Sys2Proof.Machine
end

