-- ==== Sys2Proof/Machine/Tick.lean ====
section
/-!
DEFINITION. A unit of time: what a step on an empty queue does. At the end of each hc the occupancies that the state holds are
counted (R591, R594, log 3, log 60).
-/

namespace Sys2Proof.Machine

/-- The occupancies of a hub in one hc: fills accepted, reorder buffer, action engines and fired entries, waiting line operations
(R295, R374, R380, R401, R594). -/
def State.hubTick (s : State) (h : Nat) : State :=
  let s := s.count 0x6001 none h (s.flash.fills.filter (fun kf => kf.2.hub == h)).length
  let s := s.count 0x9005 none h (ceilDiv (s.robBytes h true + s.robBytes h false) 1024)
  let s := s.count 0x900B none h (s.ni.actions.filter (fun ka => ka.2.engine && ka.2.hub == h)).length
  let s := s.count 0x900C none h (s.ni.waiting.filter (fun id => match FMap.find? s.ni.actions id with
    | some a => a.hub == h
    | none => false)).length
  s.count 0x5003 none h (s.hubOps h)

/-- Flits queued for a port's output, by class (R594). -/
def State.portTick (s : State) (p : Nat) (x : Port) : State :=
  (List.range 4).foldl (fun s tc => s.countTc 0x8004 p tc (x.depth tc)) s

/-- A seat's TC0 packets wait for its bucket (R522). -/
def State.seatTick (s : State) (n : Nat) : State :=
  s.count 0xA001 (some n) 0 (if [0, 1].any (fun h => !(FMap.get [] s.ni.tc0 (2 * n + h)).isEmpty) then 1 else 0)

/-- One hc ends. -/
def State.hcTick (s : State) : State :=
  let s := [0, 1].foldl State.hubTick s
  let s := s.fab.ports.foldl (fun s px => s.portTick px.1 px.2) s
  s.seats.foldl (fun s ks => s.seatTick ks.1) s

/-- One unit of time passes. -/
def State.tick (s : State) : State :=
  let t := { s with time := s.time + 1 }
  if t.time % hcUnits = 0 then t.hcTick else t

end Sys2Proof.Machine
end

