-- ==== Sys2Proof/Machine/Step.lean ====
section
/-!
DEFINITION. One step: the command at the front of the queue has its effect; with nothing waiting, a unit of time passes
(log 3).
-/

namespace Sys2Proof.Machine

/-- The command at the front is taken and its outcome answered; on an empty queue one unit of State.time passes, and the occupancies
of that time are counted (log 3). -/
def step (s : State) : Host.Outcome State Fault Refusal :=
  match s.pending with
  | c :: rest => exec c { s with pending := rest }
  | [] => .next s.tick

/-- The command that a table word spells, put at the front of the queue; no row of this table has bits, so no word spells
one. -/
def State.withFetchWord (s : State) (nbits w : Nat) : State :=
  match decodeTableWord nbits w with
  | some c => { s with pending := c :: s.pending }
  | none => s

end Sys2Proof.Machine
end

