-- ==== Sys2Proof/WellFormed.lean ====
section
/-!
DEFINITION. The ranges of the operands of each command: numbers that name a unit, a function, a ring pair, a lane or a byte of
the spec's tables, and the shapes of what arrives. The meanings give a command outside them no effect (log 4).
-/

namespace Sys2Proof

/-- A flit's fields have the widths of R322 and its payload fits. -/
def Flit.wf (f : Flit) : Bool :=
  f.tc < 4 && f.vl < 16 && f.lseq < 4096 && f.ack < 4096 && f.payload.length ≤ 244 && f.bad.all (· < f.payload.length)

/-- A sample names a monitor of R571 and reads within its 16-bit field. -/
def Sample.wf (x : Sample) : Bool :=
  let i := x.id % 4096
  (match x.id / 4096 with | 1 => decide (i < 114) | 2 => decide (i < 21) | 3 => decide (i < 200) | _ => false)
    && (match x.reading with | some v => decide (-32768 ≤ v) && decide (v < 65536) | none => true)

/-- Endpoint IDs have 8 bits, requester IDs and nodes 16, and a fabric command comes by a port or by none (24). -/
def Mgmt.wf : Mgmt → Bool
  | .i2c eid => decide (eid < 256)
  | .vdm requester eid => requester < 65536 && eid < 256
  | .fabric node port => node < 65536 && port ≤ 24

/-- Die-to-die links are numbered 0 to 9, hubs 0 and 1, islands 0 to 199 (R562). -/
def PackageUnit.wf : PackageUnit → Bool
  | .dieLink n => decide (n < 10)
  | .hub n => decide (n < 2)
  | .island n => decide (n < 200)

/-- A crossing is 256 × its sending island plus its receiving island. -/
def crossingOk (c : Nat) : Bool := c / 256 < 200 && c % 256 < 200

/-- A PCIe request does not cross a 4 KiB boundary, and moves at least a byte. -/
def inPage (o n : Nat) : Bool := 1 ≤ n && o % 4096 + n ≤ 4096

/-- The operands of a command are in range. -/
def Instr.wf (i : Instr) : Bool :=
  match i with
  | .infoIdentity _ => true
  | .infoCaps _ => true
  | .infoTileMap _ => true
  | .infoRemaps _ => true
  | .infoAllot _ => true
  | .seatCreate _ => true
  | .seatChange _ => true
  | .seatDestroy _ => true
  | .seatQuery _ => true
  | .seatSeed _ => true
  | .seatNextTurn _ => true
  | .seatAreas _ => true
  | .seatExclude _ => true
  | .seatTeardown _ => true
  | .seatNiClear _ => true
  | .portAllot _ => true
  | .memWindowSet _ => true
  | .memWindowGet _ => true
  | .memLayerWindow _ => true
  | .memHbmMode _ => true
  | .kernelLaunch _ => true
  | .programLoad _ => true
  | .kernelAbort _ => true
  | .turnHalt _ => true
  | .turnResume _ => true
  | .spaceSet _ => true
  | .placementSwap _ => true
  | .fabNode _ => true
  | .fabRoutes _ => true
  | .fabPort _ => true
  | .fabParams _ => true
  | .fabStatus _ => true
  | .groupSet _ => true
  | .groupSeq _ => true
  | .groupDelete _ => true
  | .nsCreate _ => true
  | .nsDelete _ => true
  | .nsAttach _ => true
  | .nsDetach _ => true
  | .nsWrite _ => true
  | .nsTrim _ => true
  | .nsList _ => true
  | .flashRebuild _ => true
  | .flashHealth _ => true
  | .acctSnapshot _ => true
  | .pmcSelect _ => true
  | .pmcSnapshot _ => true
  | .logRead _ => true
  | .logClear _ => true
  | .tileFence _ => true
  | .tileReturn _ => true
  | .monitors _ => true
  | .thresholds _ => true
  | .powerCap _ => true
  | .shutdown _ => true
  | .fwQuery _ => true
  | .fwWrite _ => true
  | .fwActivate _ => true
  | .secAdmit _ => true
  | .secMgmtAcl _ => true
  | .secUnlockChallenge _ => true
  | .secUnlock _ => true
  | .commandAccept fn ring => fn < 64 && ring < 4
  | .irqTimeThreshold fn ring => fn < 64 && ring < 4
  | .dbSqTail fn ring _ => fn < 64 && ring < 4
  | .dbCqHead fn ring _ => fn < 64 && ring < 4
  | .ringEnable fn ring _ => fn < 64 && ring < 4
  | .ringReset fn ring _ => fn < 64 && ring < 4
  | .ringResetDone fn ring => fn < 64 && ring < 4
  | .acctLatch fn _ => decide (fn < 64)
  | .evtStatusClear fn _ => decide (fn < 64)
  | .evtEnableWrite fn _ => decide (fn < 64)
  | .bar2ApertureWrite fn _ => decide (fn < 64)
  | .pmcSelWrite fn index _ => fn < 64 && index < 16
  | .pmcClear fn _ => decide (fn < 64)
  | .pmcFreeze fn _ => decide (fn < 64)
  | .pmcWriteApply => true
  | .registerWrite fn offset size _ => fn < 64 && offset < 65536 && 1 ≤ size && size ≤ 8
  | .bar2Read fn offset len => fn < 64 && inPage offset len
  | .bar2Write fn offset data => fn < 64 && inPage offset data.length
  | .bar2Atomicop fn _ => decide (fn < 64)
  | .msixUnmask fn vector => fn < 64 && vector ≤ 128
  | .pcieConfigRequest port => decide (port < 4)
  | .functionLevelReset fn => decide (fn < 64)
  | .pcieLinkDown port => decide (port < 4)
  | .perstN port _ => decide (port < 4)
  | .mctpSetEndpointId source eid => source < 256 && eid < 256
  | .mctpGetEndpointId source => decide (source < 256)
  | .getMctpVersionSupport source msgType => source < 256 && msgType < 256
  | .getMessageTypeSupport source => decide (source < 256)
  | .getVendorDefinedMessageSupport source selector => source < 256 && selector < 256
  | .mctpVendorCommand via message => via.wf && 35 ≤ message.length && message.length ≤ 4160
  | .spdmGetVersion source => decide (source < 256)
  | .spdmGetCapabilities source version => source < 256 && version < 256
  | .spdmNegotiateAlgorithms source _ _ => decide (source < 256)
  | .spdmGetDigests source => decide (source < 256)
  | .spdmGetCertificate source slot offset len => source < 256 && slot < 8 && offset < 65536 && len < 65536
  | .spdmChallenge source slot nonce => source < 256 && slot < 8 && nonce.length == 32
  | .spdmGetMeasurements source index nonce => source < 256 && index < 256 && nonce.length == 32
  | .moduleReset _ _ => true
  | .resetRelease => true
  | .boot addrSel => decide (addrSel < 4)
  | .refereeStart => true
  | .hbmTraining failed => failed.all (· < 32)
  | .startupSelfTest failedTiles failedClusters => failedTiles.all (· < 1024) && failedClusters.all (· < 128)
  | .dawnSequence edges => edges.all (fun e => crossingOk e.1 && e.2 < 256)
  | .flashMapLoad fallback goodBanks _ => fallback.all (· < 16) && goodBanks.all (· < 2)
  | .refereePortEnable => true
  | .ready => true
  | .haltNAssert => true
  | .haltNDeassert => true
  | .throttleN => true
  | .ppsInEdge => true
  | .ppsTimeout => true
  | .refclkLoss => true
  | .refclkReturn => true
  | .inputUndervoltage millivolts => decide (millivolts ≤ 59500)
  | .jtagResetHold => true
  | .jtagResetRelease => true
  | .i2cStallRelease => true
  | .powerSample _ => true
  | .holdRatioUpdate _ ratio => decide (ratio ≤ 256)
  | .clockStepUndo => true
  | .supplyDroop island _ => decide (island < 200)
  | .pllLockLoss _ => true
  | .crossingMarginCheck low => low.all crossingOk
  | .crossingError crossing => crossingOk crossing
  | .realignment edges => edges.all (fun e => crossingOk e.1 && e.2 < 256)
  | .monitorRead samples => samples.all Sample.wf
  | .energyAttribution _ _ _ _ => true
  | .issueStep tile => decide (tile < 960)
  | .matmul tile ctx => tile < 960 && ctx < 8
  | .gmm tile ctx => tile < 960 && ctx < 8
  | .vec tile ctx => tile < 960 && ctx < 8
  | .reduce tile ctx => tile < 960 && ctx < 8
  | .copy tile ctx => tile < 960 && ctx < 8
  | .stream tile ctx => tile < 960 && ctx < 8
  | .syncSignal tile ctx => tile < 960 && ctx < 8
  | .syncWait tile ctx => tile < 960 && ctx < 8
  | .syncSet tile ctx => tile < 960 && ctx < 8
  | .barrier tile ctx => tile < 960 && ctx < 8
  | .route tile ctx => tile < 960 && ctx < 8
  | .nitrig tile ctx => tile < 960 && ctx < 8
  | .descriptorFetchLand tile ctx => tile < 960 && ctx < 8
  | .remoteAccessComplete tile ctx => tile < 960 && ctx < 8
  | .remoteAccessTimeout tile ctx => tile < 960 && ctx < 8
  | .descriptorComplete tile ctx => tile < 960 && ctx < 8
  | .signalApply _ => true
  | .syncWaitLimit tile ctx => tile < 960 && ctx < 8
  | .barrierArrival _ => true
  | .barrierRelease _ => true
  | .barrierLimit tile ctx => tile < 960 && ctx < 8
  | .stealRequest tile => decide (tile < 960)
  | .stolenSlotArrival _ => true
  | .tileFenced ptile _ => decide (ptile < 1024)
  | .clusterFenced pcluster _ => decide (pcluster < 128)
  | .regionWithdrawn region => decide (region < 16)
  | .stackWithdrawn stack => decide (stack < 32)
  | .packageFailed unit => unit.wf
  | .selftestStart ptile => decide (ptile < 1024)
  | .selftestEnd ptile _ => decide (ptile < 1024)
  | .kernelBind seat => decide (seat < 64)
  | .kernelComplete seat => decide (seat < 64)
  | .turnBoundary seat => decide (seat < 64)
  | .quantumExpiry seat => decide (seat < 64)
  | .saveComplete seat => decide (seat < 64)
  | .restoreComplete seat => decide (seat < 64)
  | .routeAccept _ => true
  | .grantCount _ => true
  | .grantReply _ => true
  | .grantHorizon _ => true
  | .routeTablesWritten _ => true
  | .druindEngineFailure region => decide (region < 16)
  | .triggerFire seat hub slot => seat < 64 && hub < 2 && slot < 4096
  | .actionEnd _ => true
  | .actionSignal _ => true
  | .actionRead _ => true
  | .actionWrite _ => true
  | .actionAtomic _ => true
  | .actionTxn _ => true
  | .actionBroadcast _ => true
  | .actionAllGather _ => true
  | .actionShift _ => true
  | .actionPermute _ => true
  | .actionBarrier _ => true
  | .exchange _ => true
  | .returnAction _ => true
  | .callBegin group => decide (group < 1024)
  | .openRecord _ => true
  | .agreementDeadline group => decide (group < 1024)
  | .finalRecord _ => true
  | .collData _ => true
  | .closeRecord _ => true
  | .finalCloseRecord _ => true
  | .stallExpiry group => decide (group < 1024)
  | .absentResultTimeout group => decide (group < 1024)
  | .permData _ => true
  | .exchangeHorizon _ => true
  | .returnPartEnd _ => true
  | .combineEnd _ => true
  | .flitReceive port flit => port < 24 && flit.wf
  | .flitSend port => decide (port < 24)
  | .credit port => decide (port < 24)
  | .replay port => decide (port < 24)
  | .replayRepeat port => decide (port < 24)
  | .ackStallResend port => decide (port < 24)
  | .linkInfo port => decide (port < 24)
  | .handshakeRetry port => decide (port < 24)
  | .notReady port => decide (port < 24)
  | .readyRecord port => decide (port < 24)
  | .backoffEnd port => decide (port < 24)
  | .portTrainingDone port => decide (port < 24)
  | .portLoss port _ => decide (port < 24)
  | .quarantineHoldExpiry port => decide (port < 24)
  | .soakEnd port _ => decide (port < 24)
  | .gapExpiry _ => true
  | .read _ => true
  | .readData _ => true
  | .write _ => true
  | .writeAck _ => true
  | .writeAckTimer _ => true
  | .atomic _ => true
  | .atomicData _ => true
  | .txnPart _ => true
  | .txnDone _ => true
  | .status _ => true
  | .lineApply _ => true
  | .tc2Timeout _ => true
  | .e2eAck _ => true
  | .e2eAckTimer _ => true
  | .e2eResend _ => true
  | .mgmt _ => true
  | .announce _ => true
  | .timeSync _ => true
  | .followUp _ => true
  | .pdelayReq _ => true
  | .pdelayResp _ => true
  | .pdelayFollowUp _ => true
  | .ptpFrame frame _ => 14 ≤ frame.length
  | .announceSend port => decide (port < 24)
  | .syncSend port => decide (port < 24)
  | .parentAnnounceTimeout => true
  | .holdoverExpiry => true
  | .hbmFrame stack => decide (stack < 32)
  | .hbmAccess address len _ source _ => source.requester ≤ 10 && 1 ≤ len && address + len ≤ 1536 * 2 ^ 30
  | .hbmScrub stack _ => decide (stack < 32)
  | .sramScrub region _ => decide (region < 16)
  | .fillAccept tile ctx => tile < 960 && ctx < 8
  | .fillStripe hub failedUnits => hub < 2 && failedUnits.all (· < 56)
  | .unitRecovery _ r => 1 ≤ r.reads && r.reads ≤ 7 && r.bad.all (· < 16)
  | .mirrorFetchDone _ => true
  | .mirrorFetchTimeout _ => true
  | .fillEnd _ => true
  | .mirrorRepairWrite _ => true
  | .backgroundWork channel _ => decide (channel < 16)
  | .readDisturbRelocate channel _ => decide (channel < 16)
  | .patrolRead channel _ _ => decide (channel < 16)
  | .blockProgramFail channel _ => decide (channel < 16)
  | .channelFailure channel package => channel < 16 && (match package with | some p => p < 2 | none => true)
  | .bankWrite => true
  | .timedSnapshot seat => decide (seat < 64)
  | .bandwidthWindowEnd => true
  | .drainEnd seat => decide (seat < 64)
  | .drainLimit seat => decide (seat < 64)
  | .throttleNRelease => true
  | .inputPowerRise => true

end Sys2Proof
end

