-- ==== Sys2Proof/Safety.lean ====
section
/-!
DEFINITION. What counts as a safe step, in the terms that claims use: the state's memories are in canonical form, a step
goes on, a run of the module is a run of steps that go on, and two states are alike aside from what every command may
count, tell or cache.
-/

namespace Sys2Proof.Machine

/-- Memory in its one canonical form: addresses strictly rising, no byte listed that reads as 0. -/
def State.memWf (s : State) : Bool := FMap.wf (0 : Byte) s.mem

/-- The poison marks stand in rising order, each word once. -/
def State.poisonWf (s : State) : Bool := FMap.risingFrom s.poison 0

/-- Host memory in the same canonical form. -/
def State.hostMemWf (s : State) : Bool := FMap.wf (0 : Byte) s.host.hostMem

/-- The memories of the machine are in canonical form. -/
def State.wf (s : State) : Bool := s.memWf && s.poisonWf && s.hostMemWf

/-- A command goes on from a state: it answers a next state. -/
def State.goesOn (s : State) (c : Instr) : Prop := ∃ t, exec c s = .next t

/-- n steps lead from a state to another. -/
def runs : Nat → State → State → Prop
  | 0, s, t => s = t
  | n + 1, s, t => ∃ u, step s = .next u ∧ runs n u t

/-! ### The frame that statements use

A command's own effect stands beside five kinds of effect that nearly every command may have: it counts (17), it charges a
seat's account (R524), it tells (the log and FAULT_N, the event registers and MSI-X vectors, notifications), its memory
accesses move lines in and out of the line caches, which may take a kernel's exact time (R388 to R392), and they pass the
arbiters of banks and ports (R105). -/

/-- A seat without the values of its programmable counters, its account and the exactness of its kernel's time. -/
def Seat.quiet (x : Seat) : Seat :=
  { x with pmc := { x.pmc with ctr := [], runs := [] }, acct := [], running := x.running.map (fun r => { r with exact := true }) }

/-- A function without its event bits and pending vectors. -/
def Func.quiet (f : Func) : Func := { f with evtStatus := 0, setAt := [], msixPending := [] }

/-- A tile without the arbiter of its store's banks. -/
def Tile.quiet (x : Tile) : Tile := { x with bankPtr := 0, wants := [], wantTc := 0 }

/-- A state without its counters, accounts, log, FAULT_N, event registers, vectors, notifications, line caches and arbiters; the
functions and the tiles are compared one by one. -/
def State.quiet (s : State) : State :=
  { s with
    seats := s.seats.map (fun ks => (ks.1, ks.2.quiet))
    ctrs := { s.ctrs with fixed := [], bw := [] }
    log := {}
    tiles := []
    clusters := []
    pins := { s.pins with faultN := true }
    host := { s.host with functions := [], msixSent := [] }
    mgmt := { s.mgmt with mctpOut := [], notified := [] }
    ni := { s.ni with directory := [], caches := [] } }

/-- t is s aside from what is counted, charged, told, cached and arbitrated: every other register, queue and byte of memory is
the same. -/
def aside (s t : State) : Prop :=
  t.quiet = s.quiet ∧ (∀ n, (t.fn n).quiet = (s.fn n).quiet) ∧ ∀ n, (t.tile n).quiet = (s.tile n).quiet

/-- t is s but for the values of the counters: fixed, bandwidth and programmable ones. -/
def counted (s t : State) : Prop :=
  ∃ c, t = { s with ctrs := { s.ctrs with fixed := t.ctrs.fixed, bw := t.ctrs.bw }, seats := c } ∧
    c.map (fun ks => (ks.1, ks.2.quiet)) = s.seats.map (fun ks => (ks.1, ks.2.quiet))

/-! ### Commands of the opcode table -/

/-- The accepted command that a row of the opcode table of R550 carries out, and its opcode. -/
def opcodeOf : Instr → Option (Nat × Nat)
  | .infoIdentity id => some (id, 0x0101)
  | .infoCaps id => some (id, 0x0102)
  | .infoTileMap id => some (id, 0x0103)
  | .infoRemaps id => some (id, 0x0104)
  | .infoAllot id => some (id, 0x0105)
  | .seatCreate id => some (id, 0x0201)
  | .seatChange id => some (id, 0x0202)
  | .seatDestroy id => some (id, 0x0203)
  | .seatQuery id => some (id, 0x0204)
  | .seatSeed id => some (id, 0x0205)
  | .seatNextTurn id => some (id, 0x0206)
  | .seatAreas id => some (id, 0x0207)
  | .seatExclude id => some (id, 0x0208)
  | .seatTeardown id => some (id, 0x0209)
  | .seatNiClear id => some (id, 0x020A)
  | .portAllot id => some (id, 0x020B)
  | .memWindowSet id => some (id, 0x0301)
  | .memWindowGet id => some (id, 0x0302)
  | .memLayerWindow id => some (id, 0x0303)
  | .memHbmMode id => some (id, 0x0304)
  | .kernelLaunch id => some (id, 0x0401)
  | .programLoad id => some (id, 0x0402)
  | .kernelAbort id => some (id, 0x0403)
  | .turnHalt id => some (id, 0x0404)
  | .turnResume id => some (id, 0x0405)
  | .spaceSet id => some (id, 0x0406)
  | .placementSwap id => some (id, 0x0407)
  | .fabNode id => some (id, 0x0501)
  | .fabRoutes id => some (id, 0x0502)
  | .fabPort id => some (id, 0x0503)
  | .fabParams id => some (id, 0x0504)
  | .fabStatus id => some (id, 0x0505)
  | .groupSet id => some (id, 0x0506)
  | .groupSeq id => some (id, 0x0507)
  | .groupDelete id => some (id, 0x0508)
  | .nsCreate id => some (id, 0x0601)
  | .nsDelete id => some (id, 0x0602)
  | .nsAttach id => some (id, 0x0603)
  | .nsDetach id => some (id, 0x0604)
  | .nsWrite id => some (id, 0x0605)
  | .nsTrim id => some (id, 0x0606)
  | .nsList id => some (id, 0x0607)
  | .flashRebuild id => some (id, 0x0608)
  | .flashHealth id => some (id, 0x0609)
  | .acctSnapshot id => some (id, 0x0701)
  | .pmcSelect id => some (id, 0x0702)
  | .pmcSnapshot id => some (id, 0x0703)
  | .logRead id => some (id, 0x0801)
  | .logClear id => some (id, 0x0802)
  | .tileFence id => some (id, 0x0803)
  | .tileReturn id => some (id, 0x0804)
  | .monitors id => some (id, 0x0805)
  | .thresholds id => some (id, 0x0806)
  | .powerCap id => some (id, 0x0807)
  | .shutdown id => some (id, 0x0808)
  | .fwQuery id => some (id, 0x0901)
  | .fwWrite id => some (id, 0x0902)
  | .fwActivate id => some (id, 0x0903)
  | .secAdmit id => some (id, 0x0A01)
  | .secMgmtAcl id => some (id, 0x0A02)
  | .secUnlockChallenge id => some (id, 0x0A03)
  | .secUnlock id => some (id, 0x0A04)
  | _ => none

/-- A command is accepted, has not begun, is of an opcode, and the order of R542 and R543 lets it begin. -/
def State.mayStart (s : State) (id code : Nat) (c : Cmd) (r : Opcode) : Prop :=
  s.cmd? id = some c ∧ c.begun = false ∧ chOpcode c.packet = code ∧ opRow code = some r ∧ s.mayBegin c r = true

/-- Such a command passes checks 6 and 7 of R536 as well: its seat allows it, and its length and ARG are of the opcode. -/
def State.canRun (s : State) (id code : Nat) (c : Cmd) : Prop :=
  ∃ r, s.mayStart id code c r ∧ (r.seat = true → seatAllows r (s.seat? (chSeat c.packet)) = true) ∧
    lengthOk r c.packet = true

end Sys2Proof.Machine
end

