-- ==== Sys2Proof/Certificates/Slice0/Obligations.lean ====
section
/-!
DEFINITION. The statements for the provers, by family of commands. A statement of an instruction's effect says that exec
answers a next state and gives that state; `aside` (Safety) frames it: every register, queue and byte of memory is as in
the state named, aside from what is counted, charged, told and cached.
-/

open Sys2Proof Sys2Proof.Machine

/-! ### The block and its queue -/

/-- A step takes the command at the front of the queue and is its effect on the state with the queue's rest; with
nothing waiting, one unit of time passes, and aside from the occupancies that are then counted nothing else changes
(the idle step is the model's choice, log 3). No command stops the machine: every command answers a next state in
every state (log 4). -/
def Obligations.StepIsTheFrontCommand : Prop :=
  ((∀ (s : State) (c : Instr) (rest : List Instr), s.pending = c :: rest → step s = exec c { s with pending := rest }) ∧
   (∀ s : State, s.pending = [] → ∃ t, step s = .next t ∧ aside { s with time := s.time + 1 } t)) ∧
  (∀ (c : Instr) (s : State), s.goesOn c)

/-- Every step keeps the canonical form of the package's memory, of its poison marks and of host memory. -/
def Obligations.StepKeepsMemoriesCanonical : Prop :=
  ∀ s t : State, s.wf = true → step s = .next t → t.wf = true

/-- No command changes the module's identity (its ordering code, stepping, serial number, vendor ID, MAC address and
host-port setting), the queue of waiting commands or the time. -/
def Obligations.CommandsKeepIdentityQueueAndTime : Prop :=
  ∀ (c : Instr) (s t : State), exec c s = .next t → t.ident = s.ident ∧ t.pending = s.pending ∧ t.time = s.time

/-- After reset the module is in RESET with RST_N and PWR_OK low and FAULT_N and THERM_N high, no seat, window, group
or trigger entry exists, every NI counter and every counter of a tile or cluster reads as 0, every byte of the package
reads as zero, no word is poison, every port is DISABLED, the package is not in lockstep, the power cap is 2,000 W, no
node number is set, no Dawn has been, nothing waits, and the memories are in canonical form. Where the rules leave a
point open here, it is the model's reading (log 8). -/
def Obligations.ResetStateHolds : Prop :=
  State.reset.mod.state = .reset ∧ State.reset.pins.rstN = false ∧ State.reset.pins.pwrOk = false ∧
  State.reset.pins.faultN = true ∧ State.reset.pins.thermN = true ∧
  (∀ n, State.reset.seat? n = none) ∧ (∀ a, State.reset.byte a = 0) ∧ (∀ w, State.reset.wordPoison w = none) ∧
  (∀ p, (State.reset.port p).state = .disabled) ∧
  (∀ k, FMap.find? State.reset.ni.windows k = none ∧ FMap.find? State.reset.ni.groups k = none ∧
    FMap.find? State.reset.ni.triggers k = none ∧ FMap.get 0 State.reset.ni.ctr k = 0) ∧
  (∀ seat x, State.reset.readCtr seat x = 0) ∧ State.reset.clk.lockstep = false ∧ State.reset.pwr.cap = 2000 ∧
  State.reset.fab.node = 0xFFFF ∧ State.reset.mod.dawnDone = false ∧ State.reset.pending = [] ∧ State.reset.wf = true

/-! ### Reset, supply and JTAG -/

/-- What a reset leaves of a state that enters `st`: no data from before it, and of the rest only the firmware, the
configuration store's node number, route tables and allotments, the management filter, the persistent log, the flash tier and the
fence counts (R608, R611), beside what is the board's: identity, pins, supply, host memory, what has been sent. -/
def leftByReset (st : ModState) (s t : State) : Prop :=
  t.mem = [] ∧ t.poison = [] ∧ t.seats = [] ∧ t.tiles = [] ∧ t.clusters = [] ∧ t.sync = {} ∧ t.druind = {} ∧ t.ni = {} ∧
  t.clk = {} ∧ t.pwr = {} ∧ t.sec = {} ∧ t.mons = [] ∧ t.ctrs = {} ∧ t.tk = {} ∧
  t.mod = { state := st, powered := t.mod.powered, t0 := s.mod.t0, admitted := s.mod.admitted, jtagHold := t.mod.jtagHold,
            hold := t.mod.hold } ∧
  t.pins = { s.pins with rstN := t.pins.rstN, pwrOk := t.pins.pwrOk, faultN := true, thermN := true, txIdle := true,
                         i2cIdle := true, sclHeld := false, sdaHeld := false } ∧
  t.units = { ptiles := s.fenceCounts } ∧
  t.host = { allots := s.host.allots, hostMem := s.host.hostMem, msixSent := s.host.msixSent, pcieOut := s.host.pcieOut,
             nextCmd := s.host.nextCmd } ∧
  t.mgmt = { aclRequesters := s.mgmt.aclRequesters, aclMatch := s.mgmt.aclMatch, aclMask := s.mgmt.aclMask,
             mctpOut := s.mgmt.mctpOut } ∧
  t.log = { nextSeq := s.log.nextSeq, persistent := s.log.persistent } ∧ t.fw = s.fw ∧
  t.fab = { node := s.fab.node, ports := s.portTables, niGroup := s.fab.niGroup, niMember := s.fab.niMember,
            routesWritten := s.fab.routesWritten, sent := s.fab.sent } ∧ (∀ p, (t.port p).state = .disabled) ∧
  t.flash = s.flash.atReset ∧ t.flash.available = false ∧ t.flash.fills = [] ∧
  t.ident = s.ident ∧ t.time = s.time ∧ t.free = s.free ∧ t.pending = s.pending

/-- Out of HOLD, a low RST_N or PWR_OK, EXTEST, CLAMP or HIGHZ in the JTAG chain, and an input of 36 V to below 38 V
for more than 50 µs put the module in RESET and leave nothing but what survives a start; below 36 V it is unpowered,
in RESET even out of HOLD, and its test access ports start anew. In HOLD the other three only set the pins, the chain
or the supply. Pins that are both high and an input of 38 V or more reset nothing. Where the rules leave a point open
here, it is the model's reading (log 7). -/
def Obligations.ResetCommandsLeaveNoData : Prop :=
  (∀ (s : State) (rstN pwrOk : Bool), (rstN && pwrOk) = false → s.mod.state ≠ .hold →
    ∃ t, exec (.moduleReset rstN pwrOk) s = .next t ∧ leftByReset .reset s t ∧ t.pins.rstN = rstN ∧
      t.pins.pwrOk = pwrOk ∧ t.mod.powered = s.mod.powered ∧ t.mod.jtagHold = s.mod.jtagHold ∧ t.mod.hold = s.mod.hold ∧
      t.jtag = s.jtag) ∧
  (∀ (s : State) (rstN pwrOk : Bool), (rstN && pwrOk) = false → s.mod.state = .hold →
    exec (.moduleReset rstN pwrOk) s = .next { s with pins := { s.pins with rstN := rstN, pwrOk := pwrOk } }) ∧
  (∀ s : State, exec (.moduleReset true true) s = .next s) ∧
  (∀ s : State, s.mod.state ≠ .hold →
    ∃ t, exec .jtagResetHold s = .next t ∧ leftByReset .reset s t ∧ t.mod.jtagHold = true ∧
      t.pins.rstN = s.pins.rstN ∧ t.pins.pwrOk = s.pins.pwrOk ∧ t.mod.powered = s.mod.powered ∧ t.mod.hold = s.mod.hold ∧
      t.jtag = s.tapsRun.jtag) ∧
  (∀ s : State, s.mod.state = .hold →
    exec .jtagResetHold s = .next { s with mod := { s.mod with jtagHold := true }, jtag := s.tapsRun.jtag }) ∧
  (∀ (s : State) (mv : Nat), 36000 ≤ mv → mv < 38000 → s.mod.state ≠ .hold →
    ∃ t, exec (.inputUndervoltage mv) s = .next t ∧ leftByReset .reset s t ∧ t.mod.powered = false ∧
      t.mod.jtagHold = s.mod.jtagHold ∧ t.mod.hold = s.mod.hold ∧
      t.pins.rstN = s.pins.rstN ∧ t.pins.pwrOk = s.pins.pwrOk ∧ t.jtag = s.jtag) ∧
  (∀ (s : State) (mv : Nat), 36000 ≤ mv → mv < 38000 → s.mod.state = .hold →
    exec (.inputUndervoltage mv) s = .next { s with mod := { s.mod with powered := false } }) ∧
  (∀ (s : State) (mv : Nat), mv < 36000 →
    ∃ t, exec (.inputUndervoltage mv) s = .next t ∧ leftByReset .reset s t ∧ t.mod.powered = false ∧
      t.mod.jtagHold = false ∧ t.mod.hold = none ∧
      t.pins.rstN = s.pins.rstN ∧ t.pins.pwrOk = s.pins.pwrOk ∧ t.jtag = {}) ∧
  (∀ (s : State) (mv : Nat), 38000 ≤ mv → exec (.inputUndervoltage mv) s = .next s)

/-- What the module waits for in RESET: its input is powered, RST_N and PWR_OK are high, no port of the JTAG chain holds EXTEST,
CLAMP or HIGHZ, and a HOLD that it was in is over (R607, R634, R656). -/
def released (s : State) : Bool :=
  s.mod.powered && !s.mod.jtagHold && s.pins.rstN && s.pins.pwrOk && s.holdOver

/-- The state at t0: BOOT, and from HOLD as a reset leaves it. -/
def atT0 (s : State) : State :=
  let s := if s.mod.state = .hold then s.atReset .reset else s
  { s with mod := { s.mod with state := .boot, t0 := s.time, hold := none } }

/-- Each moment at which RST_N and PWR_OK have both become high, with the module powered, the JTAG chain out of
EXTEST, CLAMP and HIGHZ and any HOLD over, is a new t0: the module goes to BOOT from RESET, and from HOLD as a reset
leaves it. The end of such a JTAG hold and the rise of the input are t0 in the same way, the latter from RESET alone.
While one condition fails, and out of RESET and HOLD, only the pins, the chain's hold or the supply change. -/
def Obligations.ResetEndsWhenAllReleaseIt : Prop :=
  (∀ s u : State, (s.pins.rstN && s.pins.pwrOk) = false → u = { s with pins := { s.pins with rstN := true, pwrOk := true } } →
    ∃ t, exec .resetRelease s = .next t ∧
      aside (if (s.mod.state = .reset ∨ s.mod.state = .hold) ∧ released u = true then atT0 u else u) t) ∧
  (∀ s : State, (s.pins.rstN && s.pins.pwrOk) = true → exec .resetRelease s = .next s) ∧
  (∀ s u : State, s.mod.jtagHold = true → u = { s with mod := { s.mod with jtagHold := false } } →
    ∃ t, exec .jtagResetRelease s = .next t ∧
      aside (if (s.mod.state = .reset ∨ s.mod.state = .hold) ∧ released u = true then atT0 u else u) t) ∧
  (∀ s : State, s.mod.jtagHold = false → exec .jtagResetRelease s = .next s) ∧
  (∀ s u : State, u = { s with mod := { s.mod with powered := true } } →
    ∃ t, exec .inputPowerRise s = .next t ∧
      aside (if s.mod.state = .reset ∧ released u = true then atT0 u else u) t)

/-! ### The start -/

/-- BOOT samples the address straps and starts the selected slot where it verifies, reaches the fused minimum and has
not failed three starts; else the other slot where that one verifies, selecting it with its starts counted anew; else
the module is in FAILSAFE and the host-port controllers are configured. Each start of a slot is counted as failed
until READY is reached. Out of BOOT, and once a slot is started, it does nothing. Where the rules leave a point open
here, it is the model's reading (log 50). -/
def Obligations.BootStartsAVerifiedSlot : Prop :=
  (∀ (s : State) (sel : Nat), s.mod.state = .boot → s.mod.verified = false → s.slotFault s.fw.selectedB = 0 →
    exec (.boot sel) s = .next { s with
      pins := { s.pins with i2cAddr := 0x5A + (3 - sel % 4) }
      mod := { s.mod with verified := true }
      fw := { s.fw with runningB := s.fw.selectedB, failedStarts := s.fw.failedStarts + 1,
                        readyStarts := if s.fw.runningB = s.fw.selectedB then s.fw.readyStarts else 0 } }) ∧
  (∀ (s : State) (sel : Nat), s.mod.state = .boot → s.mod.verified = false → s.slotFault s.fw.selectedB ≠ 0 →
    s.imageOk (!s.fw.selectedB) = true →
    ∃ t, exec (.boot sel) s = .next t ∧
      aside { s with
        pins := { s.pins with i2cAddr := 0x5A + (3 - sel % 4) }
        mod := { s.mod with verified := true }
        fw := { s.fw with runningB := !s.fw.selectedB, selectedB := !s.fw.selectedB, failedStarts := 1,
                          readyStarts := if s.fw.runningB = !s.fw.selectedB then s.fw.readyStarts else 0 } } t) ∧
  (∀ (s : State) (sel : Nat), s.mod.state = .boot → s.mod.verified = false → s.slotFault s.fw.selectedB ≠ 0 →
    s.imageOk (!s.fw.selectedB) = false →
    ∃ t, exec (.boot sel) s = .next t ∧
      aside { s with pins := { s.pins with i2cAddr := 0x5A + (3 - sel % 4) }
                     mod := { s.mod with state := .failsafe }
                     host := { s.host with configured := [true, true] } } t) ∧
  (∀ (s : State) (sel : Nat), s.mod.state ≠ .boot ∨ s.mod.verified = true → exec (.boot sel) s = .next s)

/-- A bank of the power-loss store that a start may take: its body passes its check (the command names it), and FORMAT and HCRC of its
header are right. -/
def bankValid (s : State) (good : List Nat) (i : Nat) (b : FlashBank) : Prop :=
  i ∈ good ∧ FMap.find? s.flash.banks i = some b ∧ b.good = true

/-- A bank's SEQ is higher than another's. -/
def seqHigher (b c : FlashBank) : Prop := 1 ≤ (b.seq - c.seq).toNat ∧ (b.seq - c.seq).toNat ≤ 2 ^ 31 - 1

/-- The bank that wins: of two valid ones bank 1 where its SEQ is higher and else bank 0; of one, that one. -/
def bankWins (s : State) (good : List Nat) (i : Nat) (b : FlashBank) : Prop :=
  bankValid s good i b ∧
    ((i = 0 ∧ ∀ c, bankValid s good 1 c → ¬ seqHigher c b) ∨ (i = 1 ∧ ∀ c, bankValid s good 0 c → seqHigher b c))

/-- The first steps of a start. The Referee starts from a verified slot: the module is in INIT, its host ports are
configured, and the persistent log is copied into the log with PRIOR set. Every HBM stack that trains is trained, and
one that fails is withdrawn. The self-test, before which no seat exists, fences the tiles and clusters that fail it
and builds the map; memory, fabric and flash stay. Each of the three does nothing at another time. The Dawn alignment:
with the map built and REFCLK steady, the PLLs lock, the Dawn beat is 0, every crossing takes the edge that its
calibration names, every controller is in scheduled mode with its frame starting now, every arbitration pointer is 0
and every issue stage starts from context 0, and the package is in lockstep. A realignment, with clocks nominal and no
seat with a kernel within a turn, repeats this after a loss or where a crossing asks for it, which is then a loss of
lockstep itself: the Dawn beat stays, only the crossings that ask are calibrated anew, and a stack that heat had
switched and that has cooled is scheduled again. Each does nothing at another time. The last steps of a start. Of the
flash banks the valid one whose SEQ is higher wins, bank 0 where neither is; the journal records are replayed from it
up to the first that is missing or fails, and the rest are discarded; then a sample of the superblocks written more
than 30 days before is read; with no valid bank the tier is unavailable. The Referee enables every DISABLED port once
it holds a node number and route tables. READY is reached when the conditions of R609 hold: a start of the running
image that reached it is counted, the third raises the fused minimum, one within 120 s of t0 ends the count of failed
ones; every port that is UP sends a READY record; and the event bit of every function is set. Each of the three does
nothing at another time. Where the rules leave a point open here, it is the model's reading (log 50, log 53). -/
def Obligations.StartTrainsAlignsAndBecomesReady : Prop :=
  ((∀ s : State, s.mod.state = .boot → s.mod.verified = true →
     ∃ t, exec .refereeStart s = .next t ∧
       aside { s with mod := { s.mod with state := .init, refereeRuns := true }
                      host := { s.host with configured := [true, true] } } t ∧
       t.log.persistent = s.log.persistent ∧
       ∀ r ∈ s.log.persistent, ∃ q ∈ t.log.records, q = { r with prior := true, seq := q.seq }) ∧
   (∀ s : State, s.mod.state ≠ .boot ∨ s.mod.verified = false → exec .refereeStart s = .next s) ∧
   (∀ (s : State) (failed : List Nat), s.mod.state = .init → s.mod.hbmTrained = false →
     ∃ t, exec (.hbmTraining failed) s = .next t ∧
       aside { s with mod := { s.mod with hbmTrained := true }
                      units := { s.units with hbmStacks := t.units.hbmStacks } } t ∧
       (∀ st, st < 32 → st ∉ failed → t.stack st = { s.stack st with trained := true }) ∧
       (∀ st, st < 32 → st ∈ failed → t.stack st = { s.stack st with withdrawn := true }) ∧
       (∀ st, 32 ≤ st → t.stack st = s.stack st)) ∧
   (∀ (s : State) (failed : List Nat), s.mod.state ≠ .init ∨ s.mod.hbmTrained = true →
     exec (.hbmTraining failed) s = .next s) ∧
   (∀ (s : State) (tiles clusters : List Nat), s.mod.state = .init → s.mod.hbmTrained = true → s.mod.mapBuilt = false →
     s.seats = [] →
     ∃ t, exec (.startupSelfTest tiles clusters) s = .next t ∧ t.mod = { s.mod with mapBuilt := true, degraded := t.mod.degraded } ∧
       t.mem = s.mem ∧ t.poison = s.poison ∧ t.fab = s.fab ∧ t.flash = s.flash ∧
       (∀ pt ∈ tiles, pt < 1024 → (t.ptile pt).fence.isSome = true) ∧
       (∀ pc ∈ clusters, pc < 128 → (t.pcluster pc).fence.isSome = true)) ∧
   (∀ (s : State) (tiles clusters : List Nat), s.mod.state ≠ .init ∨ s.mod.hbmTrained = false ∨ s.mod.mapBuilt = true →
     exec (.startupSelfTest tiles clusters) s = .next s)) ∧
  ((∀ (s : State) (edges : List (Nat × Nat)), s.mod.state = .init → s.mod.mapBuilt = true → s.mod.dawnDone = false →
     s.refclkSteady = true →
     ∃ t, exec (.dawnSequence edges) s = .next t ∧
       aside { s with mod := { s.mod with dawnDone := true }
                      clk := { s.clk with pllLocked := true, dawnTime := s.time, lossTime := s.time, lockstep := true,
                                          realignWanted := false, crossings := t.clk.crossings }
                      units := { s.units with hbmStacks := t.units.hbmStacks }, tiles := t.tiles, clusters := [] } t ∧
       t.clusters = [] ∧ t.beat = 0 ∧
       ((edges.map (·.1)).Nodup → ∀ ce ∈ edges, FMap.get 0 t.clk.crossings ce.1 = ce.2) ∧
       (∀ st, st < 32 → t.stack st = { s.stack st with
         demand := false, hot := false, cooled := false, frameStart := s.time, refreshOdd := false, slots := {}, arbPtr := 0,
         arrived := [], mcSlots := {} }) ∧
       (∀ st, 32 ≤ st → t.stack st = s.stack st) ∧
       (∀ n, t.tile n = { s.tile n with last := 7, lastTc := none, bankPtr := 0, queuePtr := 0, wants := [] })) ∧
   (∀ (s : State) (edges : List (Nat × Nat)),
     s.mod.state ≠ .init ∨ s.mod.mapBuilt = false ∨ s.mod.dawnDone = true ∨ s.refclkSteady = false →
     exec (.dawnSequence edges) s = .next s) ∧
   (∀ (s : State) (edges : List (Nat × Nat)), s.mod.dawnDone = true → (s.clk.lockstep = false ∨ s.clk.realignWanted = true) →
     s.clk.holdover = false → s.clk.tcHalf = false → s.clk.ncHalf = false → s.pins.refclkOk = true →
     (∀ n x, (n, x) ∈ s.seats → x.running = none ∧ (x.turnBegun = false ∨ x.launches = [])) →
     ∃ t, exec (.realignment edges) s = .next t ∧
       aside { s.loseLockstep with
         clk := { s.loseLockstep.clk with pllLocked := true, lockstep := true, realignWanted := false, realignCrossings := [],
                                          crossings := t.clk.crossings }
         units := { s.units with hbmStacks := t.units.hbmStacks }, tiles := t.tiles, clusters := [] } t ∧
       t.clusters = [] ∧ t.clk.dawnTime = s.clk.dawnTime ∧
       (∀ c, c ∉ s.clk.realignCrossings → FMap.get 0 t.clk.crossings c = FMap.get 0 s.clk.crossings c) ∧
       ((edges.map (·.1)).Nodup → ∀ ce ∈ edges, ce.1 ∈ s.clk.realignCrossings → FMap.get 0 t.clk.crossings ce.1 = ce.2) ∧
       (∀ st, st < 32 → t.stack st = { s.stack st with
         demand := (s.stack st).demand && !((s.stack st).hot && (s.stack st).cooled)
         hot := (s.stack st).hot && !((s.stack st).hot && (s.stack st).cooled)
         cooled := false, frameStart := s.time, refreshOdd := false, slots := {}, arbPtr := 0, arrived := [], mcSlots := {} }) ∧
       (∀ st, 32 ≤ st → t.stack st = s.stack st) ∧
       (∀ n, t.tile n = { s.tile n with last := 7, lastTc := none, bankPtr := 0, queuePtr := 0, wants := [] })) ∧
   (∀ (s : State) (edges : List (Nat × Nat)), s.mod.dawnDone = false ∨ (s.clk.lockstep = true ∧ s.clk.realignWanted = false) ∨
     s.nominal = false ∨ (∃ n x, (n, x) ∈ s.seats ∧ (x.running.isSome = true ∨ (x.turnBegun = true ∧ x.launches ≠ []))) →
     exec (.realignment edges) s = .next s)) ∧
  ((∀ (s : State) (fallback good : List Nat) (n i : Nat) (b : FlashBank), s.mod.state = .init → s.mod.flashDone = false →
     bankWins s good i b →
     ∃ u, exec (.flashMapLoad fallback good n) s = .next u.sampleOld ∧
       aside { s with mod := { s.mod with flashDone := true }
                      flash := { s.flash with
                        fallback := fallback.filter (· < 16), available := true, current := i
                        live := (replay b.body b.jnext (s.flash.journal.take n)).1
                        journal := (replay b.body b.jnext (s.flash.journal.take n)).2
                        jseq := b.jnext + BitVec.ofNat 64 (replay b.body b.jnext (s.flash.journal.take n)).2.length
                        openWrite := none, openMove := none, bankAt := s.time } } u) ∧
   (∀ s : State, s.sampleOld = { s with flash := { s.flash with
     live := { s.flash.live with reads := s.sampleOld.flash.live.reads }
     journal := s.sampleOld.flash.journal, jseq := s.sampleOld.flash.jseq, moves := s.sampleOld.flash.moves } }) ∧
   (∀ (s : State) (fallback good : List Nat) (n : Nat), s.mod.state = .init → s.mod.flashDone = false →
     (∀ i b, (i = 0 ∨ i = 1) → ¬ bankValid s good i b) →
     ∃ t, exec (.flashMapLoad fallback good n) s = .next t ∧
       aside { s with mod := { s.mod with flashDone := true }
                      flash := { s.flash with fallback := fallback.filter (· < 16), available := false } } t) ∧
   (∀ (s : State) (fallback good : List Nat) (n : Nat), s.mod.state ≠ .init ∨ s.mod.flashDone = true →
     exec (.flashMapLoad fallback good n) s = .next s) ∧
   (∀ s : State, s.mod.refereeRuns = true → s.mod.failedPackage = false → (s.mod.state = .init ∨ s.mod.state = .ready) →
     ∃ t, exec .refereePortEnable s = .next t ∧
       t = { s with fab := { s.fab with ports := t.fab.ports }
                    mod := { s.mod with portsEnabled := true }, pins := { s.pins with txIdle := false } } ∧
       ∀ p, t.port p =
         (if p < 24 ∧ (s.port p).state = .disabled ∧ s.fab.node ≠ 0xFFFF ∧ s.fab.routesWritten ≠ [] then
           { (s.port p).fresh with state := .training, trainingSince := s.time }
          else s.port p)) ∧
   (∀ s : State, s.mod.refereeRuns = false ∨ s.mod.failedPackage = true ∨ (s.mod.state ≠ .init ∧ s.mod.state ≠ .ready) →
     exec .refereePortEnable s = .next s) ∧
   (∀ s : State, s.mod.state = .init → s.mod.failedPackage = false → s.readyDue = true →
     ∃ t, exec .ready s = .next t ∧
       aside { s with
         mod := { s.mod with state := .ready }
         fw := { s.fw with
           failedStarts := if s.time ≤ s.mod.t0 + 120 * secondUnits then 0 else s.fw.failedStarts
           readyStarts := s.fw.readyStarts + 1
           minSvn := if 3 ≤ s.fw.readyStarts + 1 then max s.fw.minSvn (imgSvn s.fw.image) else s.fw.minSvn }
         fab := { s.fab with ports := t.fab.ports } } t ∧
       (∀ p, t.port p =
         (if p < 24 ∧ (s.port p).state = .up then
           { s.port p with controlOut := (s.port p).controlOut ++ [{ code := 5, body := List.replicate 7 0 }] }
          else s.port p)) ∧
       (∀ n, n < 64 → s.fnPresent n = true → (t.fn n).evtStatus.getLsbD evtReady = true)) ∧
   (∀ s : State, s.mod.state ≠ .init ∨ s.mod.failedPackage = true ∨ s.readyDue = false → exec .ready s = .next s))

/-- With nothing fenced and nothing that fails, the self-test leaves the default map of R26: the physical clusters
that are no spares, in ascending order, are logical clusters 0, 1, 2 and so on, and logical tile 8j + p is at ring
position p of the cluster that holds logical cluster j. -/
def Obligations.SelfTestBuildsTheDefaultMap : Prop :=
  ∀ s : State, s.mod.state = .init → s.mod.hbmTrained = true → s.mod.mapBuilt = false → s.mod.degraded = false →
    s.units.ptiles = [] → s.units.pclusters = [] → s.units.displaced = [] →
    ∃ t, exec (.startupSelfTest [] []) s = .next t ∧
      t = { s with mod := { s.mod with mapBuilt := true }
                   units := { s.units with tileMap := t.units.tileMap, clusterMap := t.units.clusterMap } } ∧
      (∀ j, j < s.ident.lclusters → FMap.find? t.units.clusterMap j = some (j + j / (if s.ident.ltiles = 896 then 7 else 15))) ∧
      (∀ j, s.ident.lclusters ≤ j → FMap.find? t.units.clusterMap j = none) ∧
      (∀ j p, j < s.ident.lclusters → p < 8 →
        FMap.find? t.units.tileMap (8 * j + p) = some (8 * (j + j / (if s.ident.ltiles = 896 then 7 else 15)) + p))

/-! ### Clocks, lockstep, pins and power -/

/-- Lockstep is lost for the whole package: every seat keeps the beat number, a turn of it that has begun is no lockstep turn
any more, and its event bit is set (R485, R488, R540). -/
def lostLockstep (s t : State) : Prop :=
  t.clk.lockstep = false ∧ t.clk.lossTime = s.time ∧
  (∀ n, (t.seat? n).isSome = (s.seat? n).isSome) ∧
  ∀ n x, s.seat? n = some x →
    (∃ y, t.seat? n = some y ∧
      y.quiet = { x with lossBeat := BitVec.ofNat 64 s.beat, turnLockstep := x.turnLockstep && !x.turnBegun }.quiet) ∧
    (t.fn n).evtStatus.getLsbD evtLockstepLost = true

/-- What a cause of a loss of lockstep leaves beside its own change, which gives u: where the package is in lockstep, it is lost;
where it is not, nothing more changes. -/
def lostFrom (u t : State) : Prop :=
  if u.clk.lockstep = true then
    lostLockstep u t ∧ aside { u with clk := { u.clk with lockstep := false, lossTime := u.time }, seats := t.seats } t
  else aside u t

/-- After the Dawn alignment, a droop that stretches an island's clock by more than one cycle in a beat, a PLL that
loses lock, the loss of REFCLK, and the step that halves every tc clock above 2,400 W each end lockstep; a droop of
one cycle, and 2,400 W or less, do not; droops and power steps are counted. Before it, for an island that does not
exist or a droop of no cycle, and while a power step is in force, nothing happens but that REFCLK is lost and the
average power is kept. A power step is undone below 2,000 W of the 10 ms average, a heat step once no die or hub
sensor is at its warning threshold, and the clocks are nominal since both are over; when REFCLK returns the PLLs
relock; a crossing with a low margin asks for a realignment. None of these restores lockstep. Where the rules leave a
point open here, it is the model's reading (log 53). -/
def Obligations.ClocksLeaveAndRejoinLockstep : Prop :=
  ((∀ (s : State) (island cycles : Nat), s.mod.dawnDone = true → island < 200 → 1 < cycles →
     ∃ t, exec (.supplyDroop island cycles) s = .next t ∧ lostFrom s t ∧
       t.counter 0xB001 none 0 = s.counter 0xB001 none 0 + 1) ∧
   (∀ (s : State) (island : Nat), s.mod.dawnDone = true → island < 200 →
     ∃ t, exec (.supplyDroop island 1) s = .next t ∧ aside s t ∧
       t.counter 0xB001 none 0 = s.counter 0xB001 none 0 + 1) ∧
   (∀ (s : State) (island cycles : Nat), s.mod.dawnDone = false ∨ 200 ≤ island ∨ cycles = 0 →
     exec (.supplyDroop island cycles) s = .next s) ∧
   (∀ (s : State) (pll : Nat), s.mod.dawnDone = true →
     ∃ t, exec (.pllLockLoss pll) s = .next t ∧ lostFrom { s with clk := { s.clk with pllLocked := false } } t) ∧
   (∀ (s : State) (pll : Nat), s.mod.dawnDone = false → exec (.pllLockLoss pll) s = .next s) ∧
   (∀ s : State, s.mod.dawnDone = true →
     ∃ t, exec .refclkLoss s = .next t ∧
       lostFrom { s with clk := { s.clk with holdover := true }, pins := { s.pins with refclkOk := false } } t) ∧
   (∀ s : State, s.mod.dawnDone = false →
     exec .refclkLoss s = .next { s with pins := { s.pins with refclkOk := false } }) ∧
   (∀ (s : State) (w : Nat), s.mod.dawnDone = true → s.clk.powerStep = false → 2400 < w →
     ∃ t, exec (.powerSample w) s = .next t ∧
       lostFrom { s with clk := { s.clk with tcHalf := true, powerStep := true }, pwr := { s.pwr with avg10ms := w } } t ∧
       t.counter 0xB001 none 0 = s.counter 0xB001 none 0 + 1) ∧
   (∀ (s : State) (w : Nat), w ≤ 2400 ∨ s.clk.powerStep = true ∨ s.mod.dawnDone = false →
     exec (.powerSample w) s = .next { s with pwr := { s.pwr with avg10ms := w } })) ∧
  ((∀ (s : State) (power heat : Bool), (power = true ↔ s.clk.powerStep = true ∧ 2000 ≤ s.pwr.avg10ms) →
     (heat = true ↔ s.clk.ncHalf = true ∧
       ∃ i b, i < 80 ∧ (s.mon (0x1000 + i)).warnHi = some b ∧ b ≤ (s.mon (0x1000 + i)).reading) →
     exec .clockStepUndo s = .next { s with clk := { s.clk with
       tcHalf := power || heat, ncHalf := heat, powerStep := power
       nominalSince := if s.clk.tcHalf = true ∧ power = false ∧ heat = false then s.time else s.clk.nominalSince } }) ∧
   (∀ s : State, s.pins.refclkOk = false →
     exec .refclkReturn s = .next { s with
       pins := { s.pins with refclkOk := true, refclkGoodSince := s.time }
       clk := { s.clk with holdover := false, pllLocked := s.mod.dawnDone } }) ∧
   (∀ s : State, s.pins.refclkOk = true → exec .refclkReturn s = .next s) ∧
   (∀ (s : State) (low : List Nat), low ≠ [] → s.mod.dawnDone = true →
     ∃ t, exec (.crossingMarginCheck low) s = .next t ∧
       t = { s with clk := { s.clk with realignWanted := true, realignCrossings := t.clk.realignCrossings } } ∧
       ∀ c, c ∈ t.clk.realignCrossings ↔ c ∈ s.clk.realignCrossings ∨ c ∈ low) ∧
   (∀ (s : State) (low : List Nat), low = [] ∨ s.mod.dawnDone = false → exec (.crossingMarginCheck low) s = .next s))

/-- The pins HALT_N, THROTTLE_N and the I²C bus: HALT_N low sets every seat's halt latch; THROTTLE_N low is seen by
the next update of the hold ratio and changes no clock; SDA and SCL are released after a stalled transfer. The update
of the hold ratio puts the floor in force if THROTTLE_N was low at any moment since the update before, and else the
commanded cap; the ratio is 0 below 98 % of the cap in force. POWER_CAP sets the commanded cap, from the floor to
2,000 W, whatever THROTTLE_N is, and the next update sees it; outside it is refused with CONFIG_INVALID (R45, R489,
R550, R636, R639). Where the rules leave a point open here, it is the model's reading (log 53). -/
def Obligations.PinsAndPowerCapAct : Prop :=
  (∀ s : State, ∃ t, exec .haltNAssert s = .next t ∧
    t = { s with pins := { s.pins with haltN := false }, seats := t.seats } ∧
    ∀ n, t.seat? n = (s.seat? n).map (fun x => { x with haltLatch := true })) ∧
  (∀ s : State, exec .throttleN s = .next { s with pins := { s.pins with throttleN := false }
                                                   pwr := { s.pwr with throttleSeen := true } }) ∧
  (∀ s : State, exec .throttleNRelease s = .next { s with pins := { s.pins with throttleN := true } }) ∧
  (∀ s : State, exec .i2cStallRelease s = .next { s with
    pins := { s.pins with sdaHeld := false, sclHeld := false, i2cIdle := true } }) ∧
  (∀ (s : State) (avg ratio cap : Nat),
    cap = (if s.pwr.throttleSeen = true ∨ s.pins.throttleN = false then s.ident.floor else s.pwr.cap) →
    ∃ t, exec (.holdRatioUpdate avg ratio) s = .next t ∧
      aside { s with pwr := { s.pwr with capInForce := cap, avg1s := avg, throttleSeen := !s.pins.throttleN
                                         rho := if 100 * avg < 98 * cap then 0 else min 256 ratio } } t ∧
      t.counter 0xB002 none 0 = BitVec.ofNat 64 avg) ∧
  (∀ (s : State) id c, s.canRun id 0x0807 c → s.ident.floor ≤ chArg c.packet → chArg c.packet ≤ 2000 →
    exec (.powerCap id) s =
      .next ({ s.beginCmd id with pwr := { s.pwr with cap := chArg c.packet } }.complete id .success [] [])) ∧
  (∀ (s : State) id c, s.canRun id 0x0807 c → (chArg c.packet < s.ident.floor ∨ 2000 < chArg c.packet) →
    exec (.powerCap id) s = .next ((s.beginCmd id).complete id .configInvalid [] []))

/-- What one reading of a monitor leaves beside its actions: the reading and the state that it gives, the hold ratio's floor and
THERM_N by all monitors. -/
def readingKept (s t : State) (id : Nat) (v : Int) : Prop :=
  t.mon id = { s.mon id with reading := v, state := monNext id { s.mon id with reading := v } } ∧
  (∀ j, j ≠ id → t.mon j = s.mon j) ∧ t.pwr.rhoFloor = t.heatFloor ∧ t.pins.thermN = !t.thermLow

/-- The state with its monitors, the hold ratio's floor and THERM_N as in t. -/
def withReadings (s t : State) : State :=
  { s with mons := t.mons, pwr := { s.pwr with rhoFloor := t.pwr.rhoFloor }, pins := { s.pins with thermN := t.pins.thermN } }

/-- A monitor reading. One that leaves its monitor below critical, or comes from a coolant sensor, keeps the reading
and the state that it gives, and sets the hold ratio's floor and THERM_N; an HBM stack does so while it is not above
95 °C, nor below 90 °C after having been. A die or hub sensor beyond its critical bound becomes critical, which halves
every tc and nc clock and ends lockstep. A stack above 95 °C goes to demand mode, which takes lockstep from the seats
with quota on it; below 90 °C it has cooled. A ring oscillator that becomes critical fences its cluster. A die or hub
sensor above 115 °C, an HBM stack above 110 °C and a rail beyond its critical bound put the module in HOLD, with no
seat, no data in memory, tile or NI, the firmware and the NAND as they were, FAULT_N low, and for a trip THERM_N low.
In HOLD only the monitors concerned count: since when they are all within their warning bounds. In RESET and without
power nothing is read (R260, R485, R490, R574, R575, R637). Energy: each seat is charged its share of the dynamic
energy by its activity, k limited to 0.5 to 2, and of the static energy by its clusters; what is left of the input
energy is the unattributed energy, and the intervals in a row in which k reached a limit are counted up to 100. Before
the Referee runs nothing is attributed. Where the rules leave a point open here, it is the model's reading (log 51,
log 54). -/
def Obligations.MonitorsAndEnergyAct : Prop :=
  ((∀ (s : State) (id : Nat) (v : Int), s.mod.hold = none → s.mod.state ≠ .reset → s.mod.powered = true →
     monitorExists id = true → tripped { id := id, reading := some v } = false →
     (monNext id { s.mon id with reading := v } ≠ 2 ∨ monKind id = .inlet ∨ monKind id = .outlet) →
     (monKind id = .hbm → (s.mon id).failed = true ∨ (v ≤ 760 ∧ (v < 720 → (s.stack (id % 4096 - 80)).hot = false))) →
     ∃ t, exec (.monitorRead [{ id := id, reading := some v }]) s = .next t ∧ readingKept s t id v ∧ aside (withReadings s t) t) ∧
   (∀ (s : State) (id : Nat) (v : Int), s.mod.hold = none → s.mod.state ≠ .reset → s.mod.powered = true →
     monitorExists id = true → monKind id = .die → v ≤ 920 → monNext id { s.mon id with reading := v } = 2 →
     ∃ t, exec (.monitorRead [{ id := id, reading := some v }]) s = .next t ∧ readingKept s t id v ∧ t.pins.thermN = false ∧
       (if (s.mon id).state = 2 ∨ (s.clk.tcHalf = true ∧ s.clk.ncHalf = true) then aside (withReadings s t) t
        else lostFrom { withReadings s t with clk := { s.clk with tcHalf := true, ncHalf := true } } t)) ∧
   (∀ (s : State) (id : Nat) (v : Int) (st : Nat), s.mod.hold = none → s.mod.state ≠ .reset → s.mod.powered = true →
     monitorExists id = true → monKind id = .hbm → (s.mon id).failed = false → st = id % 4096 - 80 → 760 < v → v ≤ 880 →
     (s.stack st).demand = false →
     ∃ t, exec (.monitorRead [{ id := id, reading := some v }]) s = .next t ∧ readingKept s t id v ∧
       t.stack st = { s.stack st with demand := true, hot := true, cooled := false } ∧ (∀ q, q ≠ st → t.stack q = s.stack q) ∧
       aside { withReadings s t with units := { s.units with hbmStacks := t.units.hbmStacks }, seats := t.seats } t ∧
       ∀ n x, s.seat? n = some x → ∃ y : Seat, t.seat? n = some y ∧
         ((∃ z, (n, z) ∈ s.seats ∧ recQsize z.record ≠ 0 ∧ st / 2 ∈ regionsOf z.record) →
           y.quiet = { x with lossBeat := BitVec.ofNat 64 s.beat, turnLockstep := x.turnLockstep && !x.turnBegun }.quiet) ∧
         ((∀ z, (n, z) ∈ s.seats → recQsize z.record = 0 ∨ st / 2 ∉ regionsOf z.record) → y.quiet = x.quiet)) ∧
   (∀ (s : State) (id : Nat) (v : Int) (st : Nat), s.mod.hold = none → s.mod.state ≠ .reset → s.mod.powered = true →
     monitorExists id = true → monKind id = .hbm → (s.mon id).failed = false → st = id % 4096 - 80 →
     ((v < 720 ∧ (s.stack st).hot = true) ∨ (760 < v ∧ v ≤ 880 ∧ (s.stack st).demand = true)) →
     ∃ t, exec (.monitorRead [{ id := id, reading := some v }]) s = .next t ∧ readingKept s t id v ∧
       t.stack st = { s.stack st with cooled := decide (v < 720) } ∧ (∀ q, q ≠ st → t.stack q = s.stack q) ∧
       aside { withReadings s t with units := { s.units with hbmStacks := t.units.hbmStacks } } t) ∧
   (∀ (s : State) (id : Nat) (v : Int), s.mod.hold = none → s.mod.state ≠ .reset → s.mod.powered = true →
     monitorExists id = true → monKind id = .ring → id % 4096 < 128 → (s.mon id).state ≠ 2 →
     monNext id { s.mon id with reading := v } = 2 →
     ∃ t, exec (.monitorRead [{ id := id, reading := some v }]) s = .next t ∧ readingKept s t id v ∧
       (t.pcluster (id % 4096)).fence.isSome = true) ∧
   (∀ (s : State) (id : Nat) (v : Int), s.mod.hold = none → s.mod.state ≠ .reset → s.mod.powered = true →
     monitorExists id = true →
     (tripped { id := id, reading := some v } = true ∨
       ((monKind id = .vin ∨ monKind id = .rail) ∧ monNext id { s.mon id with reading := v } = 2)) →
     ∃ t, exec (.monitorRead [{ id := id, reading := some v }]) s = .next t ∧
       t.mod.state = .hold ∧
       t.mod.hold = some { trip := tripped { id := id, reading := some v }, monitors := [id], okSince := none } ∧
       t.pins.faultN = false ∧ t.pins.thermN = !tripped { id := id, reading := some v } ∧
       t.seats = [] ∧ t.mem = [] ∧ t.poison = [] ∧ t.tiles = [] ∧
       t.ni = {} ∧ t.clk = {} ∧ t.fw = s.fw ∧ t.flash.nand = s.flash.nand) ∧
   (∀ (s : State) (h : HoldInfo) (id : Nat) (v : Int), s.mod.hold = some h → monitorExists id = true →
     ∃ t, exec (.monitorRead [{ id := id, reading := some v }]) s = .next t ∧
       t = { s with mons := t.mons, mod := { s.mod with hold := t.mod.hold } } ∧
       t.mon id = { s.mon id with reading := v } ∧ (∀ j, j ≠ id → t.mon j = s.mon j) ∧
       ∃ ok : Bool, t.mod.hold = some { h with okSince := if ok then some (h.okSince.getD s.time) else none } ∧
         (ok = true ↔ ∀ i ∈ h.monitors,
           (t.mon i).failed = false ∧ outsideBounds (t.mon i).warnLo (t.mon i).warnHi (t.mon i).reading = false)) ∧
   (∀ (s : State) (l : List Sample), s.mod.hold = none → s.mod.state = .reset ∨ s.mod.powered = false →
     exec (.monitorRead l) s = .next s)) ∧
  ((∀ (s : State) (input stat dev total e : Nat) (act : List (Nat × Nat)) (dyn : Nat → Nat) (held : Seat → Nat),
     s.mod.refereeRuns = true → total = s.seats.foldl (fun a ks => a + activityOf act ks.1) dev → e = input - stat →
     (∀ n, dyn n =
       if total = 0 then activityOf act n / 1000
       else if 2000 * e < total then activityOf act n / 2000
       else if 2 * total < 1000 * e then 2 * activityOf act n / 1000
       else e * activityOf act n / total) →
     (∀ x, held x = if staticShare x then stat * (clustersOf x.record).length / s.ident.lclusters else 0) →
     ∃ t, exec (.energyAttribution input stat dev act) s = .next t ∧
       aside { s with seats := t.seats, pwr := t.pwr } t ∧
       t.pwr = { s.pwr with
         unattributed := s.pwr.unattributed + (input - s.seats.foldl (fun a ks => a + dyn ks.1 + held ks.2) 0)
         kLimitCount := if total ≠ 0 ∧ (2000 * e ≤ total ∨ 2 * total ≤ 1000 * e) ∧ s.pwr.kLimitCount ≠ 99 then
           s.pwr.kLimitCount + 1 else 0 } ∧
       ∀ n x, s.seat? n = some x → ∃ y, t.seat? n = some y ∧
         y.quiet = { x with energyDyn := x.energyDyn + dyn n, energyStatic := x.energyStatic + held x }.quiet) ∧
   (∀ (s : State) (input stat dev : Nat) (act : List (Nat × Nat)), s.mod.refereeRuns = false →
     exec (.energyAttribution input stat dev act) s = .next s))

/-! ### Fencing, withdrawal and self-tests -/

/-- The unit of island i (R562) is out: a cluster that was not fenced is, with its tiles, a region or a stack is withdrawn, and for a
link end or a hub the package has failed. -/
def islandOut (i : Nat) (s t : State) : Prop :=
  if i < 128 then (s.pcluster i).fence = none →
    (t.pcluster i).fence.isSome = true ∧ ∀ p, p < 8 → (t.ptile (8 * i + p)).fence.isSome = true
  else if i < 144 then (i - 128) ∈ t.units.withdrawnRegions
  else if i < 176 then (t.stack (i - 144)).withdrawn = true
  else t.mod.failedPackage = true

/-- A tile's fence: the cause and the time are kept, the fence is counted and the third retires the tile, other tiles
and the maps keep what they have, and every context of the tile that held a stream stops (R115, R567, R570); the fence
of a tile that backs no logical tile changes nothing else but the module's degraded state. A cluster's fence fences
its eight tiles, those not fenced before as part of it, and the logical cluster that it backed is displaced (R566). A
crossing error takes out the units on both sides (R482). A unit that is fenced already or does not exist, and any
fence before the tile map is built, change nothing. A stack that is withdrawn reads as poison of cause 0b00 and
discards its writes; a region is withdrawn with its clusters, its Druind engine and its two stacks; a Druind engine
that fails stands as lost, and with no ROUTE handed over or in progress nothing else changes; a package failure
destroys every seat, leaves every port DISABLED, and logs the FATAL record, which pulls FAULT_N low (R20, R564, R568).
A unit that is out already or does not exist, and a package failure before the Referee runs, change nothing. Where the
rules leave a point open here, it is the model's reading (log 41, log 52). -/
def Obligations.UnitsAreFencedAndWithdrawn : Prop :=
  ((∀ (s : State) (pt : Nat) (c : FenceCause), s.mod.mapBuilt = true → pt < 1024 → (s.ptile pt).fence = none →
     ∃ t, exec (.tileFenced pt c) s = .next t ∧
       t.ptile pt = { s.ptile pt with fence := some c, fenceTime := s.time, fences := (s.ptile pt).fences + 1,
                                      retired := decide (3 ≤ (s.ptile pt).fences + 1), testing := false, passed := false } ∧
       (∀ q, q ≠ pt → t.ptile q = s.ptile q) ∧ (∀ q, t.pcluster q = s.pcluster q) ∧
       t.units.tileMap = s.units.tileMap ∧ t.units.clusterMap = s.units.clusterMap ∧
       (∀ lt k, s.tileAt pt = some lt → k < 8 → (s.ctx lt k).state ≠ .free → (t.ctx lt k).state = .faulted) ∧
       (s.tileAt pt = none →
         aside { s with units := { s.units with ptiles := t.units.ptiles }, mod := { s.mod with degraded := t.mod.degraded } } t)) ∧
   (∀ (s : State) (pt : Nat) (c : FenceCause), s.mod.mapBuilt = false ∨ 1024 ≤ pt ∨ (s.ptile pt).fence.isSome = true →
     exec (.tileFenced pt c) s = .next s) ∧
   (∀ (s : State) (pc : Nat) (c : FenceCause), s.mod.mapBuilt = true → pc < 128 → (s.pcluster pc).fence = none →
     ∃ t, exec (.clusterFenced pc c) s = .next t ∧ t.pcluster pc = { fence := some c, fenceTime := s.time } ∧
       (∀ q, q ≠ pc → t.pcluster q = s.pcluster q) ∧ t.units.tileMap = s.units.tileMap ∧
       (∀ p, p < 8 → (t.ptile (8 * pc + p)).fence =
         (if (s.ptile (8 * pc + p)).fence = none then some .cluster else (s.ptile (8 * pc + p)).fence)) ∧
       (∀ q, q / 8 ≠ pc → t.ptile q = s.ptile q) ∧
       ∀ lc, s.clusterAt pc = some lc →
         FMap.find? t.units.clusterMap lc = none ∧ FMap.find? t.units.displaced lc = some pc) ∧
   (∀ (s : State) (pc : Nat) (c : FenceCause), s.mod.mapBuilt = false ∨ 128 ≤ pc ∨ (s.pcluster pc).fence.isSome = true →
     exec (.clusterFenced pc c) s = .next s) ∧
   (∀ (s : State) (a b : Nat), s.mod.mapBuilt = true → s.mod.refereeRuns = true → a < 200 → b < 200 →
     ∃ t, exec (.crossingError (256 * a + b)) s = .next t ∧ islandOut a s t ∧ islandOut b s t) ∧
   (∀ (s : State) (x : Nat), s.mod.mapBuilt = false ∨ 200 ≤ x / 256 ∨ 200 ≤ x % 256 → exec (.crossingError x) s = .next s)) ∧
  ((∀ (s : State) (st : Nat), st < 32 → (s.stack st).withdrawn = false →
     ∃ t, exec (.stackWithdrawn st) s = .next t ∧
       aside { s with units := { s.units with hbmStacks := t.units.hbmStacks } } t ∧
       t.stack st = { s.stack st with withdrawn := true } ∧ (∀ q, q ≠ st → t.stack q = s.stack q) ∧
       ∀ a, a < hbmEnd → stackOf a = st → t.byte a = 0 ∧ t.wordPoison (wordBase a) = some 0 ∧
         ∀ b, t.store a [b] = t) ∧
   (∀ (s : State) (st : Nat), 32 ≤ st ∨ (s.stack st).withdrawn = true → exec (.stackWithdrawn st) s = .next s) ∧
   (∀ (s : State) (r : Nat), r < 16 → r ∉ s.units.withdrawnRegions →
     ∃ t, exec (.regionWithdrawn r) s = .next t ∧ r ∈ t.units.withdrawnRegions ∧ r ∈ t.units.lostDruinds ∧
       (∀ k, k < 8 → (t.pcluster (8 * r + k)).fence.isSome = true) ∧
       (t.stack (2 * r)).withdrawn = true ∧ (t.stack (2 * r + 1)).withdrawn = true ∧
       ∀ q, q ≠ 2 * r → q ≠ 2 * r + 1 → t.stack q = s.stack q) ∧
   (∀ (s : State) (r : Nat), 16 ≤ r ∨ r ∈ s.units.withdrawnRegions → exec (.regionWithdrawn r) s = .next s) ∧
   (∀ (s : State) (r : Nat), r < 16 → r ∉ s.units.lostDruinds →
     ∃ t, exec (.druindEngineFailure r) s = .next t ∧ t.units = { s.units with lostDruinds := s.units.lostDruinds ++ [r] } ∧
       (s.druind.asks = [] → s.druind.runs = [] → t = { s with units := t.units })) ∧
   (∀ (s : State) (r : Nat), 16 ≤ r ∨ r ∈ s.units.lostDruinds → exec (.druindEngineFailure r) s = .next s) ∧
   (∀ (s : State) (u : PackageUnit), s.mod.failedPackage = false → s.mod.refereeRuns = true →
     ∃ t, exec (.packageFailed u) s = .next t ∧ t.mod.failedPackage = true ∧ t.pins.faultN = false ∧
       (∀ n, t.seat? n = none) ∧ (∀ p, p < 24 → (t.port p).state = .disabled)) ∧
   (∀ (s : State) (u : PackageUnit), s.mod.failedPackage = true ∨ s.mod.refereeRuns = false →
     exec (.packageFailed u) s = .next s))

/-- A cause of a fence after which the Referee starts a self-test by itself. -/
def selfTested (c : Option FenceCause) : Prop := c = some .threshold ∨ c = some .crossing ∨ c = some .process

/-- A self-test starts on a tile fenced for a threshold, a crossing or a process reading, of itself or of its cluster,
unless one runs or has passed, or the tile is retired. A tile that fails stays fenced. One that passes while a seat is
RUNNING waits for the next boundary as passed; with no seat RUNNING it returns at once, unless it backs a logical
tile, is retired, its region is withdrawn, or its cluster is fenced and another tile of it has not passed (R569,
R570). Where the rules leave a point open here, it is the model's reading (log 41). -/
def Obligations.SelfTestsDecideReturn : Prop :=
  (∀ (s : State) (pt : Nat), (s.ptile pt).fence.isSome = true →
    (selfTested (s.ptile pt).fence ∨ ((s.ptile pt).fence = some .cluster ∧ selfTested (s.pcluster (pt / 8)).fence)) →
    (s.ptile pt).testing = false → (s.ptile pt).passed = false → (s.ptile pt).retired = false →
    ∃ t, exec (.selftestStart pt) s = .next t ∧
      t = { s with units := { s.units with ptiles := t.units.ptiles } } ∧
      t.ptile pt = { s.ptile pt with testing := true } ∧ ∀ q, q ≠ pt → t.ptile q = s.ptile q) ∧
  (∀ (s : State) (pt : Nat), (s.ptile pt).testing = true ∨ (s.ptile pt).passed = true ∨ (s.ptile pt).retired = true ∨
    ¬ (selfTested (s.ptile pt).fence ∨ ((s.ptile pt).fence = some .cluster ∧ selfTested (s.pcluster (pt / 8)).fence)) →
    exec (.selftestStart pt) s = .next s) ∧
  (∀ (s : State) (pt : Nat) (p : TestPart), (s.ptile pt).testing = true →
    ∃ t, exec (.selftestEnd pt (some p)) s = .next t ∧
      aside { s with units := { s.units with ptiles := t.units.ptiles } } t ∧
      t.ptile pt = { s.ptile pt with testing := false } ∧ ∀ q, q ≠ pt → t.ptile q = s.ptile q) ∧
  (∀ (s : State) (pt n : Nat) (x : Seat), (s.ptile pt).testing = true → (n, x) ∈ s.seats → x.state = .running →
    ∃ t, exec (.selftestEnd pt none) s = .next t ∧
      t = { s with units := { s.units with ptiles := t.units.ptiles } } ∧
      t.ptile pt = { s.ptile pt with testing := false, passed := true } ∧ ∀ q, q ≠ pt → t.ptile q = s.ptile q) ∧
  (∀ (s : State) (pt : Nat), pt < 1024 → (s.ptile pt).testing = true → (∀ n x, (n, x) ∈ s.seats → x.state ≠ .running) →
    ∃ t, exec (.selftestEnd pt none) s = .next t ∧
      aside { s with units := { s.units with ptiles := t.units.ptiles, pclusters := t.units.pclusters }
                     mod := { s.mod with degraded := t.mod.degraded } } t ∧
      ((s.ptile pt).retired = false → s.tileAt pt = none → pt / 64 ∉ s.units.withdrawnRegions → (s.pcluster (pt / 8)).fence = none →
        t.ptile pt = { s.ptile pt with fence := none, testing := false, passed := false }) ∧
      ((s.ptile pt).retired = true ∨ s.tileAt pt ≠ none ∨ pt / 64 ∈ s.units.withdrawnRegions ∨
          ((s.pcluster (pt / 8)).fence ≠ none ∧ ∃ q, q / 8 = pt / 8 ∧ q ≠ pt ∧ (s.ptile q).passed = false) →
        t.ptile pt = { s.ptile pt with testing := false, passed := true })) ∧
  (∀ (s : State) (pt : Nat) (f : Option TestPart), (s.ptile pt).testing = false → exec (.selftestEnd pt f) s = .next s)

/-! ### Kernels, turns and time-sharing -/

/-- Every context that a kernel bound on a tile still held is FREE, FAULTED or another's. -/
def kernelOver (s : State) (n : Nat) (x : Seat) (r : Running) : Prop :=
  ∀ b ∈ r.bound, ∀ lt, x.tile? b.1 = some lt →
    (s.ctx lt b.2).seat ≠ n ∨ (s.ctx lt b.2).state = .free ∨ (s.ctx lt b.2).state = .faulted

/-- The seat after its kernel r. -/
def afterKernel (x : Seat) (r : Running) : Seat :=
  { x with running := none, turnEnded := r.launch.turnEnd
           preempt := { x.preempt with point := !recGrain x.record || r.launch.layerEnd } }

/-- A launch begins: on a seat that is on its clusters, with no kernel in progress, no turn boundary or drain to come
and, at the start of a turn, no realignment due, the first launch of its queue leaves it and is in progress; the first
kernel of a turn begins it with the seed in force and notes whether the package is in lockstep; and every stream
binding on a held tile leaves its context FETCHING at its stream, or FAULTED where the tile is fenced or unbacked, so
that with every bound tile healthy no byte of memory changes. A seat marked for pre-emption is looked at by the
dispatcher first, and is bound only if it stays on its clusters; one that is off them only has the dispatcher look; in
every other case nothing happens (R71, R115 to R117, R486, R510, R511, R514). A kernel is over when every context that
it bound is FREE or FAULTED, and not before: its launch's command completes with the kernel's status, the turn number,
the time from its first issue and EXACT; after an error the later launches of its turn are discarded; a TURN_END
launch ends its turn; then the seat's state is settled and the dispatcher looks. A turn boundary passes when the turn
has ended, no kernel is in progress, the seat is on its clusters and no ROUTE of it is in progress, and only then,
also within a drain: the turn counter goes up by one and the settings that waited come into force; other seats keep
their turns (R33, R202, R505, R512, R547). Where the rules leave a point open here, it is the model's reading (log 39,
log 41, log 67). -/
def Obligations.KernelsBeginAndEnd : Prop :=
  ((∀ (s u : State) (n : Nat) (x y : Seat) (l : Launch) (rest : List Launch) (p : Program),
     s.seat? n = some x → x.launches = l :: rest → x.program = some p → (x.state = .running ∨ x.state = .preempted) →
     x.running = none → x.turnEnded = false → x.drain = none → x.preempt.phase = .none →
     (x.turnBegun = true ∨ s.realignDue = false) → u = (if x.preempt.marked = true then s.dispatch else s) →
     u.seat? n = some y → y.preempt.phase = .none →
     ∃ (t : State) (z : Seat), exec (.kernelBind n) s = .next t ∧ t.seat? n = some z ∧
       z.quiet = { y with
         launches := rest, running := z.running, turnBegun := true, facts := z.facts, preempt := { y.preempt with point := false }
         seedTurn := if y.turnBegun = true then y.seedTurn else y.seed
         turnLockstep := if y.turnBegun = true then y.turnLockstep else u.clk.lockstep && u.scheduled y
         hcRecords := z.hcRecords }.quiet ∧
       z.running.map (fun r => (r.launch, r.bound, r.first)) =
         some (l, (p.bindingsOf l.kernel).map (fun b => (b.ltile, b.ctx)), none) ∧
       (∀ b ∈ p.bindingsOf l.kernel, ∀ lt, y.tile? b.ltile = some lt → b.ctx < (u.tile lt).ctxs.length →
         (t.ctx lt b.ctx).seat = n ∧
         ((∃ pt, FMap.find? u.units.tileMap lt = some pt ∧ u.tileHealthy pt = true) → (t.ctx lt b.ctx).state = .fetching) ∧
         ((∀ pt, FMap.find? u.units.tileMap lt = some pt → u.tileHealthy pt = false) → (t.ctx lt b.ctx).state = .faulted)) ∧
       (∀ m, m ≠ n → (t.seat? m).map Seat.quiet = (u.seat? m).map Seat.quiet) ∧
       aside { u with seats := t.seats, tiles := t.tiles, mem := t.mem, poison := t.poison } t ∧
       ((∀ b ∈ p.bindingsOf l.kernel, ∀ lt, y.tile? b.ltile = some lt →
           ∃ pt, FMap.find? u.units.tileMap lt = some pt ∧ u.tileHealthy pt = true) →
         t.mem = u.mem ∧ t.poison = u.poison)) ∧
   (∀ (s u : State) (n : Nat) (x y : Seat), s.seat? n = some x → x.launches ≠ [] → x.program.isSome = true →
     (x.state = .running ∨ x.state = .preempted) → x.running = none → x.turnEnded = false → x.drain = none →
     (x.preempt.phase ≠ .none ∨ ((x.turnBegun = true ∨ s.realignDue = false) ∧ x.preempt.marked = true)) →
     u = s.dispatch → u.seat? n = some y → y.preempt.phase ≠ .none → exec (.kernelBind n) s = .next u) ∧
   (∀ (s : State) (n : Nat), (∀ x, s.seat? n = some x → x.launches = [] ∨ x.program = none ∨
       (x.state ≠ .running ∧ x.state ≠ .preempted) ∨ x.running.isSome = true ∨ x.turnEnded = true ∨ x.drain.isSome = true ∨
       (x.preempt.phase = .none ∧ x.turnBegun = false ∧ s.realignDue = true)) →
     exec (.kernelBind n) s = .next s)) ∧
  ((∀ (s : State) (n : Nat) (x : Seat) (r : Running), s.seat? n = some x → x.running = some r → kernelOver s n x r → r.status = none →
     exec (.kernelComplete n) s = .next ((((s.setSeat n (afterKernel x r)).complete r.launch.cmd .success
       (launchResult x.turn.toNat (s.elapsed r) (r.exact && s.lockstepTurn x)) []).seatSettle n).dispatch)) ∧
   (∀ (s : State) (n : Nat) (x : Seat) (r : Running) (st : Status), s.seat? n = some x → x.running = some r → kernelOver s n x r →
     r.status = some st →
     exec (.kernelComplete n) s = .next (((((s.setSeat n (afterKernel x r)).complete r.launch.cmd st
       (launchResult x.turn.toNat (s.elapsed r) (r.exact && s.lockstepTurn x)) []).discardTurn n).seatSettle n).dispatch)) ∧
   (∀ (s : State) (n : Nat), (∀ x r, s.seat? n = some x → x.running = some r → ¬ kernelOver s n x r) →
     exec (.kernelComplete n) s = .next s) ∧
   (∀ (s : State) (n : Nat) (x : Seat), s.seat? n = some x → x.turnEnded = true → x.running = none → x.preempt.phase = .none →
     s.routing n = false →
     ∃ t y, exec (.turnBoundary n) s = .next t ∧ t.seat? n = some y ∧ y.turn = x.turn + 1 ∧ y.turnBegun = false ∧
       y.turnAborted = false ∧ y.turnEnded = false ∧ y.record = x.nextRecord.getD x.record ∧ y.nextRecord = none ∧
       y.nextAreas = none ∧ (∀ a, x.nextAreas = some a → (a.fault ≠ 0 → y.areas.fault = a.fault) ∧
         (a.event ≠ 0 → y.areas.event = a.event) ∧ (a.manifest ≠ 0 → y.areas.manifest = a.manifest ∧ y.areas.n = a.n)) ∧
       y.seed = x.seed ∧ y.epoch = x.epoch ∧ y.program = x.program ∧
       (∀ m, m ≠ n → (t.seat? m).map (fun z => z.turn) = (s.seat? m).map (fun z => z.turn))) ∧
   (∀ (s : State) (n : Nat), (s.routing n = true ∨ ∀ x, s.seat? n = some x →
       x.turnEnded = false ∨ x.running.isSome = true ∨ x.preempt.phase ≠ .none) →
     exec (.turnBoundary n) s = .next s) ∧
   (∀ (s : State) (n : Nat), s.routing n = true → exec (.drainEnd n) s = .next s))

/-- Time-sharing: a seat whose QUANTUM has passed while one of equal PRIORITY waits for its clusters is marked, and
only then. A save that completes leaves the seat PREEMPTED, or HALTED as it was, with the image of its stores; aside
from seats and what is charged nothing changes. A restore that completes puts the seat back on its clusters, HALTED,
IDLE or RUNNING, and changes no byte outside its stores. A seat that is not being saved or restored is left as it is
(R514 to R516). A drain that is over: a destroyed seat is ABSENT; a torn-down seat is IDLE or HALTED as it was, or
RUNNING where launches wait, past the boundary of a turn that had ended, its epoch has gone up by one, past 0, its
windows are invalid, its groups are gone and its counters read 0. At the drain limit a destroyed seat is ABSENT
whatever is outstanding, and a torn-down one has its drain behind it with its epoch gone up. A seat that does not
drain is left alone (R613 to R615). Where the rules leave a point open here, it is the model's reading (log 38, log
40, log 41). -/
def Obligations.SharedSeatsTakeTurnsAndDrain : Prop :=
  ((∀ (s : State) (n m : Nat) (x z : Seat), s.seat? n = some x → x.preempt.phase = .none → (m, z) ∈ s.seats → m ≠ n →
     conflict x z = true → recPriority z.record = recPriority x.record → z.preempt.phase = .saved → s.wants m z = true →
     ∃ t y, exec (.quantumExpiry n) s = .next t ∧ t.seat? n = some y ∧ y.preempt.marked = true ∧
       t = { s with seats := t.seats } ∧ y = { x with preempt := y.preempt }) ∧
   (∀ (s : State) (n : Nat), (∀ x m z, s.seat? n = some x → (m, z) ∈ s.seats →
       x.preempt.phase ≠ .none ∨ m = n ∨ conflict x z = false ∨ recPriority z.record ≠ recPriority x.record ∨
       z.preempt.phase ≠ .saved ∨ s.wants m z = false) →
     exec (.quantumExpiry n) s = .next s) ∧
   (∀ (s : State) (n : Nat) (x : Seat), s.seat? n = some x → x.preempt.phase = .saving →
     ∃ t y, exec (.saveComplete n) s = .next t ∧ t.seat? n = some y ∧
       y.quiet = ({ x with preempt := y.preempt, state := if x.state = .halted then .halted else .preempted } : Seat).quiet ∧
       y.preempt.image = some (s.saveImage x) ∧ y.preempt.marked = false ∧
       (y.preempt.phase = .saved ∨ y.preempt.phase = .restoring) ∧
       aside { s with seats := t.seats } t) ∧
   (∀ (s : State) (n : Nat), (∀ x, s.seat? n = some x → x.preempt.phase ≠ .saving) → exec (.saveComplete n) s = .next s) ∧
   (∀ (s : State) (n : Nat) (x : Seat), s.seat? n = some x → x.preempt.phase = .restoring →
     ∃ t y, exec (.restoreComplete n) s = .next t ∧ t.seat? n = some y ∧
       y.preempt = { beganAt := s.time } ∧ y.heldSignals = [] ∧ y.record = x.record ∧ y.turn = x.turn ∧
       y.launches = x.launches ∧ y.running = x.running ∧ y.program = x.program ∧ y.spaces = x.spaces ∧ y.epoch = x.epoch ∧
       y.state = (if x.state = .halted then SeatState.halted else if x.launches = [] then .idle else .running) ∧
       ∀ a, (∀ st ∈ (s.remapTiles n x.tiles).stores x, ∀ b, st.2.1 = some b → a < b ∨ b + st.2.2 ≤ a) →
         t.byte a = s.byte a ∧ t.wordPoison (wordBase a) = s.wordPoison (wordBase a)) ∧
   (∀ (s : State) (n : Nat), (∀ x, s.seat? n = some x → x.preempt.phase ≠ .restoring) → exec (.restoreComplete n) s = .next s)) ∧
  ((∀ (s : State) (n : Nat) (x : Seat) (d : Drain), s.seat? n = some x → x.drain = some d → d.kind = .destroy →
     s.drained n = true →
     ∃ t, exec (.drainEnd n) s = .next t ∧ t.seat? n = none) ∧
   (∀ (s : State) (n : Nat) (x : Seat) (d : Drain), s.seat? n = some x → x.drain = some d → d.kind = .teardown →
     s.drained n = true →
     ∃ t y, exec (.drainEnd n) s = .next t ∧ t.seat? n = some y ∧ y.drain = none ∧
       y.state = (if d.halted = true then SeatState.halted else if x.running.isSome = true ∨ x.launches ≠ [] then .running else .idle) ∧
       y.epoch = (if (x.epoch.toNat + 1) % 2 ^ 32 = 0 then 1 else x.epoch + 1) ∧
       y.record = (if x.turnEnded = true then x.nextRecord.getD x.record else x.record) ∧
       y.turn = (if x.turnEnded = true then x.turn + 1 else x.turn) ∧ y.spaces = [] ∧ y.window = none ∧ y.program = none ∧
       (∀ k w, FMap.find? t.ni.windows k = some w → w.seat = n → w.v = false) ∧
       (∀ k g, FMap.find? t.ni.groups k = some g → g.seat ≠ n) ∧
       (∀ i, i < 64 → ∀ v, v < 1024 → t.readCtr n (.tile v i) = 0) ∧
       (∀ i, i < 256 → ∀ c, c < 128 → t.readCtr n (.cluster c i) = 0) ∧
       (∀ i, i < 4096 → t.readCtr n (.ni i) = 0)) ∧
   (∀ (s : State) (n : Nat), (∀ x, s.seat? n = some x → x.drain = none ∨ s.drained n = false) → exec (.drainEnd n) s = .next s) ∧
   (∀ (s : State) (n : Nat) (x : Seat) (d : Drain), s.seat? n = some x → x.drain = some d → d.kind = .destroy →
     ∃ t, exec (.drainLimit n) s = .next t ∧ t.seat? n = none) ∧
   (∀ (s : State) (n : Nat) (x : Seat) (d : Drain), s.seat? n = some x → x.drain = some d → d.kind = .teardown →
     ∃ t y, exec (.drainLimit n) s = .next t ∧ t.seat? n = some y ∧ y.drain = none ∧
       y.record = (if x.turnEnded = true then x.nextRecord.getD x.record else x.record) ∧
       y.epoch = (if (x.epoch.toNat + 1) % 2 ^ 32 = 0 then 1 else x.epoch + 1)) ∧
   (∀ (s : State) (n : Nat), (∀ x, s.seat? n = some x → x.drain = none) → exec (.drainLimit n) s = .next s))

/-! ### Commands of the opcode table: checks and completion -/

/-- A command of the opcode table begins and ends with a status, with no other effect. -/
def refused (i : Instr) (s : State) (id : Nat) (st : Status) : Prop :=
  exec i s = .next ((s.beginCmd id).complete id st [] [])

/-- The checks of R536 that follow acceptance: a command whose seat does not allow it completes with SEAT_STATE, one
whose length or ARG is not of its opcode with CMD_INVALID, and a refused command has no other effect. (A SEAT_TEARDOWN
of a seat that is off its clusters waits for them before the second check, and SeatsChangeAndDrain says what it does.) -/
def Obligations.RefusedCommandsOnlyComplete : Prop :=
  (∀ (s : State) (i : Instr) (id code : Nat) (c : Cmd) (r : Opcode), opcodeOf i = some (id, code) → s.mayStart id code c r →
    r.seat = true → seatAllows r (s.seat? (chSeat c.packet)) = false →
    exec i s = .next (s.complete id .seatState [] [])) ∧
  (∀ (s : State) (i : Instr) (id code : Nat) (c : Cmd) (r : Opcode), opcodeOf i = some (id, code) → s.mayStart id code c r →
    (r.seat = true → seatAllows r (s.seat? (chSeat c.packet)) = true) → lengthOk r c.packet = false →
    (code = 0x0209 → ∀ x, s.seat? (chSeat c.packet) = some x → x.preempt.phase = .none) →
    exec i s = .next (s.complete id .cmdInvalid [] []))

/-- The reply to a management command over MCTP: its entry, and its response cut to 4,096 bytes. -/
def mctpReply (b : Bytes) (st : Status) (result resp : Bytes) : Bytes :=
  entryBytes b st false 0 0 resp.length result ++ resp.take 4096

/-- A completion goes to its issuer. A ring gets its entry at the completion tail, which advances, PHASE flipping
where it wraps, one entry less outstanding, and with IRQ set one completion more to be signalled, which at the ring's
threshold its vector signals; other functions and the package's own memory stay as they are. A management transport
gets a reply, which is kept for a repeat: an MCTP message to the endpoint that asked, or a MGMT packet by the port of
its arrival where that is UP. Either way the command is over. A command whose ring was reset or disabled meanwhile is
over without an entry (R533, R538, R541, R545, R554, R557). -/
def Obligations.CompletionsGoToTheirIssuer : Prop :=
  (∀ (s t : State) (id : Nat) (c : Cmd) (fn q : Nat) (r : Ring) (st : Status) (result resp : Bytes), s.cmd? id = some c →
    c.issuer = .ring fn q → c.discard = false → q < (s.fn fn).rings.length → r = s.ring fn q →
    t = s.complete id st result resp →
     t.cmd? id = none ∧
     t.hostBytes (fn / 16) (r.cqBase.toNat + 32 * r.cqTail) 32 =
       entryBytes c.packet st r.phase q c.sqHead resp.length result ∧
     t.ring fn q = { r with
       cqTail := if r.cqTail + 1 = rqCq r.cfg then 0 else r.cqTail + 1
       phase := if r.cqTail + 1 = rqCq r.cfg then !r.phase else r.phase
       outstanding := r.outstanding - 1
       unsignalled := if chIrq c.packet = false then r.unsignalled
         else if rqCount r.cfg ≤ r.unsignalled + 1 ∨ rqTime r.cfg = 0 then 0 else r.unsignalled + 1
       firstIrq := if chIrq c.packet = true ∧ r.unsignalled = 0 then s.time else r.firstIrq } ∧
     (∀ m, m ≠ fn → t.fn m = s.fn m) ∧ aside { s with host := t.host } t ∧
     t.host = { s.host with functions := t.host.functions, hostMem := t.host.hostMem, msixSent := t.host.msixSent, cmds := t.host.cmds }) ∧
  (∀ (s : State) (id : Nat) (c : Cmd) (fn q : Nat) (st : Status) (result resp : Bytes), s.cmd? id = some c →
    c.issuer = .ring fn q → c.discard = true →
    s.complete id st result resp =
      (if (s.ring fn q).state = .resetting then
        (s.dropCmd id).setRing fn q { s.ring fn q with outstanding := (s.ring fn q).outstanding - 1 }
       else s.dropCmd id)) ∧
  (∀ (s t : State) (id : Nat) (c : Cmd) (eid : Nat) (st : Status) (result resp : Bytes), s.cmd? id = some c →
    (c.issuer = .mgmt (.i2c eid) ∨ ∃ r, c.issuer = .mgmt (.vdm r eid)) → c.discard = false →
    t = s.complete id st result resp →
     t = { s with host := { s.host with cmds := t.host.cmds }, mgmt := { s.mgmt with kept := t.mgmt.kept, mctpOut := t.mgmt.mctpOut } } ∧
     t.cmd? id = none ∧
     t.mgmt.mctpOut = s.mgmt.mctpOut ++
       [{ dest := eid, type := 0x7E, body := s.vendorMessage 2 (mctpReply c.packet st result resp) }] ∧
     ∃ k ∈ t.mgmt.kept, k.fabric = false ∧ k.source = eid ∧ k.tag = chTag c.packet ∧ k.reply = mctpReply c.packet st result resp) ∧
  (∀ (s t : State) (id : Nat) (c : Cmd) (node p : Nat) (st : Status) (result resp reply : Bytes), s.cmd? id = some c →
    c.issuer = .mgmt (.fabric node p) → c.discard = false → p < 24 → (s.port p).state = .up →
    reply = entryBytes c.packet st false 0 0 resp.length result ++ resp.take 224 → t = s.complete id st result resp →
     t = { s with host := { s.host with cmds := t.host.cmds }, mgmt := { s.mgmt with kept := t.mgmt.kept }
                  fab := { s.fab with ports := t.fab.ports } } ∧
     t.cmd? id = none ∧ (∀ q, q ≠ p → t.port q = s.port q) ∧
     t.port p = { s.port p with queue := (s.port p).queue ++ [{
       req := 24, hub := portHub p, seat := none, pkt := { mkPacket node 0x20 0 0 0 0 reply with src := s.fab.node }
       sent := 0, origin := [] }] } ∧
     ∃ k ∈ t.mgmt.kept, k.fabric = true ∧ k.source = node ∧ k.tag = chTag c.packet ∧ k.reply = reply) ∧
  (∀ (s : State) (id : Nat) (c : Cmd) (via : Mgmt) (st : Status) (result resp : Bytes), s.cmd? id = some c →
    c.issuer = .mgmt via → c.discard = true → s.complete id st result resp = s.dropCmd id)

/-! ### Queries -/

/-- The commands that only ask complete with SUCCESS and their response, and change nothing else: identity,
capabilities, tile map, the first 256 remaps from a turn on, a port's allotment and what its seats and namespaces
leave of it, a seat's record with its seed and epoch in force, its state and turn, a window entry without the secret
of another seat's key, port status, flash health and monitors. Where the rules leave a point open here, it is the
model's reading (log 43, log 44, log 47). -/
def Obligations.QueriesAnswer : Prop :=
  (∀ s id c, s.canRun id 0x0101 c → exec (.infoIdentity id) s = .next ((s.beginCmd id).complete id .success [] s.identity)) ∧
  (∀ s id c, s.canRun id 0x0102 c → exec (.infoCaps id) s = .next ((s.beginCmd id).complete id .success [] s.capsBytes)) ∧
  (∀ s id c, s.canRun id 0x0103 c → exec (.infoTileMap id) s = .next ((s.beginCmd id).complete id .success []
    ((List.range 1024).flatMap (fun pt => natLe 4 ((s.tileAt pt).getD 0xFFFF + s.tileCode pt * 2 ^ 16))))) ∧
  (∀ s id c, s.canRun id 0x0104 c → exec (.infoRemaps id) s = .next ((s.beginCmd id).complete id .success []
    (((s.units.remaps.filter (fun r => decide (chArg c.packet ≤ r.turn))).take 256).flatMap remapBytes))) ∧
  (∀ s id c, s.canRun id 0x0105 c → exec (.infoAllot id) s = .next ((s.beginCmd id).complete id .success []
    (allotBytes (s.allot (chArg c.packet)) ++ allotBytes (allotFree (s.allot (chArg c.packet))
      ((s.portSeats (chArg c.packet)).map (fun ks => ks.2.record)) (s.extentsOf (chArg c.packet)))))) ∧
  (∀ s id c x, s.canRun id 0x0204 c → s.seat? (chSeat c.packet) = some x →
    exec (.seatQuery id) s = .next ((s.beginCmd id).complete id .success []
      (padTo 96 (x.current ++ natLe 1 (stateCode x.state) ++ List.replicate 7 (0 : Byte) ++ natLe 8 x.turn.toNat ++
        natLe 4 x.epoch.toNat)))) ∧
  (∀ s id c x, s.canRun id 0x0302 c → s.seat? (chSeat c.packet) = some x →
    exec (.memWindowGet id) s = .next ((s.beginCmd id).complete id .success []
      (match FMap.find? s.ni.windows (chArg c.packet) with
       | none => List.replicate 32 0
       | some w => windowBytes (if w.seat = chSeat c.packet then w else { w with key := w.key % 4096 })))) ∧
  (∀ s id c, s.canRun id 0x0505 c → exec (.fabStatus id) s = .next ((s.beginCmd id).complete id .success []
    ((List.range 24).flatMap s.portStatus))) ∧
  (∀ s id c, s.canRun id 0x0609 c → exec (.flashHealth id) s = .next ((s.beginCmd id).complete id .success [] s.flashHealth)) ∧
  (∀ s id c, s.canRun id 0x0805 c → exec (.monitors id) s = .next ((s.beginCmd id).complete id .success []
    (monitorIds.flatMap (fun i => monRecord i (s.mon i)))))

/-! ### Seats by command -/

/-- The areas that a SEAT_AREAS payload names. -/
def areasNamed (p : Bytes) : Areas := { fault := fld p 0 8, event := fld p 8 8, manifest := fld p 16 8, n := fld p 24 4 }

/-- Where PRODUCED of a fault area or event queue named by SEAT_AREAS stands. -/
def producedAt (s : State) (x : Seat) (a : Areas) (p : Nat) : Prop :=
  (a.fault ≠ 0 ∧ s.quotaAddr x a.fault 64 = some p) ∨ (a.event ≠ 0 ∧ s.quotaAddr x a.event 64 = some p)

/-- A seat is created IDLE with the record, its level, the seed and the epoch given, its Druind share and its TC0
bucket full, off its clusters where another SHARED seat is on one of them; every counter of it, of its tiles, clusters
and NI and of the fixed ones, is 0, with nothing on its way to them; other seats, their counters and memory stay, and
nothing else changes. The command needs its payload to name the seat, the module to be admitted, and the checks of
R502 to hold in their order; the first that fails is its status. Commands that set one thing of a seat: the seed of
turns that begin afterwards; the turn counter of an IDLE seat; areas, inside a turn for the boundary, else at once
with the PRODUCED fields of those named set to 0 and no other byte of memory changed; a range of its NI counters that
it has and no armed entry watches, every other counter staying; a port's allotment that is in range, apart from the
others and holds what the port's seats and namespaces have. Each completes with SUCCESS and changes nothing else; one
whose checks fail completes with their status and changes nothing. Where the rules leave a point open here, it is the
model's reading (log 42). -/
def Obligations.SeatsAreCreatedAndSet : Prop :=
  ((∀ (s : State) (id n : Nat) (c : Cmd) (r : Bytes), s.canRun id 0x0201 c → n = chSeat c.packet → r = chPayload c.packet →
     byteAt r 0 = n → s.mod.admitted = true →
     firstFail (s.recordChecks n r (s.fnPresent n && (s.seat? n).isNone)) = none →
     ∃ (u : State) (x : Seat), exec (.seatCreate id) s = .next (u.complete id .success [] []) ∧ u.seat? n = some x ∧
       x = { record := r, level := s.levelOf r, seed := BitVec.ofNat 64 (recSeed r), seedTurn := BitVec.ofNat 64 (recSeed r)
             epoch := BitVec.ofNat 32 (recEpoch r), tc0Bucket := recTc0Cap r * 256, tc0At := s.time
             haltLatch := !s.pins.haltN, share := s.shareOf r, home := s.homeMap r
             preempt := if s.seats.any (fun (ks : Nat × Seat) =>
                 ks.1 != n && conflict ks.2 { record := r } && !(decide (ks.2.preempt.phase = .saved))) then { phase := .saved } else {} } ∧
       u = { s.beginCmd id with seats := u.seats, sync := (s.clearCounters n).sync, ctrs := { s.ctrs with fixed := u.ctrs.fixed }
                                ni := { s.ni with ctr := u.ni.ctr } } ∧
       (∀ m, m ≠ n → u.seat? m = s.seat? m) ∧
       (∀ m v i, v < 1024 → i < 64 → u.readCtr m (.tile v i) = if m = n then 0 else s.readCtr m (.tile v i)) ∧
       (∀ m v i, v < 128 → i < 256 → u.readCtr m (.cluster v i) = if m = n then 0 else s.readCtr m (.cluster v i)) ∧
       (∀ m i, i < 4096 → u.readCtr m (.ni i) = if m = n then 0 else s.readCtr m (.ni i)) ∧
       (∀ code inst, seatKind code = true → n < 128 → inst < 2048 → u.counter code (some n) inst = 0)) ∧
   (∀ (s : State) (id : Nat) (c : Cmd), s.canRun id 0x0201 c → byteAt (chPayload c.packet) 0 ≠ chSeat c.packet →
     refused (.seatCreate id) s id .cmdInvalid) ∧
   (∀ (s : State) (id : Nat) (c : Cmd), s.canRun id 0x0201 c → byteAt (chPayload c.packet) 0 = chSeat c.packet →
     s.mod.admitted = false → refused (.seatCreate id) s id .admissionRequired) ∧
   (∀ (s : State) (id : Nat) (c : Cmd) (st : Status), s.canRun id 0x0201 c →
     byteAt (chPayload c.packet) 0 = chSeat c.packet → s.mod.admitted = true →
     firstFail (s.recordChecks (chSeat c.packet) (chPayload c.packet)
       (s.fnPresent (chSeat c.packet) && (s.seat? (chSeat c.packet)).isNone)) = some st →
     refused (.seatCreate id) s id st)) ∧
  ((∀ s id c x, s.canRun id 0x0205 c → s.seat? (chSeat c.packet) = some x →
     exec (.seatSeed id) s = .next (((s.beginCmd id).setSeat (chSeat c.packet)
       { x with seed := BitVec.ofNat 64 (chArg c.packet) }).complete id .success [] [])) ∧
   (∀ s id c x, s.canRun id 0x0206 c → s.seat? (chSeat c.packet) = some x →
     exec (.seatNextTurn id) s = .next (((s.beginCmd id).setSeat (chSeat c.packet)
       { x with turn := BitVec.ofNat 64 (chArg c.packet) }).complete id .success [] [])) ∧
   (∀ (s : State) id c x (a : Areas), s.canRun id 0x0207 c → s.seat? (chSeat c.packet) = some x → a = areasNamed (chPayload c.packet) →
     zeros (chPayload c.packet) 28 32 = true → s.areasOk x a = true → x.turnBegun = true →
     exec (.seatAreas id) s = .next (((s.beginCmd id).setSeat (chSeat c.packet)
         { x with nextAreas := some (mergeAreas (x.nextAreas.getD {}) a) }).complete id .success [] [])) ∧
   (∀ (s : State) id c x (a : Areas), s.canRun id 0x0207 c → s.seat? (chSeat c.packet) = some x → a = areasNamed (chPayload c.packet) →
     zeros (chPayload c.packet) 28 32 = true → s.areasOk x a = true → x.turnBegun = false →
     ∃ u : State, exec (.seatAreas id) s = .next (u.complete id .success [] []) ∧
       aside { (s.beginCmd id).setSeat (chSeat c.packet) { x with
           areas := mergeAreas x.areas a, nextAreas := none, hcRecords := if a.fault = 0 then x.hcRecords else (0, []) } with
         mem := u.mem } u ∧
       (∀ p, producedAt s x a p → s.rangePoison p 4 = none → u.bytes p 4 = [0, 0, 0, 0]) ∧
       (∀ b, (∀ p, producedAt s x a p → b < p ∨ p + 4 ≤ b) → u.byte b = s.byte b)) ∧
   (∀ (s : State) id c x, s.canRun id 0x0207 c → s.seat? (chSeat c.packet) = some x → zeros (chPayload c.packet) 28 32 = false →
     refused (.seatAreas id) s id .cmdInvalid) ∧
   (∀ (s : State) id c x, s.canRun id 0x0207 c → s.seat? (chSeat c.packet) = some x → zeros (chPayload c.packet) 28 32 = true →
     s.areasOk x (areasNamed (chPayload c.packet)) = false → refused (.seatAreas id) s id .configInvalid) ∧
   (∀ (s : State) id c x (first count : Nat), s.canRun id 0x020A c → s.seat? (chSeat c.packet) = some x →
     first = chArg c.packet % 2 ^ 16 → count = chArg c.packet / 2 ^ 16 % 2 ^ 16 →
     (count = 0 ∨ (first + count ≤ 4096 ∧ ∀ i, i < count → hasNiCtr x.record (first + i) = true)) →
     (∀ k e, (k, e) ∈ s.ni.triggers → k / 4096 = chSeat c.packet → e.running = true ∨ e.ctr < first ∨ first + count ≤ e.ctr) →
      ∃ u : State, exec (.seatNiClear id) s = .next (u.complete id .success [] []) ∧
        u = { s.beginCmd id with ni := { s.ni with ctr := u.ni.ctr } } ∧
        ∀ m k, k < 4096 → u.readCtr m (.ni k) =
          if m = chSeat c.packet ∧ first ≤ k ∧ k < first + count then 0 else s.readCtr m (.ni k)) ∧
   (∀ (s : State) id c x (first count : Nat), s.canRun id 0x020A c → s.seat? (chSeat c.packet) = some x →
     first = chArg c.packet % 2 ^ 16 → count = chArg c.packet / 2 ^ 16 % 2 ^ 16 → count ≠ 0 →
     (4096 < first + count ∨ ∃ i, i < count ∧ hasNiCtr x.record (first + i) = false) →
     refused (.seatNiClear id) s id .configInvalid) ∧
   (∀ (s : State) id c x (first count : Nat) k e, s.canRun id 0x020A c → s.seat? (chSeat c.packet) = some x →
     first = chArg c.packet % 2 ^ 16 → count = chArg c.packet / 2 ^ 16 % 2 ^ 16 →
     (count = 0 ∨ (first + count ≤ 4096 ∧ ∀ i, i < count → hasNiCtr x.record (first + i) = true)) →
     (k, e) ∈ s.ni.triggers → k / 4096 = chSeat c.packet → e.running = false → first ≤ e.ctr → e.ctr < first + count →
     refused (.seatNiClear id) s id .triggerBusy) ∧
   (∀ s id c, s.canRun id 0x020B c → zeros (chPayload c.packet) 0 16 = true → zeros (chPayload c.packet) 52 64 = true →
     s.allotOk (chArg c.packet) (allotOf (chPayload c.packet)) = true →
     allotFits (allotOf (chPayload c.packet)) ((s.portSeats (chArg c.packet)).map (fun ks => ks.2.record)) = true →
     s.extentsOf (chArg c.packet) ≤ (allotOf (chPayload c.packet)).extents →
     exec (.portAllot id) s = .next ({ s.beginCmd id with host := { (s.beginCmd id).host with
       allots := s.host.allots.set (chArg c.packet) (allotOf (chPayload c.packet)) } }.complete id .success [] [])) ∧
   (∀ s id c, s.canRun id 0x020B c → (zeros (chPayload c.packet) 0 16 = false ∨ zeros (chPayload c.packet) 52 64 = false) →
     refused (.portAllot id) s id .cmdInvalid) ∧
   (∀ s id c, s.canRun id 0x020B c → zeros (chPayload c.packet) 0 16 = true → zeros (chPayload c.packet) 52 64 = true →
     s.allotOk (chArg c.packet) (allotOf (chPayload c.packet)) = false → refused (.portAllot id) s id .configInvalid) ∧
   (∀ s id c, s.canRun id 0x020B c → zeros (chPayload c.packet) 0 16 = true → zeros (chPayload c.packet) 52 64 = true →
     s.allotOk (chArg c.packet) (allotOf (chPayload c.packet)) = true →
     (allotFits (allotOf (chPayload c.packet)) ((s.portSeats (chArg c.packet)).map (fun ks => ks.2.record)) = false ∨
       (allotOf (chPayload c.packet)).extents < s.extentsOf (chArg c.packet)) →
     refused (.portAllot id) s id .allotmentInUse))

/-- The record that SEAT_CHANGE may give a seat: any time the fields that R505 defers, in IDLE also those that it keeps for IDLE. -/
def changeAllowed (x : Seat) (r : Bytes) : Bool :=
  r == withDeferred (if x.state = .idle then withIdleOnly x.current r else x.current) r

/-- The seat after a SEAT_CHANGE: an IDLE seat takes new clusters with their Druind share; inside a turn the deferred fields wait for
the boundary, outside one they are in force at once. -/
def changedSeat (s : State) (n : Nat) (x : Seat) (r : Bytes) : Seat :=
  let y : Seat := if x.state = .idle then { x with record := withIdleOnly x.record r } else x
  let y : Seat := if x.state ≠ .idle then y else if recClusters r ≠ recClusters x.record then s.takeClusters n y
    else if recShared r ≠ recShared x.record then s.besideOthers n y else y
  if x.turnBegun then { y with nextRecord := some (withDeferred y.record r) } else { y with record := withDeferred y.record r }

/-- SEAT_CHANGE outside a turn puts the record's changeable fields in force at once and inside a turn keeps them for
the boundary, and the dispatcher looks; a record that its payload names for another seat, or that fails a check of
R502 in their order, is refused with the check's status. SEAT_EXCLUDE adds its record, and the running turn is a
replay where the record names it; a header, a map or a count that R494 does not allow, a range outside the quota, and
poison are refused. SEAT_DESTROY and SEAT_TEARDOWN begin a drain, which stops the seat's kernel and launches and keeps
their command until it is over; with limit 0 it is over at once. A SEAT_TEARDOWN of a seat that is off its clusters
has the dispatcher look, and one of a seat halted for a withdrawn stack is refused (R494, R502, R505, R568, R613).
Where the rules leave a point open here, it is the model's reading (log 42, log 45). -/
def Obligations.SeatsChangeAndDrain : Prop :=
  (∀ (s : State) id c x, s.canRun id 0x0202 c → s.seat? (chSeat c.packet) = some x →
    byteAt (chPayload c.packet) 0 = chSeat c.packet →
    firstFail (s.recordChecks (chSeat c.packet) (chPayload c.packet) (changeAllowed x (chPayload c.packet))) = none →
    exec (.seatChange id) s = .next ((((s.beginCmd id).setSeat (chSeat c.packet)
      (changedSeat (s.beginCmd id) (chSeat c.packet) x (chPayload c.packet))).dispatch).complete id .success [] [])) ∧
  (∀ (s : State) id c x, s.canRun id 0x0202 c → s.seat? (chSeat c.packet) = some x →
    byteAt (chPayload c.packet) 0 ≠ chSeat c.packet → refused (.seatChange id) s id .cmdInvalid) ∧
  (∀ (s : State) id c x st, s.canRun id 0x0202 c → s.seat? (chSeat c.packet) = some x →
    byteAt (chPayload c.packet) 0 = chSeat c.packet →
    firstFail (s.recordChecks (chSeat c.packet) (chPayload c.packet) (changeAllowed x (chPayload c.packet))) = some st →
    refused (.seatChange id) s id st) ∧
  (∀ (s : State) id c x a b m (h map : Bytes), s.canRun id 0x0208 c → s.seat? (chSeat c.packet) = some x →
    s.quotaAddr x (chArg c.packet) 64 = some a → h = s.bytes a 64 → s.groupMembers (chSeat c.packet) (fld h 8 2) = some m →
    exclusionOk h = true → s.quotaAddr x (chArg c.packet + 64) ((m + 7) / 8) = some b → map = s.bytes b ((m + 7) / 8) →
    s.rangePoison a 64 = none → s.rangePoison b ((m + 7) / 8) = none →
    ((bit (byteAt map 0) 0 = false ∧ x.exclusions.length < 64 ∧
        (byteAt h 10 = 1 → ∀ r, r < m → bit (byteAt map (r / 8)) (r % 8) = true → ∀ q ∈ rangeRanks m r, bit (byteAt map (q / 8)) (q % 8) = true)) →
      ∃ u : State, exec (.seatExclude id) s = .next (u.complete id .success [] []) ∧
        aside ((s.beginCmd id).onSeat (chSeat c.packet) (fun y => { y with
          exclusions := y.exclusions ++ [h ++ map]
          facts := if y.turnBegun = true ∧ fld h 0 8 = y.turn.toNat then { y.facts with replay := true } else y.facts })) u) ∧
    ((bit (byteAt map 0) 0 = true ∨ 64 ≤ x.exclusions.length ∨
        (byteAt h 10 = 1 ∧ ∃ r q, r < m ∧ bit (byteAt map (r / 8)) (r % 8) = true ∧ q ∈ rangeRanks m r ∧ bit (byteAt map (q / 8)) (q % 8) = false)) →
      refused (.seatExclude id) s id .configInvalid)) ∧
  (∀ (s : State) id c x, s.canRun id 0x0208 c → s.seat? (chSeat c.packet) = some x → s.quotaAddr x (chArg c.packet) 64 = none →
    refused (.seatExclude id) s id .addrInvalid) ∧
  (∀ (s : State) id c x a, s.canRun id 0x0208 c → s.seat? (chSeat c.packet) = some x → s.quotaAddr x (chArg c.packet) 64 = some a →
    (s.groupMembers (chSeat c.packet) (fld (s.bytes a 64) 8 2) = none ∨ exclusionOk (s.bytes a 64) = false) →
    refused (.seatExclude id) s id .configInvalid) ∧
  (∀ (s : State) id c x a m, s.canRun id 0x0208 c → s.seat? (chSeat c.packet) = some x → s.quotaAddr x (chArg c.packet) 64 = some a →
    s.groupMembers (chSeat c.packet) (fld (s.bytes a 64) 8 2) = some m → exclusionOk (s.bytes a 64) = true →
    (s.quotaAddr x (chArg c.packet + 64) ((m + 7) / 8) = none → refused (.seatExclude id) s id .addrInvalid) ∧
    (∀ b k, s.quotaAddr x (chArg c.packet + 64) ((m + 7) / 8) = some b →
      (s.rangePoison a 64).orElse (fun _ => s.rangePoison b ((m + 7) / 8)) = some k → refused (.seatExclude id) s id (poisonStatus k))) ∧
  (∀ (s : State) id c x, s.canRun id 0x0203 c → s.seat? (chSeat c.packet) = some x → chArg c.packet ≠ 0 →
    ∃ t y, exec (.seatDestroy id) s = .next t ∧ t.seat? (chSeat c.packet) = some y ∧ y.state = .draining ∧
      y.drain = some { kind := .destroy, limit := chArg c.packet, cmd := some id, halted := decide (x.state = .halted) } ∧
      y.launches = [] ∧ y.running = none ∧ y.record = x.record ∧ t.units = s.units) ∧
  (∀ (s : State) id c x, s.canRun id 0x0203 c → s.seat? (chSeat c.packet) = some x → chArg c.packet = 0 →
    ∃ t, exec (.seatDestroy id) s = .next t ∧ t.seat? (chSeat c.packet) = none) ∧
  (∀ (s : State) id c x, s.canRun id 0x0209 c → s.seat? (chSeat c.packet) = some x → chArg c.packet ≠ 0 →
    x.preempt.phase = .none → (x.state ≠ .halted ∨ x.haltCause ≠ 4) →
    ∃ t y, exec (.seatTeardown id) s = .next t ∧ t.seat? (chSeat c.packet) = some y ∧
      y.state = (if x.state = .halted then SeatState.halted else .running) ∧
      y.drain = some { kind := .teardown, limit := chArg c.packet, cmd := some id, halted := decide (x.state = .halted) } ∧
      y.launches = [] ∧ y.running = none ∧ y.record = x.record ∧ t.units = s.units) ∧
  (∀ (s : State) id c x, s.canRun id 0x0209 c → s.seat? (chSeat c.packet) = some x → chArg c.packet = 0 →
    x.preempt.phase = .none → (x.state ≠ .halted ∨ x.haltCause ≠ 4) →
    ∃ t y, exec (.seatTeardown id) s = .next t ∧ t.seat? (chSeat c.packet) = some y ∧ y.drain = none ∧
      y.epoch = (if (x.epoch.toNat + 1) % 2 ^ 32 = 0 then 1 else x.epoch + 1)) ∧
  (∀ (s : State) id c x, s.canRun id 0x0209 c → s.seat? (chSeat c.packet) = some x → x.preempt.phase = .none →
    x.state = .halted → x.haltCause = 4 → refused (.seatTeardown id) s id .seatState) ∧
  (∀ (s : State) id c x, s.cmd? id = some c → c.begun = false → chOpcode c.packet = 0x0209 → s.seat? (chSeat c.packet) = some x →
    x.preempt.phase ≠ .none → x.state ≠ .draining → x.haltCause ≠ 4 → exec (.seatTeardown id) s = .next s.dispatch)

/-! ### Windows, launches and programs by command -/

/-- MEM_WINDOW_SET writes an entry that is the seat's own or closed, within its quota and its count of WINDOWS, what
stood there being kept for the accesses of the same hc; MEM_LAYER_WINDOW sets the seat's layer window over its Druind
share, unless a window is in use; MEM_HBM_MODE sets a stack's mode, by a port only for a region that it holds whole
and while no kernel runs on a seat with quota on the stack, and takes lockstep from the seats with quota on a stack
that leaves scheduled mode. A command whose check fails completes with its status, in the order of the checks here,
and changes nothing (R252, R274, R275, R361, R362, R484, R488). Where the rules leave a point open here, it is the
model's reading (log 45). -/
def Obligations.MemoryCommandsTakeEffect : Prop :=
  (∀ (s : State) id c x w n (q : Window), s.canRun id 0x0301 c → s.seat? n = some x → n = chSeat c.packet → w = chArg c.packet →
    q = windowOf (chPayload c.packet) →
    ((∃ o, FMap.find? s.ni.windows w = some o ∧ o.v = true ∧ o.seat ≠ n) → refused (.memWindowSet id) s id .permissionDenied) ∧
    ((∀ o, FMap.find? s.ni.windows w = some o → o.v = false ∨ o.seat = n) →
      (windowOk (chPayload c.packet) n w = false → refused (.memWindowSet id) s id .windowInvalid) ∧
      (windowOk (chPayload c.packet) n w = true →
        (x.inQuota q.base q.size = false ∨ (q.v = true ∧ recWindows x.record ≤
            (s.ni.windows.filter (fun kw => kw.1 != w && kw.2.v && kw.2.seat == n)).length) →
          refused (.memWindowSet id) s id .quotaExceeded) ∧
        (x.inQuota q.base q.size = true → (q.v = false ∨
            (s.ni.windows.filter (fun kw => kw.1 != w && kw.2.v && kw.2.seat == n)).length < recWindows x.record) →
          exec (.memWindowSet id) s = .next ({ s.beginCmd id with ni := { s.ni with
            windows := FMap.insert s.ni.windows w q
            windowsOld := FMap.insert s.ni.windowsOld w (s.hcNow, s.windowAt w) } }.complete id .success [] []))))) ∧
  (∀ (s : State) id c x n slots part base, s.canRun id 0x0303 c → s.seat? n = some x → n = chSeat c.packet →
    slots = byteAt (chPayload c.packet) 0 → part = fld (chPayload c.packet) 8 8 → base = fld (chPayload c.packet) 16 8 →
    (x.window.isSome = true → (x.running.isSome = true ∨ s.streaming n = true) → refused (.memLayerWindow id) s id .seatState) ∧
    ((x.window = none ∨ (x.running = none ∧ s.streaming n = false)) →
      (layerOk (chPayload c.packet) = false → refused (.memLayerWindow id) s id .windowInvalid) ∧
      (layerOk (chPayload c.packet) = true →
        ((∃ r ∈ s.engines x, x.inQuota (r * regionBytes + base) (slots * part) = false) →
          refused (.memLayerWindow id) s id .quotaExceeded) ∧
        ((∀ r ∈ s.engines x, x.inQuota (r * regionBytes + base) (slots * part) = true) →
          exec (.memLayerWindow id) s = .next (((s.beginCmd id).setSeat n
            { x with window := some { slots := slots, partSize := part, pbase := base, regions := s.engines x }
                     fillCtrs := [] }).complete id .success [] []))))) ∧
  (∀ (s : State) id c st, s.canRun id 0x0304 c → st = chArg c.packet % 32 →
    ((∃ p, c.port? = some p ∧ allotWhole (s.allot p) (st / 2) = false) → refused (.memHbmMode id) s id .permissionDenied) ∧
    ((∀ p, c.port? = some p → allotWhole (s.allot p) (st / 2) = true) →
      ((∃ n x, (n, x) ∈ s.seats ∧ recQsize x.record ≠ 0 ∧ (st / 2) ∈ regionsOf x.record ∧ x.running.isSome = true) →
        refused (.memHbmMode id) s id .hbmModeBusy) ∧
      ((∀ n x, (n, x) ∈ s.seats → recQsize x.record = 0 ∨ (st / 2) ∉ regionsOf x.record ∨ x.running = none) →
        ∃ u : State, exec (.memHbmMode id) s = .next (u.complete id .success [] []) ∧
          aside { s.beginCmd id with units := { s.units with hbmStacks := u.units.hbmStacks }, seats := u.seats } u ∧
          u.stack st = { s.stack st with demand := bit (chArg c.packet) 8, hot := false } ∧
          (∀ q, q ≠ st → u.stack q = s.stack q) ∧
          ∀ n x, s.seat? n = some x → ∃ y : Seat, u.seat? n = some y ∧
            ((bit (chArg c.packet) 8 = true ∧ (s.stack st).demand = false ∧
                ∃ z, (n, z) ∈ s.seats ∧ recQsize z.record ≠ 0 ∧ st / 2 ∈ regionsOf z.record) →
              y.quiet = { x with lossBeat := BitVec.ofNat 64 s.beat, turnLockstep := x.turnLockstep && !x.turnBegun }.quiet) ∧
            ((bit (chArg c.packet) 8 = false ∨ (s.stack st).demand = true ∨
                ∀ z, (n, z) ∈ s.seats → recQsize z.record = 0 ∨ st / 2 ∉ regionsOf z.record) → y.quiet = x.quiet))))

/-- The launch that a KERNEL_LAUNCH names. -/
def launchNamed (id arg : Nat) : Launch :=
  { cmd := id, kernel := arg % 65536, layerEnd := bit arg 16, turnEnd := bit arg 17 }

/-- KERNEL_LAUNCH queues the launch at the end of the seat's queue and its command waits for its kernel, the seat
being RUNNING where it was IDLE, or HALTED where its halt latch is set, and the dispatcher looking; a launch of a turn
that is being discarded completes at once with TURN_ABORTED; without a program it is refused with SEAT_STATE, for a
kernel the program lacks with CONFIG_INVALID, and for a program of another level with LEVEL_MISMATCH. -/
def Obligations.LaunchesQueue : Prop :=
  (∀ (s : State) id c x p, s.canRun id 0x0401 c → s.seat? (chSeat c.packet) = some x → x.program = some p →
    chArg c.packet % 65536 < p.kernels.length → p.level = x.level → (x.turnAborted = false ∨ x.turnEnded = true) →
    (x.state ≠ .idle ∨ x.haltLatch = false) →
    exec (.kernelLaunch id) s = .next ((((s.beginCmd id).setSeat (chSeat c.packet)
      { x with launches := x.launches ++ [launchNamed id (chArg c.packet)] }).seatSettle (chSeat c.packet)).dispatch) ∧
    ((x.state = .idle ∨ x.state = .running) →
      ∃ t y, exec (.kernelLaunch id) s = .next t ∧ t.seat? (chSeat c.packet) = some y ∧
        y = { x with launches := x.launches ++ [launchNamed id (chArg c.packet)], state := .running, preempt := y.preempt } ∧
        t = { s.beginCmd id with seats := t.seats })) ∧
  (∀ (s : State) id c x p, s.canRun id 0x0401 c → s.seat? (chSeat c.packet) = some x → x.program = some p →
    chArg c.packet % 65536 < p.kernels.length → p.level = x.level → (x.turnAborted = false ∨ x.turnEnded = true) →
    x.state = .idle → x.haltLatch = true →
    ∃ t y, exec (.kernelLaunch id) s = .next t ∧ t.seat? (chSeat c.packet) = some y ∧
      y = { x with launches := x.launches ++ [launchNamed id (chArg c.packet)], state := .halted, haltCause := 1
                   haltLatch := !s.pins.haltN, haltHeld := !s.pins.haltN, haltAsked := false, preempt := y.preempt } ∧
      aside { s.beginCmd id with seats := t.seats } t) ∧
  (∀ (s : State) id c x p, s.canRun id 0x0401 c → s.seat? (chSeat c.packet) = some x → x.program = some p →
    chArg c.packet % 65536 < p.kernels.length → p.level = x.level → x.turnAborted = true → x.turnEnded = false →
    exec (.kernelLaunch id) s = .next (((s.beginCmd id).setSeat (chSeat c.packet)
      { x with turnEnded := bit (chArg c.packet) 17 }).complete id .turnAborted (launchResult x.turn.toNat 0 false) [])) ∧
  (∀ (s : State) id c x, s.canRun id 0x0401 c → s.seat? (chSeat c.packet) = some x → x.program = none →
    refused (.kernelLaunch id) s id .seatState) ∧
  (∀ (s : State) id c x p, s.canRun id 0x0401 c → s.seat? (chSeat c.packet) = some x → x.program = some p →
    p.kernels.length ≤ chArg c.packet % 65536 → refused (.kernelLaunch id) s id .configInvalid) ∧
  (∀ (s : State) id c x p, s.canRun id 0x0401 c → s.seat? (chSeat c.packet) = some x → x.program = some p →
    chArg c.packet % 65536 < p.kernels.length → p.level ≠ x.level → refused (.kernelLaunch id) s id .levelMismatch)

/-- Bytes of a program image's header and tables. -/
def tablesSize (h : Bytes) : Nat := 64 + 16 * fld h 8 4 + 8 * fld h 12 4

/-- The entries of a program image's tables of kernels and of bindings. -/
def kernelEntries (s : State) (a : Nat) (h : Bytes) : List Bytes := entries 16 (fld h 8 4) (s.bytes (a + 64) (16 * fld h 8 4))
def bindingEntries (s : State) (a : Nat) (h : Bytes) : List Bytes :=
  entries 8 (fld h 12 4) (s.bytes (a + 64 + 16 * fld h 8 4) (8 * fld h 12 4))

/-- A seat is in a turn that KERNEL_ABORT can end. -/
def inTurn (x : Seat) : Prop := x.running.isSome = true ∨ x.turnBegun = true ∨ (x.turnEnded = false ∧ x.launches ≠ [])

/-- PROGRAM_LOAD reads an image of the seat's quota and keeps its level, its tile count, its kernels, its bindings and
the SHA-256 hash of its bytes; an address outside the quota, poison, a field or table entry that R548 does not allow,
and more tiles than the seat has are refused. KERNEL_ABORT in a turn stops every context of the seat, ends its
kernel's command and those of the queued launches of its turn, fails the turn and ends it; elsewhere it only has the
dispatcher look. TURN_HALT halts a seat outside a turn at once and asks for the halt of one inside; a HALTED seat
stays so. TURN_RESUME lets a halted seat go on, unless HALT_N is asserted, a held tile is unbacked or a stack of its
quota is withdrawn. HALT_N's release lets the seats go on that it halted while it was asserted and that do not drain,
and no other (R509, R512, R548 to R550, R568, R635). Where the rules leave a point open here, it is the model's
reading (log 39, log 46). -/
def Obligations.ProgramsLoadAndTurnsStop : Prop :=
  (∀ (s : State) id c x a (h : Bytes), s.canRun id 0x0402 c → s.seat? (chSeat c.packet) = some x →
    s.quotaAddr x (chArg c.packet) 64 = some a → h = s.bytes a 64 → s.rangePoison a 64 = none →
    ((fld h 0 4 ≠ 1 ∨ zeros h 24 64 = false ∨ fld h 6 2 = 0 ∨ fld h 6 2 % 8 ≠ 0) → refused (.programLoad id) s id .configInvalid) ∧
    (fld h 0 4 = 1 → zeros h 24 64 = true → fld h 6 2 ≠ 0 → fld h 6 2 % 8 = 0 →
      (x.ltiles < fld h 6 2 → refused (.programLoad id) s id .tilesUnavailable) ∧
      (fld h 6 2 ≤ x.ltiles →
        ((fld h 8 4 = 0 ∨ 65536 < fld h 8 4 ∨ 2 ^ 30 < fld h 16 8 ∨ fld h 16 8 < tablesSize h) →
          refused (.programLoad id) s id .configInvalid) ∧
        (fld h 8 4 ≠ 0 → fld h 8 4 ≤ 65536 → fld h 16 8 ≤ 2 ^ 30 → tablesSize h ≤ fld h 16 8 →
          (s.quotaAddr x (chArg c.packet) (fld h 16 8) = none → refused (.programLoad id) s id .addrInvalid) ∧
          (∀ b, s.quotaAddr x (chArg c.packet) (fld h 16 8) = some b →
            (∀ k, s.rangePoison a (tablesSize h) = some k → refused (.programLoad id) s id (poisonStatus k)) ∧
            (s.rangePoison a (tablesSize h) = none →
              (tablesOk (fld h 6 2) (fld h 12 4) (kernelEntries s a h) (bindingEntries s a h) = false →
                refused (.programLoad id) s id .configInvalid) ∧
              (tablesOk (fld h 6 2) (fld h 12 4) (kernelEntries s a h) (bindingEntries s a h) = true →
                ∃ u : State, exec (.programLoad id) s = .next (u.complete id .success [] []) ∧
                  aside ((s.beginCmd id).setSeat (chSeat c.packet) { x with program := some {
                    level := fld h 4 2, ltiles := fld h 6 2
                    kernels := (kernelEntries s a h).map (fun k => (fld k 0 4, fld k 4 4))
                    bindings := (bindingEntries s a h).map bindingOf, hash := Sha.sha256 (s.bytes a (fld h 16 8)) } }) u))))))) ∧
  (∀ (s : State) id c x, s.canRun id 0x0402 c → s.seat? (chSeat c.packet) = some x →
    (s.quotaAddr x (chArg c.packet) 64 = none → refused (.programLoad id) s id .addrInvalid) ∧
    (∀ a k, s.quotaAddr x (chArg c.packet) 64 = some a → s.rangePoison a 64 = some k → refused (.programLoad id) s id (poisonStatus k))) ∧
  (∀ (s : State) id c x, s.canRun id 0x0403 c → s.seat? (chSeat c.packet) = some x → inTurn x →
    ∃ (u : State) (y : Seat), exec (.kernelAbort id) s = .next (u.complete id .success [] []) ∧
      u.seat? (chSeat c.packet) = some y ∧ y.running = none ∧ y.turnEnded = true ∧ y.facts.failed = true ∧ y.turn = x.turn ∧
      y.record = x.record ∧ y.program = x.program ∧
      (∀ t ∈ x.tiles, ∀ k, k < 8 → (s.ctx t k).seat = chSeat c.packet → (u.ctx t k).state = .free) ∧
      (∀ r, x.running = some r → u.cmd? r.launch.cmd = none) ∧
      (x.turnEnded = false → (∀ r, x.running = some r → r.launch.turnEnd = false) → ∀ l ∈ openLaunches x.launches,
        l ∉ y.launches ∧ u.cmd? l.cmd = none) ∧
      u.mem = s.mem ∧ u.poison = s.poison ∧ u.units = s.units) ∧
  (∀ (s : State) id c x, s.canRun id 0x0403 c → s.seat? (chSeat c.packet) = some x → ¬ inTurn x →
    exec (.kernelAbort id) s = .next ((s.beginCmd id).dispatch.complete id .success [] [])) ∧
  (∀ (s : State) id c x, s.canRun id 0x0404 c → s.seat? (chSeat c.packet) = some x → x.state = .halted →
    refused (.turnHalt id) s id .success) ∧
  (∀ (s : State) id c x, s.canRun id 0x0404 c → s.seat? (chSeat c.packet) = some x → x.state ≠ .halted → x.turnBegun = true →
    exec (.turnHalt id) s = .next (((s.beginCmd id).setSeat (chSeat c.packet) { x with haltAsked := true }).complete id .success [] [])) ∧
  (∀ (s : State) id c x, s.canRun id 0x0404 c → s.seat? (chSeat c.packet) = some x → x.state ≠ .halted → x.turnBegun = false →
    ∃ (u : State) (y : Seat), exec (.turnHalt id) s = .next (u.complete id .success [] []) ∧
      u = { s.beginCmd id with seats := u.seats } ∧ u.seat? (chSeat c.packet) = some y ∧
      y = { x with state := .halted, haltCause := 2, haltHeld := false, haltAsked := false } ∧
      ∀ m, m ≠ chSeat c.packet → u.seat? m = s.seat? m) ∧
  (∀ (s : State) id c x, s.canRun id 0x0405 c → s.seat? (chSeat c.packet) = some x → s.pins.haltN = true → x.haltCause ≠ 4 →
    s.onWithdrawn x = false → s.holdsUnbacked x = false →
    ∃ (u : State) (y : Seat), exec (.turnResume id) s = .next (u.complete id .success [] []) ∧
      u = { s.beginCmd id with seats := u.seats } ∧ u.seat? (chSeat c.packet) = some y ∧
      y = { x with state := if x.launches = [] ∧ x.running = none then .idle else .running, haltCause := 0
                   preempt := y.preempt } ∧
      ∀ m z, m ≠ chSeat c.packet → s.seat? m = some z → ∃ w, u.seat? m = some w ∧ w = { z with preempt := w.preempt }) ∧
  (∀ (s : State) id c x, s.canRun id 0x0405 c → s.seat? (chSeat c.packet) = some x →
    (s.pins.haltN = false ∨ x.haltCause = 4 ∨ s.onWithdrawn x = true ∨ s.holdsUnbacked x = true) →
    refused (.turnResume id) s id .seatState) ∧
  (∀ s : State, s.pins.haltN = false →
    ∃ t, exec .haltNDeassert s = .next t ∧ aside { s with pins := { s.pins with haltN := true }, seats := t.seats } t ∧
      ∀ n x, s.seat? n = some x → ∃ y, t.seat? n = some y ∧
        ((∃ z, (n, z) ∈ s.seats ∧ z.state = .halted ∧ z.haltCause = 1 ∧ z.haltHeld = true ∧ z.drain = none) →
          y = { x with state := if x.launches = [] ∧ x.running = none then .idle else .running, haltCause := 0, haltLatch := false
                       preempt := y.preempt }) ∧
        ((∀ z, (n, z) ∈ s.seats → z.state ≠ .halted ∨ z.haltCause ≠ 1 ∨ z.haltHeld = false ∨ z.drain.isSome = true) →
          y = { x with preempt := y.preempt })) ∧
  (∀ s : State, s.pins.haltN = true → exec .haltNDeassert s = .next s)

/-- The swap that a PLACEMENT_SWAP payload names. -/
def swapNamed (id : Nat) (p : Bytes) : Swap :=
  { cmd := id, turn := fld p 0 8, spaces := (entries 8 (byteAt p 8) (p.drop 16)).map (fun e => (fld e 0 2, fld e 4 4)) }

/-- Its fields are as R211 gives them. -/
def swapFieldsOk (p : Bytes) : Prop :=
  byteAt p 8 ≠ 0 ∧ byteAt p 8 ≤ 8 ∧ p.length = 16 + 8 * byteAt p 8 ∧ zeros p 9 16 = true ∧
    ∀ e ∈ entries 8 (byteAt p 8) (p.drop 16), zeros e 2 4 = true

/-- A swap names a turn that has begun or is past. -/
def swapLate (x : Seat) (w : Swap) : Prop := w.turn < x.turn.toNat ∨ (w.turn = x.turn.toNat ∧ x.turnBegun = true)

/-- SPACE_SET keeps the record of a space that no ROUTE uses, with bank A in force; one of another length, one that
fails a check of R206 and one of a space in use are refused. PLACEMENT_SWAP for a later turn waits for it, and its
command with it; for the turn that comes next it exchanges the banks of its spaces at once where every pending bank is
valid and has the digest named, and is SWAP_REJECTED where not; one for a turn that has begun or is past is
SWAP_REJECTED, and one of fields that R211 does not allow or of an unknown space is refused (R204 to R206, R211).
Where the rules leave a point open here, it is the model's reading (log 28, log 46). -/
def Obligations.SpacesAndSwapsAreKept : Prop :=
  (∀ (s : State) id c x n p, s.canRun id 0x0406 c → s.seat? n = some x → n = chSeat c.packet → p = chPayload c.packet →
    (p.length ≠ 64 + 32 * spStages p → refused (.spaceSet id) s id .cmdInvalid) ∧
    (p.length = 64 + 32 * spStages p →
      (s.spaceOk x p = false → refused (.spaceSet id) s id .configInvalid) ∧
      (s.spaceOk x p = true →
        (s.spaceRouting n (fld p 0 2) = true → refused (.spaceSet id) s id .spaceBusy) ∧
        (s.spaceRouting n (fld p 0 2) = false → exec (.spaceSet id) s = .next (((s.beginCmd id).setSeat n
          { x with spaces := FMap.insert x.spaces (fld p 0 2) { record := p, bankB := false } }).complete id .success [] []))))) ∧
  (∀ (s : State) id c x n p, s.canRun id 0x0407 c → s.seat? n = some x → n = chSeat c.packet → p = chPayload c.packet →
    (¬ swapFieldsOk p → refused (.placementSwap id) s id .cmdInvalid) ∧
    (swapFieldsOk p →
      (swapLate x (swapNamed id p) → refused (.placementSwap id) s id .swapRejected) ∧
      (¬ swapLate x (swapNamed id p) →
        ((∃ sd ∈ (swapNamed id p).spaces, FMap.find? x.spaces sd.1 = none) → refused (.placementSwap id) s id .spaceUnknown) ∧
        ((∀ sd ∈ (swapNamed id p).spaces, (FMap.find? x.spaces sd.1).isSome = true) →
          (x.turn.toNat < (swapNamed id p).turn → exec (.placementSwap id) s =
            .next ((s.beginCmd id).setSeat n { x with swaps := x.swaps ++ [swapNamed id p] })) ∧
          ((swapNamed id p).turn = x.turn.toNat → s.swapValid x (swapNamed id p) = true → exec (.placementSwap id) s =
            .next (((s.beginCmd id).setSeat n { x with spaces := (swapNamed id p).spaces.foldl (fun m sd =>
              FMap.upd m sd.1 (fun (r : SpaceRec) => { r with bankB := !r.bankB })) x.spaces }).complete id .success [] [])) ∧
          ((swapNamed id p).turn = x.turn.toNat → s.swapValid x (swapNamed id p) = false →
            refused (.placementSwap id) s id .swapRejected)))))

/-! ### Fabric and group commands -/

/-- The nodes of a group's list in memory. -/
def listedNodes (s : State) (a m : Nat) : List Nat := (List.range m).map (fun i => fld (s.bytes a (2 * m)) (2 * i) 2)

/-- The groups of a seat apart from one. -/
def otherGroups (s : State) (n k : Nat) : Nat := (s.ni.groups.filter (fun kg => kg.1 != k && kg.2.seat == n)).length

/-- FAB_NODE sets the node number while every port is DISABLED (MODULE_STATE else; 0xFFFF is no node number:
CONFIG_INVALID). FAB_ROUTES writes the entries that its payload holds into the group or member table of a port or an
NI, and no other entry, lookups of the same hc still seeing what stood before; a port or NI or a range of entries that
is not there, a reserved bit or an egress port beyond 23 are refused. FAB_PORT disables a port, enables a DISABLED one
once the package holds a node number and route tables, releases one from quarantine, and sets a polarity. FAB_PARAMS
sets a hub's parameters within their ranges (R330, R331, R341, R342, R345, R349). GROUP_SET makes a group of the seat,
or sets an idle one again, from a record and a node list of its quota, with the node of its own rank this package and
no node twice, and answers the CRC-32C of the list; a field, an address or a list that R407 does not allow, and a
group of another seat, are CONFIG_INVALID, poison its status, more groups than the seat's GROUPS QUOTA_EXCEEDED, and a
group with a call SEAT_STATE. GROUP_SEQ sets the last SEQ of an idle group of the seat and GROUP_DELETE removes one; a
busy group is SEAT_STATE, and one that is not the seat's CONFIG_INVALID (R406 to R408, R493). Where the rules leave a
point open here, it is the model's reading (log 47). -/
def Obligations.FabricAndGroupCommandsTakeEffect : Prop :=
  ((∀ (s : State) id c, s.canRun id 0x0501 c →
     ((∀ p, p < 24 → (s.port p).state = .disabled) → chArg c.packet ≠ 0xFFFF →
       exec (.fabNode id) s = .next ({ s.beginCmd id with fab := { s.fab with node := chArg c.packet } }.complete id .success [] [])) ∧
     ((∀ p, p < 24 → (s.port p).state = .disabled) → chArg c.packet = 0xFFFF → refused (.fabNode id) s id .configInvalid) ∧
     (∀ p, p < 24 → (s.port p).state ≠ .disabled → refused (.fabNode id) s id .moduleState)) ∧
   (∀ (s : State) id c h first n member (p : Bytes), s.canRun id 0x0502 c → h = chArg c.packet % 32 →
     first = chArg c.packet / 2 ^ 16 % 256 → member = bit (chArg c.packet) 8 → p = chPayload c.packet → n = p.length / 8 →
     ((25 < h ∨ 256 < first + n) → refused (.fabRoutes id) s id .configInvalid) ∧
     (h ≤ 25 → first + n ≤ 256 →
       (∀ i, i < 4 * n → 128 ≤ fld p (2 * i) 2 → refused (.fabRoutes id) s id .cmdInvalid) ∧
       ((∀ i, i < 4 * n → fld p (2 * i) 2 < 128) →
         (∀ i, i < 4 * n → routeOk (fld p (2 * i) 2) = false → refused (.fabRoutes id) s id .configInvalid) ∧
         ((∀ i, i < 4 * n → routeOk (fld p (2 * i) 2) = true) →
           ∃ u : State, exec (.fabRoutes id) s = .next (u.complete id .success [] []) ∧
             u = { s.beginCmd id with fab := { s.fab with ports := u.fab.ports, niMember := u.fab.niMember, niGroup := u.fab.niGroup
                                                          routesOld := u.fab.routesOld, routesWritten := u.fab.routesWritten } } ∧
             (∀ e, e < 256 → u.tableEntry h member e =
               if first ≤ e ∧ e < first + n then BitVec.ofNat 64 (fld p (8 * (e - first)) 8) else s.tableEntry h member e) ∧
             (∀ g m e, g < 26 → e < 256 → (g ≠ h ∨ m ≠ member) → u.tableEntry g m e = s.tableEntry g m e) ∧
             (∀ g m e, g < 26 → e < 256 → u.lookup g m e = s.lookup g m e) ∧
             (∀ k, k ∈ u.fab.routesWritten ↔ k = h ∨ k ∈ s.fab.routesWritten) ∧
             ∀ q, u.port q = { s.port q with memberTable := (u.port q).memberTable, groupTable := (u.port q).groupTable })))) ∧
   (∀ (s : State) id c p, s.canRun id 0x0503 c → p = chArg c.packet % 32 → p < 24 →
     (chArg c.packet / 2 ^ 8 % 8 = 0 →
       ((s.port p).state = .disabled → exec (.fabPort id) s = .next ((s.beginCmd id).complete id .success [] [])) ∧
       ((s.port p).state ≠ .disabled →
         exec (.fabPort id) s = .next (((s.beginCmd id).linkDown p .disabled).complete id .success [] []))) ∧
     (chArg c.packet / 2 ^ 8 % 8 = 1 →
       ((s.port p).state = .disabled →
         (s.mod.failedPackage = false → s.fab.node ≠ 0xFFFF → s.fab.routesWritten ≠ [] →
           exec (.fabPort id) s = .next (((s.beginCmd id).setPort p { (s.port p).fresh with
             state := .training, soaking := false, trainingSince := s.time }).complete id .success [] [])) ∧
         ((s.mod.failedPackage = true ∨ s.fab.node = 0xFFFF ∨ s.fab.routesWritten = []) →
           refused (.fabPort id) s id .moduleState)) ∧
       ((s.port p).state ≠ .disabled → (s.port p).state ≠ .quarantined →
         exec (.fabPort id) s = .next ((s.beginCmd id).complete id .success [] []))) ∧
     ((chArg c.packet / 2 ^ 8 % 8 = 1 ∨ chArg c.packet / 2 ^ 8 % 8 = 2) → (s.port p).state = .quarantined →
       exec (.fabPort id) s = .next (((s.beginCmd id).setPort p { (s.port p).fresh with
         state := .training, soaking := true, trainingSince := s.time }).complete id .success [] [])) ∧
     (chArg c.packet / 2 ^ 8 % 8 = 2 → (s.port p).state ≠ .quarantined →
       exec (.fabPort id) s = .next ((s.beginCmd id).complete id .success [] [])) ∧
     (chArg c.packet / 2 ^ 8 % 8 = 3 → exec (.fabPort id) s = .next (((s.beginCmd id).setPort p
       { s.port p with polarity := chArg c.packet / 2 ^ 12 % 16 }).complete id .success [] [])) ∧
     (4 ≤ chArg c.packet / 2 ^ 8 % 8 → refused (.fabPort id) s id .configInvalid)) ∧
   (∀ (s : State) id c, s.canRun id 0x0503 c → 24 ≤ chArg c.packet % 32 → refused (.fabPort id) s id .configInvalid) ∧
   (∀ (s : State) id c (p : Bytes) (h : HubParams), s.canRun id 0x0504 c → chPayload c.packet = p →
     h = { w1 := byteAt p 1, w2 := byteAt p 2, w3 := byteAt p 3, divert := fld p 4 2, gap := fld p 8 4, tc2Limit := fld p 12 4
           resend := fld p 16 4 } →
     ((zeros p 6 8 = false ∨ zeros p 20 24 = false) → refused (.fabParams id) s id .cmdInvalid) ∧
     (zeros p 6 8 = true → zeros p 20 24 = true →
       ((byteAt p 0 < 2 ∧ 1 ≤ h.w1 ∧ h.w1 ≤ 15 ∧ 1 ≤ h.w2 ∧ h.w2 ≤ 15 ∧ 1 ≤ h.w3 ∧ h.w3 ≤ 15 ∧ 8 ≤ h.divert ∧ h.divert ≤ 1024 ∧
           10 ≤ h.gap ∧ h.gap ≤ 50000 ∧ 100 ≤ h.tc2Limit ∧ h.tc2Limit ≤ 100000 ∧ 20 ≤ h.resend ∧ h.resend ≤ 20000) →
         ∃ u : State, exec (.fabParams id) s = .next (u.complete id .success [] []) ∧
           u = { s.beginCmd id with fab := { s.fab with params := u.fab.params } } ∧ u.params (byteAt p 0) = h ∧
           ∀ k, k ≠ byteAt p 0 → u.params k = s.params k) ∧
       ((2 ≤ byteAt p 0 ∨ h.w1 = 0 ∨ 15 < h.w1 ∨ h.w2 = 0 ∨ 15 < h.w2 ∨ h.w3 = 0 ∨ 15 < h.w3 ∨ h.divert < 8 ∨ 1024 < h.divert ∨
           h.gap < 10 ∨ 50000 < h.gap ∨ h.tc2Limit < 100 ∨ 100000 < h.tc2Limit ∨ h.resend < 20 ∨ 20000 < h.resend) →
         refused (.fabParams id) s id .configInvalid)))) ∧
  ((∀ (s : State) id c x n (r : Bytes) k m, s.canRun id 0x0506 c → n = chSeat c.packet → s.seat? n = some x → chPayload c.packet = r →
     k = fld r 0 2 → m = grMembers r →
     ((groupFieldsOk r = false ∨ ∃ g, FMap.find? s.ni.groups k = some g ∧ g.seat ≠ n) → refused (.groupSet id) s id .configInvalid) ∧
     (groupFieldsOk r = true → (∀ g, FMap.find? s.ni.groups k = some g → g.seat = n) →
       ((s.quotaAddr x (grNodes r) (2 * m) = none ∨ s.quotaAddr x (grRxBase r) (grRxLen r) = none ∨
           s.descAddr x (grRecords r) (64 * recordSize m) = none) → refused (.groupSet id) s id .configInvalid) ∧
       (∀ a b e, s.quotaAddr x (grNodes r) (2 * m) = some a → s.quotaAddr x (grRxBase r) (grRxLen r) = some b →
         s.descAddr x (grRecords r) (64 * recordSize m) = some e →
         (∀ q, s.rangePoison a (2 * m) = some q → refused (.groupSet id) s id (poisonStatus q)) ∧
         (s.rangePoison a (2 * m) = none →
           (((listedNodes s a m)[grRank r]? ≠ some s.fab.node ∨ 0xFFFF ∈ listedNodes s a m ∨ ¬ (listedNodes s a m).Nodup) →
             refused (.groupSet id) s id .configInvalid) ∧
           ((listedNodes s a m)[grRank r]? = some s.fab.node → 0xFFFF ∉ listedNodes s a m → (listedNodes s a m).Nodup →
             (recGroups x.record ≤ otherGroups s n k → refused (.groupSet id) s id .quotaExceeded) ∧
             (otherGroups s n k < recGroups x.record →
               (∀ g, FMap.find? s.ni.groups k = some g → (g.call ≠ none ∨ g.waiting ≠ []) → refused (.groupSet id) s id .seatState) ∧
               ((∀ g, FMap.find? s.ni.groups k = some g → g.call = none ∧ g.waiting = []) →
                 ∃ (u : State), exec (.groupSet id) s =
                     .next (u.complete id .success (natLe 4 (crc32c (s.bytes a (2 * m)))) []) ∧
                   aside { s.beginCmd id with ni := { s.ni with groups := u.ni.groups } } u ∧
                   FMap.find? u.ni.groups k = some { seat := n, record := r, nodes := listedNodes s a m, lastSeq := 0xFFFFFFFF
                                                     call := none, waiting := [], gather := [] } ∧
                   ∀ q, q ≠ k → FMap.find? u.ni.groups q = FMap.find? s.ni.groups q)))))) ) ∧
   (∀ (s : State) id c x k, s.canRun id 0x0507 c → s.seat? (chSeat c.packet) = some x → k = chArg c.packet % 1024 →
     ((∀ g, FMap.find? s.ni.groups k = some g → g.seat ≠ chSeat c.packet) → refused (.groupSeq id) s id .configInvalid) ∧
     (∀ g, FMap.find? s.ni.groups k = some g → g.seat = chSeat c.packet →
       ((g.call ≠ none ∨ g.waiting ≠ []) → refused (.groupSeq id) s id .seatState) ∧
       (g.call = none → g.waiting = [] →
         ∃ u : State, exec (.groupSeq id) s = .next (u.complete id .success [] []) ∧
           u = { s.beginCmd id with ni := { s.ni with groups := u.ni.groups } } ∧
           FMap.find? u.ni.groups k = some { g with lastSeq := chArg c.packet / 2 ^ 32 } ∧
           ∀ q, q ≠ k → FMap.find? u.ni.groups q = FMap.find? s.ni.groups q))) ∧
   (∀ (s : State) id c x k, s.canRun id 0x0508 c → s.seat? (chSeat c.packet) = some x → k = chArg c.packet % 1024 →
     ((∀ g, FMap.find? s.ni.groups k = some g → g.seat ≠ chSeat c.packet) → refused (.groupDelete id) s id .configInvalid) ∧
     (∀ g, FMap.find? s.ni.groups k = some g → g.seat = chSeat c.packet →
       ((g.call ≠ none ∨ g.waiting ≠ []) → refused (.groupDelete id) s id .seatState) ∧
       (g.call = none → g.waiting = [] →
         ∃ u : State, exec (.groupDelete id) s = .next (u.complete id .success [] []) ∧
           u = { s.beginCmd id with ni := { s.ni with groups := u.ni.groups } } ∧ FMap.find? u.ni.groups k = none ∧
           ∀ q, q ≠ k → FMap.find? u.ni.groups q = FMap.find? s.ni.groups q))))

/-! ### The model store by command -/

/-- Namespaces: NS_CREATE journals a new namespace at the lowest free number where the tier, the free extents and the
port's allotment allow it, and answers the number; NS_DELETE unmaps the logical stripes of one that no seat is
attached to and removes it, the stripes of the others and the pages staying; NS_ATTACH and NS_DETACH join a seat to a
namespace of its port, one writer or any number of readers; NS_LIST answers the port's own, or all by a management
transport. A command whose check fails completes with its status, in the order of the checks here, and changes
nothing; without a map every one of them and NS_WRITE and NS_TRIM is FLASH_UNAVAILABLE (R289 to R292, R318). Where the
rules leave a point open here, it is the model's reading (log 48). -/
def Obligations.NamespaceCommandsTakeEffect : Prop :=
  (∀ (s : State) id c k p, s.canRun id 0x0601 c → s.flash.available = true → k = chArg c.packet → p = c.port?.getD 0 →
    (k = 0 → refused (.nsCreate id) s id .configInvalid) ∧
    (0 < k → s.extentsFree < k → refused (.nsCreate id) s id .flashFull) ∧
    (0 < k → k ≤ s.extentsFree → (s.allot p).extents < s.extentsOf p + k → refused (.nsCreate id) s id .quotaExceeded) ∧
    (0 < k → k ≤ s.extentsFree → s.extentsOf p + k ≤ (s.allot p).extents →
      ((∀ m, m < 65536 → (FMap.find? s.flash.live.nss m).isSome = true) → refused (.nsCreate id) s id .flashFull) ∧
      (∀ n, n < 65536 → FMap.find? s.flash.live.nss n = none → (∀ m, m < n → (FMap.find? s.flash.live.nss m).isSome = true) →
        ∃ u : State, u = (s.beginCmd id).journal (.ns n (some { port := p, extents := k })) ∧
          exec (.nsCreate id) s = .next (u.complete id .success (natLe 2 n) []) ∧
          u = { s.beginCmd id with flash := u.flash } ∧ u.flash.nand = s.flash.nand ∧ u.flash.live.map = s.flash.live.map ∧
          FMap.find? u.flash.live.nss n = some { port := p, extents := k } ∧
          ∀ m, m ≠ n → FMap.find? u.flash.live.nss m = FMap.find? s.flash.live.nss m))) ∧
  (∀ (s : State) id c n, s.canRun id 0x0602 c → s.flash.available = true → n = chArg c.packet →
    (FMap.find? s.flash.live.nss n = none → refused (.nsDelete id) s id .namespaceAbsent) ∧
    (∀ v, FMap.find? s.flash.live.nss n = some v →
      (v.port ≠ c.port?.getD 0 → refused (.nsDelete id) s id .permissionDenied) ∧
      (v.port = c.port?.getD 0 → s.nsSeats n ≠ [] → refused (.nsDelete id) s id .namespaceBusy) ∧
      (v.port = c.port?.getD 0 → s.nsSeats n = [] →
        ∃ u : State, exec (.nsDelete id) s = .next (u.complete id .success [] []) ∧
          aside { s.beginCmd id with flash := u.flash } u ∧ u.flash.nand = s.flash.nand ∧
          FMap.find? u.flash.live.nss n = none ∧
          (∀ m, m ≠ n → FMap.find? u.flash.live.nss m = FMap.find? s.flash.live.nss m) ∧
          (∀ ls, ls < 2 ^ 32 → u.stripe? (lsKey n ls) = none) ∧
          (∀ m ls, m ≠ n → ls < 2 ^ 32 → u.stripe? (lsKey m ls) = s.stripe? (lsKey m ls))))) ∧
  (∀ (s : State) id c x n, s.canRun id 0x0603 c → s.seat? (chSeat c.packet) = some x → s.flash.available = true →
    n = chArg c.packet % 65536 →
    (FMap.find? s.flash.live.nss n = none → refused (.nsAttach id) s id .namespaceAbsent) ∧
    (∀ v, FMap.find? s.flash.live.nss n = some v →
      (v.port ≠ chSeat c.packet / 16 → refused (.nsAttach id) s id .permissionDenied) ∧
      (v.port = chSeat c.packet / 16 →
        ((x.ns.isSome = true ∨ (bit (chArg c.packet) 16 = true ∧ s.nsSeats n ≠ []) ∨ (∃ ks ∈ s.nsSeats n, ks.2 = true)) →
          refused (.nsAttach id) s id .namespaceBusy) ∧
        (x.ns = none → (bit (chArg c.packet) 16 = false ∨ s.nsSeats n = []) → (∀ ks ∈ s.nsSeats n, ks.2 = false) →
          exec (.nsAttach id) s = .next (((s.beginCmd id).setSeat (chSeat c.packet)
            { x with ns := some (n, bit (chArg c.packet) 16) }).complete id .success [] []))))) ∧
  (∀ (s : State) id c x, s.canRun id 0x0604 c → s.seat? (chSeat c.packet) = some x → s.flash.available = true →
    (x.ns = none → refused (.nsDetach id) s id .namespaceAbsent) ∧
    (x.ns.isSome = true → s.fillsOpen (chSeat c.packet) = true → refused (.nsDetach id) s id .namespaceBusy) ∧
    (x.ns.isSome = true → s.fillsOpen (chSeat c.packet) = false →
      exec (.nsDetach id) s = .next (((s.beginCmd id).setSeat (chSeat c.packet) { x with ns := none }).complete id .success [] []))) ∧
  (∀ (s : State) id c, s.canRun id 0x0607 c → s.flash.available = true →
    exec (.nsList id) s = .next ((s.beginCmd id).complete id .success []
      ((s.flash.live.nss.filter (fun kn => c.port?.all (fun p => kn.2.port == p))).flatMap (fun kn =>
        natLe 2 kn.1 ++ natLe 1 kn.2.port ++ [0] ++ natLe 4 kn.2.extents ++
          natLe 8 ((s.nsSeats kn.1).foldl (fun a ks => a + 2 ^ ks.1) 0))))) ∧
  (∀ (s : State) id c, s.flash.available = false →
    (s.canRun id 0x0601 c → refused (.nsCreate id) s id .flashUnavailable) ∧
    (s.canRun id 0x0602 c → refused (.nsDelete id) s id .flashUnavailable) ∧
    (s.canRun id 0x0603 c → refused (.nsAttach id) s id .flashUnavailable) ∧
    (s.canRun id 0x0604 c → refused (.nsDetach id) s id .flashUnavailable) ∧
    (s.canRun id 0x0605 c → refused (.nsWrite id) s id .flashUnavailable) ∧
    (s.canRun id 0x0606 c → refused (.nsTrim id) s id .flashUnavailable) ∧
    (s.canRun id 0x0607 c → refused (.nsList id) s id .flashUnavailable))

/-- A unit of a namespace as its stripe holds it; none where it reads as zeros. -/
def unitOf (s : State) (ns i : Nat) : Option Bytes := (s.stripe? (unitKey ns i)).bind (fun z => FMap.find? z.units (i % 56))

/-- A write or a trim of a range of the namespace that the seat has attached is turned away, by the checks in their order. -/
def rangeRefused (i : Instr) (s : State) (id : Nat) (x : Seat) (off len : Nat) : Prop :=
  (x.ns = none → refused i s id .namespaceAbsent) ∧
  (∀ ns, x.ns = some (ns, false) → refused i s id .permissionDenied) ∧
  (∀ ns, x.ns = some (ns, true) → s.flashReadOnly = true → refused i s id .flashReadOnly) ∧
  (∀ ns, x.ns = some (ns, true) → s.flashReadOnly = false →
    ((off % 4096 ≠ 0 ∨ len % 4096 ≠ 0) → refused i s id .configInvalid) ∧
    (off % 4096 = 0 → len % 4096 = 0 → s.nsBytes ns < off + len → refused i s id .addrInvalid))

/-- A stripe is being filled and no logical stripe is mapped to its next place. -/
def placeOpen (s : State) : Prop := ∃ p, s.flash.openWrite = some p ∧ ∀ key, FMap.find? s.flash.live.map key ≠ some p

/-- NS_WRITE writes the units of its range from the seat's HBM: of one unit, the namespace holds the 4,096 bytes, the
other units of its stripe stay, memory does not change, the bytes count toward the rated life, and where a stripe is
open no other stripe changes. NS_TRIM is a write of units that read as zeros. An unattached or read-only namespace, a
tier that is read-only, a range or address that is not aligned or not inside, and poison turn a write away, with no
effect; a range of no bytes completes. FLASH_REBUILD makes the tier available with a new bank of what the stripes
tell: each logical stripe of a known namespace, or of any where there was no map, maps to a stripe of the highest
write sequence number, and its namespace has room for it (R291, R292, R304, R313, R316, R318). Where the rules leave a
point open here, it is the model's reading (log 20, log 48). -/
def Obligations.StoreCommandsWriteUnits : Prop :=
  (∀ (s : State) id c x (p : Bytes) off src len, s.canRun id 0x0605 c → s.seat? (chSeat c.packet) = some x → s.flash.available = true →
    p = chPayload c.packet → off = fld p 0 8 → src = fld p 8 8 → len = fld p 16 8 →
    rangeRefused (.nsWrite id) s id x off len ∧
    (∀ ns, x.ns = some (ns, true) → s.flashReadOnly = false → off % 4096 = 0 → len % 4096 = 0 → off + len ≤ s.nsBytes ns →
      (src % 4096 ≠ 0 → refused (.nsWrite id) s id .configInvalid) ∧
      (src % 4096 = 0 → s.quotaAddr x src len = none → refused (.nsWrite id) s id .addrInvalid) ∧
      (∀ a, src % 4096 = 0 → s.quotaAddr x src len = some a →
        (∀ k, s.rangePoison a len = some k → refused (.nsWrite id) s id (poisonStatus k)) ∧
        (s.rangePoison a len = none →
          (len = 0 → exec (.nsWrite id) s = .next ((s.beginCmd id).complete id .success [] [])) ∧
          (0 < len → exec (.nsWrite id) s = .next ((((((s.beginCmd id).hbmMoved (chSeat c.packet) a len false).writeUnits ns (off / 4096)
              ((List.range (len / 4096)).map (fun i => some (s.bytes (a + 4096 * i) 4096)))).nsWritten len).charge (chSeat c.packet)
              acctFlashWr len).complete id .success [] [])) ∧
          (len = 4096 → ∃ u : State, exec (.nsWrite id) s = .next (u.complete id .success [] []) ∧
            unitOf u ns (off / 4096) = some (s.bytes a 4096) ∧
            (∀ j, j / 56 = off / 4096 / 56 → j ≠ off / 4096 → unitOf u ns j = unitOf s ns j) ∧
            (placeOpen s → ∀ key, key ≠ unitKey ns (off / 4096) → u.stripe? key = s.stripe? key) ∧
            bit (FMap.get 0 u.flash.live.lost (unitKey ns (off / 4096))) (off / 4096 % 56) = false ∧
            u.flash.live.nss = s.flash.live.nss ∧ u.flash.written = s.flash.written + 4096 ∧
            aside { s.beginCmd id with flash := u.flash } u))))) ∧
  (∀ (s : State) id c x (p : Bytes) off len, s.canRun id 0x0606 c → s.seat? (chSeat c.packet) = some x → s.flash.available = true →
    p = chPayload c.packet → off = fld p 0 8 → len = fld p 8 8 →
    rangeRefused (.nsTrim id) s id x off len ∧
    (∀ ns, x.ns = some (ns, true) → s.flashReadOnly = false → off % 4096 = 0 → len % 4096 = 0 → off + len ≤ s.nsBytes ns →
      (len = 0 → exec (.nsTrim id) s = .next ((s.beginCmd id).complete id .success [] [])) ∧
      (0 < len → exec (.nsTrim id) s = .next (((s.beginCmd id).writeUnits ns (off / 4096)
        (List.replicate (len / 4096) none)).complete id .success [] [])) ∧
      (len = 4096 → ∃ u : State, exec (.nsTrim id) s = .next (u.complete id .success [] []) ∧
        unitOf u ns (off / 4096) = none ∧
        (∀ j, j / 56 = off / 4096 / 56 → j ≠ off / 4096 → unitOf u ns j = unitOf s ns j) ∧
        (placeOpen s → ∀ key, key ≠ unitKey ns (off / 4096) → u.stripe? key = s.stripe? key) ∧
        bit (FMap.get 0 u.flash.live.lost (unitKey ns (off / 4096))) (off / 4096 % 56) = false ∧
        u.flash.live.nss = s.flash.live.nss ∧ u.flash.written = s.flash.written ∧
        aside { s.beginCmd id with flash := u.flash } u))) ∧
  (∀ (s : State) id c, s.canRun id 0x0608 c →
    ∃ u : State, exec (.flashRebuild id) s = .next (u.complete id .success [] []) ∧
      u = { s.beginCmd id with flash := { s.flash with live := { s.flash.live with nss := u.flash.live.nss, map := u.flash.live.map }
                                                       available := true, banks := u.flash.banks
                                                       current := 1 - s.flash.current, journal := [], bankAt := s.time } } ∧
      (∀ n, (FMap.find? s.flash.live.nss n).isSome = true → (FMap.find? u.flash.live.nss n).isSome = true) ∧
      (FMap.risingFrom s.flash.nand 0 = true →
        (∀ p z, FMap.find? s.flash.nand p = some z →
          (s.flash.available = false ∨ (FMap.find? s.flash.live.nss z.ns).isSome = true) →
          ∃ y, u.stripe? (lsKey z.ns z.ls) = some y ∧ z.wseq ≤ y.wseq) ∧
        (∀ key z, u.stripe? key = some z → lsKey z.ns z.ls = key ∧ (∃ p, FMap.find? s.flash.nand p = some z) ∧
          (s.flash.available = false ∨ (FMap.find? s.flash.live.nss z.ns).isSome = true) ∧
          ∃ v, FMap.find? u.flash.live.nss z.ns = some v ∧ z.ls < 64 * v.extents)))

/-! ### Accounting, counters, log, service and security by command -/

/-- ACCT_SNAPSHOT answers the seat's record. PMC_SNAPSHOT of a seat latches its counters into the shadows with
SNAP_SEQ and the beat, writes the snapshot to the snapshot area, cut at its length, where the seat has one, and
answers it; the last timed snapshot is answered again on demand; a device snapshot counts DEVICE_SEQ, is a physical
function's or a management transport's alone, and answers too. PMC_SELECT sets every field that it gives, or none
where a check fails. LOG_READ answers up to 128 records from a SEQ on, to a physical function those of its port's
seats and of no seat; LOG_CLEAR removes the records up to a SEQ, and FAULT_N follows. TILE_FENCE fences a tile that is
not fenced; TILE_RETURN starts the self-test of a fenced tile that has not passed one, and is MODULE_STATE for one
that is not fenced or is retired (R546, R550, R570, R598 to R605). Where the rules leave a point open here, it is the
model's reading (log 41, log 55, log 56). -/
def Obligations.RecordsAndTilesByCommand : Prop :=
  (∀ (s : State) id c x, s.canRun id 0x0701 c → s.seat? (chSeat c.packet) = some x →
    exec (.acctSnapshot id) s = .next ((s.beginCmd id).complete id .success [] x.acctRecord)) ∧
  (∀ (s : State) id c x n k, s.canRun id 0x0703 c → n = chSeat c.packet → s.seat? n = some x → k = chArg c.packet / 256 % 256 →
    (bit (chArg c.packet) 0 = true → exec (.pmcSnapshot id) s = .next ((s.beginCmd id).complete id .success []
      (snapAnswer c.isMgmt k (padTo (max 64 x.snap.last.length) x.snap.last)))) ∧
    (bit (chArg c.packet) 0 = false → bit (chArg c.packet) 1 = true → c.isMgmt = false → c.isPhysical = false →
      refused (.pmcSnapshot id) s id .permissionDenied) ∧
    (bit (chArg c.packet) 0 = false → bit (chArg c.packet) 1 = true → (c.isMgmt = true ∨ c.isPhysical = true) →
      ∃ (u v : State) (b : Bytes), v = { s.beginCmd id with ctrs := { s.ctrs with deviceSeq := s.ctrs.deviceSeq + 1 } } ∧
        b = v.snapBytes x (v.sections n x (some (match c.port? with | some p => s.portSeats p | none => s.seats)))
          v.ctrs.deviceSeq.toNat true false false ∧
        u = v.writeSnap n x b ∧ exec (.pmcSnapshot id) s = .next (u.complete id .success [] (snapAnswer c.isMgmt k b)) ∧
        (x.snap.area = 0 → u = v) ∧ aside { v with mem := u.mem, poison := u.poison } u) ∧
    (bit (chArg c.packet) 0 = false → bit (chArg c.packet) 1 = false →
      ∃ (u v : State) (y : Seat) (b : Bytes), y = { x with pmc := x.pmc.latch s.time s.beat false } ∧ v = (s.beginCmd id).setSeat n y ∧
        b = v.snapBytes y (v.sections n y none) y.pmc.snapSeq.toNat false false false ∧
        u = v.writeSnap n y b ∧ exec (.pmcSnapshot id) s = .next (u.complete id .success [] (snapAnswer c.isMgmt k b)) ∧
        y.pmc.snapSeq = x.pmc.snapSeq + 1 ∧ y.pmc.snapBeat = BitVec.ofNat 64 s.beat ∧ y.pmc.shadow = (x.pmc.settle s.time).ctr ∧
        y.pmc.sel = (x.pmc.settle s.time).sel ∧
        (x.snap.area = 0 → u = v) ∧ aside { v with mem := u.mem, poison := u.poison } u ∧
        ∀ a, x.snap.area ≠ 0 → v.quotaAddr y x.snap.area (min x.snap.len b.length) = some a →
          u.mem = (v.store a (b.take x.snap.len)).mem ∧ u.poison = (v.store a (b.take x.snap.len)).poison)) ∧
  (∀ (s : State) id c x n (p : Bytes), s.canRun id 0x0702 c → n = chSeat c.packet → s.seat? n = some x → chPayload c.packet = p →
    (∀ st, s.pmcSelectCheck c x p = some st → refused (.pmcSelect id) s id st) ∧
    (s.pmcSelectCheck c x p = none →
      exec (.pmcSelect id) s = .next (({ (s.beginCmd id).setSeat n { x with
        snap := { x.snap with area := if psArea p = 0 then x.snap.area else psArea p
                              len := if psArea p = 0 then x.snap.len else psLen p
                              perm := if psPerm p = 0xFF then x.snap.perm else psPerm p
                              time := psTime p, late := psTime p != 0 && decide (psTime p < s.sysTime) }
        pmc := { x.pmc with waitSel := if psSels p then (List.range 16).foldl (fun m i => waitHalves m i (psSel p i)) x.pmc.waitSel
                                       else x.pmc.waitSel } } with
        ctrs := { s.ctrs with bw := if psPeak p then s.ctrs.bw.map (fun (kb : Nat × Bw) => (kb.1, { kb.2 with peak := 0 })) else s.ctrs.bw
                              nextWindow := if psWindow p = 0xFF then s.ctrs.nextWindow else some (psWindow p) } }).complete id
          .success [] []))) ∧
  (∀ (s : State) id c k, s.canRun id 0x0801 c → k = chArg c.packet →
    (c.port? = none → exec (.logRead id) s = .next ((s.beginCmd id).complete id .success []
      (((s.log.records.filter (fun r => decide (k ≤ r.seq.toNat))).take 128).flatMap LogRec.bytes))) ∧
    (∀ p, c.port? = some p → exec (.logRead id) s = .next ((s.beginCmd id).complete id .success []
      (((s.log.records.filter (fun r => decide (k ≤ r.seq.toNat) && r.seat.all (fun n => n / 16 == p))).take 128).flatMap
        LogRec.bytes)))) ∧
  (∀ (s : State) id c, s.canRun id 0x0802 c →
    ∃ u : State, exec (.logClear id) s = .next (u.complete id .success [] []) ∧
      u = { s.beginCmd id with log := { s.log with records := u.log.records }, pins := { s.pins with faultN := u.pins.faultN } } ∧
      u.log.records = s.log.records.filter (fun r => decide (chArg c.packet < r.seq.toNat)) ∧
      (u.pins.faultN = false ↔ s.mod.state = .hold ∨ ∃ r ∈ u.log.records, r.sev = 4 ∧ r.prior = false)) ∧
  (∀ (s : State) id c q, s.canRun id 0x0803 c → q = chArg c.packet →
    (q < 1024 → (s.ptile q).fence = none →
      ∃ u : State, u = (s.beginCmd id).fenceTile q .command ∧ exec (.tileFence id) s = .next (u.complete id .success [] []) ∧
        u.ptile q = { s.ptile q with fence := some .command, fenceTime := s.time, fences := (s.ptile q).fences + 1
                                     retired := decide (3 ≤ (s.ptile q).fences + 1), testing := false, passed := false } ∧
        ∀ k, k ≠ q → u.ptile k = s.ptile k) ∧
    ((1024 ≤ q ∨ (s.ptile q).fence.isSome = true) → exec (.tileFence id) s = .next ((s.beginCmd id).complete id .success [] []))) ∧
  (∀ (s : State) id c q, s.canRun id 0x0804 c → q = chArg c.packet →
    ((s.ptile q).fence.isSome = true → (s.ptile q).retired = false →
      ∃ u : State, exec (.tileReturn id) s = .next (u.complete id .success [] []) ∧
        u = { s.beginCmd id with units := { s.units with ptiles := u.units.ptiles } } ∧
        u.ptile q = { s.ptile q with testing := !(s.ptile q).passed } ∧ ∀ k, k ≠ q → u.ptile k = s.ptile k) ∧
    (((s.ptile q).fence = none ∨ (s.ptile q).retired = true) → refused (.tileReturn id) s id .moduleState))

/-- Record i of a THRESHOLDS payload. -/
def boundRecord (p : Bytes) (i : Nat) : Bytes := (p.drop (16 * i)).take 16

/-- THRESHOLDS sets the bounds of the monitors that its records name, the last record of a monitor winning, and
touches no other monitor and no reading, where every record is in form and within the limits of R573; else none
applies. SHUTDOWN of a module with seats starts the drain of every one that does not drain; of a module with none it
writes a flash bank where the tier is available, leaves every port DISABLED and completes (R316, R550, R573, R611).
Where the rules leave a point open here, it is the model's reading (log 51, log 55). -/
def Obligations.LimitsAndShutdownByCommand : Prop :=
  (∀ (s : State) id c (p : Bytes) n, s.canRun id 0x0806 c → chPayload c.packet = p → n = p.length / 16 →
    ((p.length = 0 ∨ p.length % 16 ≠ 0 ∨ ∃ i, i < n ∧ (zeros (boundRecord p i) 2 4 = false ∨ zeros (boundRecord p i) 12 16 = false)) →
      refused (.thresholds id) s id .cmdInvalid) ∧
    (0 < p.length → p.length % 16 = 0 → (∀ i, i < n → zeros (boundRecord p i) 2 4 = true ∧ zeros (boundRecord p i) 12 16 = true) →
      ((∃ i, i < n ∧ (monitorExists (fld (boundRecord p i) 0 2) = false ∨ warnInside (s.boundsOf (boundRecord p i)).2 = false ∨
          settable (fld (boundRecord p i) 0 2) (s.boundsOf (boundRecord p i)).2 = false)) →
        refused (.thresholds id) s id .configInvalid) ∧
      ((∀ i, i < n → monitorExists (fld (boundRecord p i) 0 2) = true ∧ warnInside (s.boundsOf (boundRecord p i)).2 = true ∧
          settable (fld (boundRecord p i) 0 2) (s.boundsOf (boundRecord p i)).2 = true) →
        ∃ u : State, exec (.thresholds id) s = .next (u.complete id .success [] []) ∧ u = { s.beginCmd id with mons := u.mons } ∧
          (∀ i q m, i < n → q = boundRecord p i → m = fld q 0 2 → (∀ k, i < k → k < n → fld (boundRecord p k) 0 2 ≠ m) →
            u.mon m = { s.mon m with
              warnLo := wordBound m false (fld q 4 2), warnHi := wordBound m true (fld q 6 2)
              critLo := wordBound m false (fld q 8 2), critHi := wordBound m true (fld q 10 2) }) ∧
          ∀ j, (∀ i, i < n → fld (boundRecord p i) 0 2 ≠ j) → u.mon j = s.mon j))) ∧
  (∀ (s : State) id c, s.canRun id 0x0808 c → s.seats ≠ [] →
    exec (.shutdown id) s = .next (s.seats.foldl (fun v ks => if ks.2.drain.isSome then v
        else (v.seatChanged ks.1).startDrain ks.1 .destroy (chArg c.packet) none (chArg c.packet == 0))
      { s.beginCmd id with mod := { s.mod with shutdown := some (id, false) } })) ∧
  (∀ (s : State) id c, s.canRun id 0x0808 c → s.seats = [] →
    ∃ u : State, exec (.shutdown id) s = .next (u.complete id .success [] []) ∧
      (∀ p, p < 24 → (u.port p).state = .disabled) ∧ u.seats = [] ∧ u.units = s.units ∧ u.mem = s.mem ∧
      u.mod = { s.mod with shutdown := none } ∧ u.flash.live = s.flash.live ∧ u.flash.nand = s.flash.nand ∧
      (s.flash.available = true → u.flash = (s.bankWrite).flash ∧ u.flash.journal = [] ∧ u.flash.current = 1 - s.flash.current ∧
        (FMap.get {} u.flash.banks (1 - s.flash.current)).seq = (FMap.get {} s.flash.banks s.flash.current).seq + 1) ∧
      (s.flash.available = false → u.flash = s.flash) ∧
      ((∀ p, p < 24 → (s.port p).state = .disabled) →
        u = { s.beginCmd id with mod := { s.mod with shutdown := none }, flash := u.flash }))

/-- FW_QUERY answers the slots; FW_WRITE writes the slot that does not run, no other byte of it, and leaves the
running one selected, for a whole number of 64-byte blocks inside the slot; FW_ACTIVATE selects a slot whose image
verifies, and refuses any other with IMAGE_INVALID; SEC_ADMIT sets admission; SEC_MGMT_ACL sets the management filter
of at most 8 requesters; the unlock challenge answers a nonce of 32 bytes and the serial number; an unlock of a scope
that is not there is CMD_INVALID, one that does not verify is UNLOCK_DENIED and spends the nonce, and one that
verifies ends admission, zeroes memory, makes the tier unavailable and opens its scope (R551, R555, R556, R576 to
R579, R584, R585). The nonce is a free value (log 2): nothing is said of it. Where the rules leave a point open here,
it is the model's reading (log 55). -/
def Obligations.FirmwareAndSecurityByCommand : Prop :=
  (∀ (s : State) id c, s.canRun id 0x0901 c → exec (.fwQuery id) s = .next ((s.beginCmd id).complete id .success [] s.fwQuery)) ∧
  (∀ (s : State) id c (p : Bytes) o, s.canRun id 0x0902 c → chPayload c.packet = p → o = chArg c.packet →
    (p.length % 64 ≠ 0 → refused (.fwWrite id) s id .cmdInvalid) ∧
    (p.length % 64 = 0 → (o % 64 ≠ 0 ∨ slotSize < o + p.length) → refused (.fwWrite id) s id .configInvalid) ∧
    (p.length % 64 = 0 → o % 64 = 0 → o + p.length ≤ slotSize →
      ∃ u : State, exec (.fwWrite id) s = .next (u.complete id .success [] []) ∧ u = { s.beginCmd id with fw := u.fw } ∧
        u.fw = { s.fw with selectedB := s.fw.runningB, slotA := u.fw.slotA, slotB := u.fw.slotB
                           factoryA := s.fw.factoryA && !s.fw.runningB } ∧
        u.slot s.fw.runningB = s.slot s.fw.runningB ∧
        (∀ i, i < p.length → FMap.get 0 (u.slot (!s.fw.runningB)) (o + i) = p.getD i 0) ∧
        (∀ a, a < o ∨ o + p.length ≤ a → FMap.get 0 (u.slot (!s.fw.runningB)) a = FMap.get 0 (s.slot (!s.fw.runningB)) a))) ∧
  (∀ (s : State) id c, s.canRun id 0x0903 c →
    (s.imageOk (bit (chArg c.packet) 0) = true →
      ∃ u : State, exec (.fwActivate id) s = .next (u.complete id .success [] []) ∧
        aside { s.beginCmd id with fw := { s.fw with selectedB := bit (chArg c.packet) 0, failedStarts := 0 } } u) ∧
    (s.imageOk (bit (chArg c.packet) 0) = false → refused (.fwActivate id) s id .imageInvalid)) ∧
  (∀ (s : State) id c, s.canRun id 0x0A01 c →
    ∃ u : State, exec (.secAdmit id) s = .next (u.complete id .success [] []) ∧
      aside { s.beginCmd id with mod := { s.mod with admitted := bit (chArg c.packet) 0 } } u ∧
      (s.mod.admitted = bit (chArg c.packet) 0 → u = s.beginCmd id)) ∧
  (∀ (s : State) id c (p : Bytes), s.canRun id 0x0A02 c → chPayload c.packet = p →
    ((byteAt p 1 ≠ 0 ∨ zeros p 6 8 = false) → refused (.secMgmtAcl id) s id .cmdInvalid) ∧
    (byteAt p 1 = 0 → zeros p 6 8 = true →
      (8 < byteAt p 0 → refused (.secMgmtAcl id) s id .configInvalid) ∧
      (byteAt p 0 ≤ 8 → exec (.secMgmtAcl id) s = .next ({ s.beginCmd id with mgmt := { s.mgmt with
        aclRequesters := (List.range (byteAt p 0)).map (fun i => fld p (8 + 2 * i) 2)
        aclMatch := fld p 2 2, aclMask := fld p 4 2 } }.complete id .success [] [])))) ∧
  (∀ (s : State) id c, s.canRun id 0x0A03 c →
    ∃ n : Bytes, n.length = 32 ∧
      exec (.secUnlockChallenge id) s = .next ({ s.beginCmd id with
        free := s.free + 1, sec := { s.sec with nonce := some n, nonceAt := s.time } }.complete id .success []
          (n ++ padTo 16 s.ident.serial))) ∧
  (∀ (s : State) id c (p : Bytes), s.canRun id 0x0A04 c → p = chPayload c.packet →
    (4 ≤ fld p 4 4 → refused (.secUnlock id) s id .cmdInvalid) ∧
    (fld p 4 4 < 4 → s.unlockValid p = false →
      ∃ u : State, exec (.secUnlock id) s = .next (u.complete id .unlockDenied [] []) ∧
        aside { s.beginCmd id with sec := { s.sec with nonce := none } } u) ∧
    (fld p 4 4 < 4 → s.unlockValid p = true →
      ∃ u : State, exec (.secUnlock id) s = .next (u.complete id .success [] []) ∧
        u = { s.beginCmd id with sec := { s.sec with nonce := none } }.unlock (fld p 4 4) ∧ u.mod.admitted = false ∧ u.mem = [] ∧
        u.poison = [] ∧ u.sec.scope = fld p 4 4 ∧ u.flash.available = false))

/-! ### Rings and registers of the host ports -/

/-- The registers of a ring are served: its function is there and the module serves the host ports (R606, R610). -/
def ringServed (s : State) (fn q : Nat) : Prop := s.hostServed fn = true ∧ q < 4 ∧ q < (s.fn fn).rings.length

/-- Only one ring pair of one function changes, aside from what is told. -/
def onlyRing (fn q : Nat) (s t : State) : Prop :=
  aside { s with host := { s.host with functions := t.host.functions } } t ∧
  (∀ n, n ≠ fn → t.fn n = s.fn n) ∧ (∀ k, k ≠ q → t.ring fn k = s.ring fn k) ∧
  (t.fn fn).evtEnable = (s.fn fn).evtEnable ∧ (t.fn fn).aperture = (s.fn fn).aperture ∧ (t.fn fn).msix = (s.fn fn).msix

/-- A ring pair is reset: it is RESETTING, its errors are forgotten; of its commands those that run stay, to end without a completion, and
the others are dropped (R545, R665). -/
def ringIsReset (s : State) (fn q : Nat) (t : State) : Prop :=
  t.ring fn q = { s.ring fn q with state := .resetting, enable := false, badTail := false, badHeader := false, badHead := false
                                   outstanding := (s.ring fn q).outstanding -
                                     (s.host.cmds.filter (fun c => decide (c.issuer = .ring fn q) && !s.running c)).length } ∧
  (∀ k, k ≠ q → t.ring fn k = s.ring fn k) ∧
  (∀ c ∈ t.host.cmds, c.issuer = .ring fn q → ∃ d ∈ s.host.cmds, s.running d = true ∧ c = { d with discard := true }) ∧
  (∀ c ∈ s.host.cmds, c.issuer ≠ .ring fn q → (∀ d ∈ s.host.cmds, d.id = c.id → d = c) → c ∈ t.host.cmds) ∧
  t.mem = s.mem ∧ t.poison = s.poison ∧ t.host.hostMem = s.host.hostMem ∧ t.fab = s.fab ∧ t.flash = s.flash ∧ t.mod = s.mod

/-- Ring pairs: a write of RQ_CTL with RESET, or one without ENABLE to a pair that is ENABLED or in ERROR, resets the
pair; one with ENABLE enables a DISABLED pair where its registers are in range, and else sets CFG_INVALID and leaves
it; any other write has no effect. A valid submission tail or completion head is taken, an invalid one puts the pair
in ERROR and raises its event, and a pair that is not ENABLED takes neither. A RESETTING pair is DISABLED once none of
its commands is left. Registers of a function that is not served do nothing (R531, R532, R663 to R666). Where the
rules leave a point open here, it is the model's reading (log 58). -/
def Obligations.RingPairsFollowTheirRegisters : Prop :=
  (∀ s fn q (v : W64) i, ringServed s fn q → (i = .ringEnable fn q v ∨ i = .ringReset fn q v) →
    ((v.getLsbD 1 = true ∨ (v.getLsbD 0 = false ∧ ((s.ring fn q).state = .enabled ∨ (s.ring fn q).state = .error))) →
      ∃ t, exec i s = .next t ∧ ringIsReset s fn q t) ∧
    (v.getLsbD 1 = false → v.getLsbD 0 = true → (s.ring fn q).state = .disabled →
      ∃ t, exec i s = .next t ∧ t = { s with host := { s.host with functions := t.host.functions } } ∧ onlyRing fn q s t ∧
        ((s.ring fn q).cfgOk = true → t.ring fn q = { s.ring fn q with
          enable := true, state := .enabled, cfgInvalid := false, sqHead := 0, sqTail := 0, cqHead := 0, cqTail := 0, phase := true
          outstanding := 0, unsignalled := 0, firstIrq := 0 }) ∧
        ((s.ring fn q).cfgOk = false → t.ring fn q = { s.ring fn q with cfgInvalid := true })) ∧
    (v.getLsbD 1 = false → ((v.getLsbD 0 = true ∧ (s.ring fn q).state ≠ .disabled) ∨
        (v.getLsbD 0 = false ∧ (s.ring fn q).state ≠ .enabled ∧ (s.ring fn q).state ≠ .error)) → exec i s = .next s)) ∧
  (∀ s fn q (v : W64), ringServed s fn q →
    ((s.ring fn q).state = .enabled → v.toNat < rqSq (s.ring fn q).cfg →
      ∃ t, exec (.dbSqTail fn q v) s = .next t ∧ onlyRing fn q s t ∧ t.ring fn q = { s.ring fn q with sqTail := v.toNat }) ∧
    ((s.ring fn q).state = .enabled → rqSq (s.ring fn q).cfg ≤ v.toNat →
      ∃ t, exec (.dbSqTail fn q v) s = .next t ∧ onlyRing fn q s t ∧
        t.ring fn q = { s.ring fn q with state := .error, badTail := true } ∧
        (t.fn fn).evtStatus.getLsbD evtRingError = true) ∧
    ((s.ring fn q).state ≠ .enabled → exec (.dbSqTail fn q v) s = .next s ∧ exec (.dbCqHead fn q v) s = .next s)) ∧
  (∀ s fn q (v : W64) r h size, ringServed s fn q → r = s.ring fn q → r.state = .enabled → h = v.toNat % 65536 → size = rqCq r.cfg →
    (h = r.cqHead → exec (.dbCqHead fn q v) s = .next s) ∧
    (h ≠ r.cqHead → h < size → (h + size - r.cqHead) % size ≤ (r.cqTail + size - r.cqHead) % size →
      ∃ t, exec (.dbCqHead fn q v) s = .next t ∧ onlyRing fn q s t ∧ t.ring fn q = { r with cqHead := h }) ∧
    (h ≠ r.cqHead → (size ≤ h ∨ (r.cqTail + size - r.cqHead) % size < (h + size - r.cqHead) % size) →
      ∃ t, exec (.dbCqHead fn q v) s = .next t ∧ onlyRing fn q s t ∧ t.ring fn q = { r with state := .error, badHead := true } ∧
        (t.fn fn).evtStatus.getLsbD evtRingError = true)) ∧
  (∀ s fn q, q < 4 → q < (s.fn fn).rings.length →
    ((s.ring fn q).state = .resetting → (∀ c ∈ s.host.cmds, c.issuer ≠ .ring fn q) →
      ∃ t, exec (.ringResetDone fn q) s = .next t ∧ onlyRing fn q s t ∧
        t.ring fn q = { s.ring fn q with state := .disabled, outstanding := 0 }) ∧
    (((s.ring fn q).state ≠ .resetting ∨ ∃ c ∈ s.host.cmds, c.issuer = .ring fn q) → exec (.ringResetDone fn q) s = .next s)) ∧
  (∀ s fn q (v : W64), (s.hostServed fn = false ∨ 4 ≤ q) →
    exec (.ringEnable fn q v) s = .next s ∧ exec (.ringReset fn q v) s = .next s ∧
    exec (.dbSqTail fn q v) s = .next s ∧ exec (.dbCqHead fn q v) s = .next s)

/-- A completion entry of a ring is free: the commands outstanding and the entries not read are fewer than its size less one. -/
def entryFree (r : Ring) : Prop := r.outstanding + (r.cqTail + rqCq r.cfg - r.cqHead) % rqCq r.cfg < rqCq r.cfg - 1

/-- COMMAND_ACCEPT takes the packet at the submission head of an enabled ring once a completion entry is free, and,
with FENCE, once nothing of the ring is outstanding: the head moves past the packet, and the command is accepted with
the next number once its order leaves room for it; one that fails a check of its header completes at once with the
status of the check, and a length that is not in form puts the ring in ERROR. Nothing is taken otherwise. The time
threshold signals the completions that wait, and does nothing where none does (R531, R532, R534, R536, R541). -/
def Obligations.RingsAcceptCommands : Prop :=
  (∀ (s : State) fn q b n (r : Ring), fn < 64 → q < 4 → s.fnPresent fn = true → q < (s.fn fn).rings.length → r = s.ring fn q →
    s.nextPacket fn q = some (b, n) →
    ((¬ entryFree r ∨ (chFence b = true ∧ 0 < r.outstanding)) → exec (.commandAccept fn q) s = .next s) ∧
    (entryFree r → (chFence b = false ∨ r.outstanding = 0) →
      (∀ o, chLenOk b = true → s.headerCheck (.ring fn q) b = none → opRow (chOpcode b) = some o →
        (((chOpcode b = 0x0401 ∧ s.launchRoom (chSeat b) = false) ∨ (o.hw = false ∧ s.refereeRoom = false)) →
          exec (.commandAccept fn q) s = .next s) ∧
        ((chOpcode b = 0x0401 → s.launchRoom (chSeat b) = true) → (o.hw = false → s.refereeRoom = true) →
          ∃ t, exec (.commandAccept fn q) s = .next t ∧
            t.host.cmds = s.host.cmds ++ [{ id := s.host.nextCmd, issuer := .ring fn q, packet := b
                                            sqHead := (r.sqHead + n) % rqSq r.cfg, begun := false, discard := false
                                            acceptedAt := s.time }] ∧
            t.host.nextCmd = s.host.nextCmd + 1 ∧
            t.ring fn q = { r with sqHead := (r.sqHead + n) % rqSq r.cfg, outstanding := r.outstanding + 1 } ∧
            aside ((s.setRing fn q (t.ring fn q)).accept (.ring fn q) b ((r.sqHead + n) % rqSq r.cfg)) t)) ∧
      (∀ st, (if chLenOk b then s.headerCheck (.ring fn q) b else some .cmdInvalid) = some st →
        ∃ (t u : State), exec (.commandAccept fn q) s = .next t ∧
          u = (s.setRing fn q { r with sqHead := (r.sqHead + n) % rqSq r.cfg, outstanding := r.outstanding + 1 }).ringComplete fn q b
            ((r.sqHead + n) % rqSq r.cfg) st [] [] ∧
          (chLenOk b = true → aside u t) ∧
          (chLenOk b = false → aside (u.setRing fn q { u.ring fn q with state := .error, badHeader := true }) t ∧
            (t.fn fn).evtStatus.getLsbD evtRingError = true) ∧
          t.host.cmds = s.host.cmds ∧ t.host.nextCmd = s.host.nextCmd))) ∧
  (∀ (s : State) fn q, (64 ≤ fn ∨ 4 ≤ q ∨ s.fnPresent fn = false ∨ s.nextPacket fn q = none) →
    exec (.commandAccept fn q) s = .next s) ∧
  (∀ (s : State) fn q v, fn < 64 → q < 4 → q < (s.fn fn).rings.length → 0 < (s.ring fn q).unsignalled →
    v = rqVector (s.ring fn q).cfg →
    ∃ t, exec (.irqTimeThreshold fn q) s = .next t ∧ onlyRing fn q s t ∧
      t.ring fn q = { s.ring fn q with unsignalled := 0 } ∧
      ((s.fn fn).msixMasked = false → (FMap.get {} (s.fn fn).msix v).masked = false →
        t.host.msixSent = s.host.msixSent ++ [(fn, v)]) ∧
      (((s.fn fn).msixMasked = true ∨ (FMap.get {} (s.fn fn).msix v).masked = true) →
        t.host.msixSent = s.host.msixSent ∧ v ∈ (t.fn fn).msixPending)) ∧
  (∀ (s : State) fn q, (64 ≤ fn ∨ 4 ≤ q ∨ (s.ring fn q).unsignalled = 0) → exec (.irqTimeThreshold fn q) s = .next s)

/-- The counter block of a function's seat is changed and nothing else. -/
def pmcBecomes (i : Instr) (s : State) (fn : Nat) (f : Pmc → Pmc) : Prop :=
  (s.seat? fn = none → exec i s = .next s) ∧
  ∀ x, s.seat? fn = some x → ∃ t, exec i s = .next t ∧ t = { s with seats := t.seats } ∧
    t.seat? fn = some { x with pmc := f x.pmc } ∧ ∀ m, m ≠ fn → t.seat? m = s.seat? m

/-- Registers that a host writes: EVT_STATUS clears where a one is written, but for the bits that the hardware sets in
the same hc; EVT_ENABLE takes its value and raises the event vector over a status bit that is 1; the aperture takes
its value; a vector, or with 128 the function, is unmasked, and what is pending and unmasked is sent once. The counter
block's selects and control wait for the next beat, when CLEAR zeroes the counters and the control bits apply, and the
account is latched at once. A register write at an aligned offset of 8 bytes is the write of that register, of 4 bytes
of its half; a misaligned one is discarded with BAD_ACCESS, and one to the identification page, beyond BAR0 or to a
function that is not served has no effect (R15, R598 to R600, R658, R661, R662, R669 to R671). Where the rules leave a
point open here, it is the model's reading (log 56, log 58). -/
def Obligations.RegisterWritesTakeEffect : Prop :=
  (∀ (s : State) fn (v : W64), s.hostServed fn = true →
    ∃ t, exec (.evtStatusClear fn v) s = .next t ∧ t = s.setFn fn { s.fn fn with evtStatus := (t.fn fn).evtStatus } ∧
      ∀ i, i < 7 → (t.fn fn).evtStatus.getLsbD i =
        ((s.fn fn).evtStatus.getLsbD i && (!v.getLsbD i || (s.evtJustSet fn).getLsbD i))) ∧
  (∀ (s : State) fn (v : W64), s.hostServed fn = true →
    (v.setWidth 7 &&& (s.fn fn).evtStatus = 0 →
      exec (.evtEnableWrite fn v) s = .next (s.setFn fn { s.fn fn with evtEnable := v.setWidth 7 })) ∧
    (v.setWidth 7 &&& (s.fn fn).evtStatus ≠ 0 →
      exec (.evtEnableWrite fn v) s = .next ((s.setFn fn { s.fn fn with evtEnable := v.setWidth 7 }).raiseVector fn 0))) ∧
  (∀ (s : State) fn (v : W64), s.hostServed fn = true →
    exec (.bar2ApertureWrite fn v) s = .next (s.setFn fn { s.fn fn with aperture := v.setWidth 9 })) ∧
  (∀ (s : State) fn v (f : Func), s.hostServed fn = true →
    f = (if v < 128 then { s.fn fn with msix := FMap.put {} (s.fn fn).msix v { FMap.get {} (s.fn fn).msix v with masked := false } }
         else { s.fn fn with msixMasked := false }) →
    (f.msixMasked = true → exec (.msixUnmask fn v) s = .next (s.setFn fn f)) ∧
    (f.msixMasked = false → ∃ t, exec (.msixUnmask fn v) s = .next t ∧
      t.fn fn = { f with msixPending := f.msixPending.filter (fun k => (FMap.get {} f.msix k).masked) } ∧
      t.host.msixSent = s.host.msixSent ++ (f.msixPending.filter (fun k => !(FMap.get {} f.msix k).masked)).map (fun k => (fn, k)) ∧
      (∀ n, n ≠ fn → t.fn n = s.fn n) ∧
      t = { s with host := { s.host with functions := t.host.functions, msixSent := t.host.msixSent } })) ∧
  (∀ (s : State) fn i (v : W64), (i < 16 → pmcBecomes (.pmcSelWrite fn i v) s fn (fun p => { p with waitSel := waitHalves p.waitSel i v })) ∧
    (16 ≤ i → exec (.pmcSelWrite fn i v) s = .next s)) ∧
  (∀ (s : State) fn (v : W64),
    pmcBecomes (.pmcFreeze fn v) s fn (fun p => { p with waitFreeze := some (v.getLsbD 0), waitSnapFreeze := some (v.getLsbD 1)
                                                         waitClear := p.waitClear || v.getLsbD 2 }) ∧
    pmcBecomes (.pmcClear fn v) s fn (fun p => { p with waitFreeze := some (v.getLsbD 0), waitSnapFreeze := some (v.getLsbD 1)
                                                        waitClear := true })) ∧
  (∀ s : State, exec .pmcWriteApply s =
    .next { s with seats := s.seats.map (fun ks => (ks.1, { ks.2 with pmc := ks.2.pmc.apply ks.2 s.time })) }) ∧
  (∀ (p : Pmc) x now, (p.apply x now).freeze = p.waitFreeze.getD p.freeze ∧ (p.apply x now).snapFreeze = p.waitSnapFreeze.getD p.snapFreeze ∧
    (p.apply x now).waitClear = false ∧ (p.apply x now).waitSel = [] ∧ (p.apply x now).waitCtr = [] ∧
    (p.waitClear = true → p.waitCtr = [] → (p.apply x now).ctr = List.replicate 16 0) ∧
    (p.waitSel = [] → (p.apply x now).sel = p.sel)) ∧
  (∀ (s : State) fn (v : W64), ((v.getLsbD 0 = false ∨ s.seat? fn = none) → exec (.acctLatch fn v) s = .next s) ∧
    ∀ x, s.seat? fn = some x → v.getLsbD 0 = true →
      ∃ t, exec (.acctLatch fn v) s = .next t ∧ t = { s with seats := t.seats } ∧
        t.seat? fn = some { x with acctSnap := x.acctFields, acctSeq := x.acctSeq + 1 } ∧ ∀ m, m ≠ fn → t.seat? m = s.seat? m) ∧
  (∀ (s : State) fn (v : W64), s.hostServed fn = true →
    exec (.registerWrite fn 0x1020 8 v) s = exec (.evtStatusClear fn v) s ∧
    exec (.registerWrite fn 0x1028 8 v) s = exec (.evtEnableWrite fn v) s ∧
    exec (.registerWrite fn 0x1038 8 v) s = exec (.bar2ApertureWrite fn v) s ∧
    exec (.registerWrite fn 0x3000 8 v) s = exec (.pmcFreeze fn v) s ∧
    (∀ i, i < 16 → exec (.registerWrite fn (0x3100 + 8 * i) 8 v) s = exec (.pmcSelWrite fn i v) s) ∧
    exec (.registerWrite fn 0x3400 8 v) s = exec (.acctLatch fn v) s ∧
    ∀ q, q < 4 → exec (.registerWrite fn (0x2018 + 0x100 * q) 8 v) s = exec (.ringEnable fn q v) s ∧
      exec (.registerWrite fn (0x4000 + 0x1000 * q) 8 v) s = exec (.dbSqTail fn q v) s ∧
      exec (.registerWrite fn (0x4008 + 0x1000 * q) 8 v) s = exec (.dbCqHead fn q v) s ∧
      ((s.ring fn q).state = .disabled → ∀ size, (size = 8 ∨ size = 4) →
        let w (old : W64) : W64 := if size = 8 then v else BitVec.ofNat 64 (v.toNat % 2 ^ 32 + old.toNat / 2 ^ 32 * 2 ^ 32)
        exec (.registerWrite fn (0x2000 + 0x100 * q) size v) s =
          .next (s.setRing fn q { s.ring fn q with sqBase := w (s.ring fn q).sqBase &&& 0xFFFFFFFFFFFFF000 }) ∧
        exec (.registerWrite fn (0x2008 + 0x100 * q) size v) s =
          .next (s.setRing fn q { s.ring fn q with cqBase := w (s.ring fn q).cqBase &&& 0xFFFFFFFFFFFFF000 }) ∧
        exec (.registerWrite fn (0x2010 + 0x100 * q) size v) s =
          .next (s.setRing fn q { s.ring fn q with cfg := w (s.ring fn q).cfg &&& 0x03FF01FF007F1F1F })) ∧
      ((s.ring fn q).state ≠ .disabled → ∀ o size, o < 0x18 → exec (.registerWrite fn (0x2000 + 0x100 * q + 8 * (o / 8)) size v) s =
        if size = 8 ∨ size = 4 then .next s else .next (s.event fn evtBadAccess))) ∧
  (∀ (s : State) fn off size (v : W64), s.hostServed fn = true → off < 65536 →
    ¬(size = 8 ∧ off % 8 = 0) → ¬(size = 4 ∧ off % 4 = 0) →
    ∃ t, exec (.registerWrite fn off size v) s = .next t ∧ aside s t ∧ (t.fn fn).evtStatus.getLsbD evtBadAccess = true) ∧
  (∀ (s : State) fn off size (v : W64), (s.hostServed fn = false ∨ 65536 ≤ off ∨ ((size = 8 ∨ size = 4) ∧ off % size = 0 ∧ off < 0x1000 ∧
      off / 8 ≠ 7)) → exec (.registerWrite fn off size v) s = .next s) ∧
  (∀ (s : State) fn (v : W64), s.hostServed fn = false → exec (.evtStatusClear fn v) s = .next s ∧ exec (.evtEnableWrite fn v) s = .next s ∧
    exec (.bar2ApertureWrite fn v) s = .next s ∧ ∀ k, exec (.msixUnmask fn k) s = .next s)

/-- BAR2 accepts memory reads and writes: in READY a read that reaches the seat's memory answers its bytes, with EP
where they are poison, and a write stores its bytes and no others; what reaches nothing completes as R671 to R673 say,
and every AtomicOp, and every request while the module is not READY, with Unsupported Request. Configuration requests
are answered with retry status until the controller is configured, and then with four bytes of which nothing is said
(a free value, log 2). A function or port that is not there answers nothing (R389, R394, R610, R671 to R673). A
function-level reset resets a virtual function, of a physical function every function of its port, each with its
commands dropped or left to end without a completion, its registers as after reset and its seat destroyed; where the
module has no seat and no command the registers, the rings, MSI-X and the aperture are as after reset and nothing else
changes. The loss of a host port's link, and PERST_N asserted, do so for their port, in READY with the event in the
log; PERST_N released, or asserted again, only changes the pin (R500, R545, R645). Where the rules leave a point open
here, it is the model's reading (log 58). -/
def Obligations.HostAccessesAndPortResets : Prop :=
  ((∀ (s : State) fn o n a p, fn < 64 → s.fnPresent fn = true → s.mod.state = .ready → s.bar2Reach fn o n = .ok (a, p) →
     ∃ t, exec (.bar2Read fn o n) s = .next t ∧
       aside { s with host := { s.host with pcieOut := s.host.pcieOut ++ [(fn, .data (s.bytes p n) (s.rangePoison p n).isSome)] } } t) ∧
   (∀ (s : State) fn o (b : Bytes) a p, fn < 64 → s.fnPresent fn = true → s.mod.state = .ready →
     s.bar2Reach fn o b.length = .ok (a, p) →
     ∃ t, exec (.bar2Write fn o b) s = .next t ∧ aside (s.store p b) t ∧
       (∀ q, q < p ∨ p + b.length ≤ q → t.byte q = s.byte q) ∧
       (s.rangePoison p b.length = none → ∀ i, i < b.length → t.byte (p + i) = b.getD i 0)) ∧
   (∀ (s : State) fn o n r, fn < 64 → s.fnPresent fn = true → s.mod.state = .ready → s.bar2Reach fn o n = .error r →
     (∃ t, exec (.bar2Read fn o n) s = .next t ∧
       aside { s with host := { s.host with pcieOut := s.host.pcieOut ++ [(fn, r)] } } t) ∧
     ∀ b : Bytes, b.length = n → ∃ t, exec (.bar2Write fn o b) s = .next t ∧
       aside { s with host := { s.host with pcieOut := s.host.pcieOut ++ [(fn, r)] } } t) ∧
   (∀ (s : State) fn o, fn < 64 → s.fnPresent fn = true → s.mod.state = .ready →
     ∃ t, exec (.bar2Atomicop fn o) s = .next t ∧
       aside { s with host := { s.host with pcieOut := s.host.pcieOut ++ [(fn, .unsupported)] } } t) ∧
   (∀ (s : State) fn i, (∃ o n, i = Instr.bar2Read fn o n) ∨ (∃ o b, i = .bar2Write fn o b) ∨ (∃ o, i = .bar2Atomicop fn o) →
     (fn < 64 → s.fnPresent fn = true → s.mod.state ≠ .ready →
       exec i s = .next { s with host := { s.host with pcieOut := s.host.pcieOut ++ [(fn, .unsupported)] } }) ∧
     ((64 ≤ fn ∨ s.fnPresent fn = false) → exec i s = .next s)) ∧
   (∀ (s : State) port, s.portPresent port = true → s.mod.state ≠ .reset → s.mod.state ≠ .hold →
     (s.host.configured.getD (port / 2) false = false → exec (.pcieConfigRequest port) s =
       .next { s with host := { s.host with pcieOut := s.host.pcieOut ++ [(16 * port, .retry)] } }) ∧
     (s.host.configured.getD (port / 2) false = true → ∃ b : Bytes, b.length = 4 ∧ exec (.pcieConfigRequest port) s =
       .next { s with free := s.free + 1, host := { s.host with pcieOut := s.host.pcieOut ++ [(16 * port, .data b false)] } })) ∧
   (∀ (s : State) port, (s.portPresent port = false ∨ s.mod.state = .reset ∨ s.mod.state = .hold) →
     exec (.pcieConfigRequest port) s = .next s)) ∧
  ((∀ (s : State) fn, fn < 64 → s.fnPresent fn = true →
     (fn % 16 ≠ 0 → exec (.functionLevelReset fn) s = .next ((s.resetFn fn).destroySeat fn false)) ∧
     (fn % 16 = 0 → exec (.functionLevelReset fn) s = .next ((List.range 16).foldl (fun v i =>
       (v.resetFn (fn + i)).destroySeat (fn + i) false) s)) ∧
     (s.seats = [] → s.host.cmds = [] → ∃ t, exec (.functionLevelReset fn) s = .next t ∧ t.fn fn = {} ∧
       (fn % 16 = 0 → ∀ i, i < 16 → t.fn (fn + i) = {}) ∧
       (∀ n, n ≠ fn → (fn % 16 ≠ 0 ∨ n < fn ∨ fn + 16 ≤ n) → t.fn n = s.fn n) ∧
       t = { s with host := { s.host with functions := t.host.functions } })) ∧
   (∀ (s : State) fn, (64 ≤ fn ∨ s.fnPresent fn = false) → exec (.functionLevelReset fn) s = .next s) ∧
   (∀ (s : State) port, s.portPresent port = true → s.mod.refereeRuns = true →
     exec (.pcieLinkDown port) s = .next ((s.logEvent 0x0405 none 0x08 port 0 0).flr (16 * port)) ∧
     (port < 4 → s.seats = [] → s.host.cmds = [] → ∃ t, exec (.pcieLinkDown port) s = .next t ∧ (∀ i, i < 16 → t.fn (16 * port + i) = {}) ∧
       aside { s with host := { s.host with functions := t.host.functions } } t)) ∧
   (∀ (s : State) port, (s.portPresent port = false ∨ s.mod.refereeRuns = false) → exec (.pcieLinkDown port) s = .next s) ∧
   (∀ (s v : State) port, port < 4 → v = { s with pins := { s.pins with perstN := s.pins.perstN.set port false } } →
     (s.pins.perstN.getD port false = true →
       (s.mod.state = .ready → exec (.perstN port false) s = exec (.pcieLinkDown port) v) ∧
       (s.mod.state ≠ .ready → exec (.perstN port false) s = exec (.functionLevelReset (16 * port)) v)) ∧
     (s.pins.perstN.getD port false = false → exec (.perstN port false) s = .next v) ∧
     exec (.perstN port true) s = .next { s with pins := { s.pins with perstN := s.pins.perstN.set port true } }) ∧
   (∀ (s : State) port level, 4 ≤ port → exec (.perstN port level) s = .next s))

/-! ### Management: MCTP, SPDM and commands by message and packet -/

/-- A message has been queued for an endpoint, and nothing else has changed. -/
def messageSent (s t : State) (dest type : Nat) (body : Bytes) : Prop :=
  t = { s with mgmt := { s.mgmt with mctpOut := s.mgmt.mctpOut ++ [{ dest := dest, type := type, body := body }] } }

/-- An SPDM response has been queued and has joined the transcript; its version and code stand first. -/
def spdmSent (s t : State) (dest version code : Nat) (rest : Bytes) : Prop :=
  messageSent { s with mgmt := { s.mgmt with spdmTranscript := s.mgmt.spdmTranscript ++ [BitVec.ofNat 8 version, BitVec.ofNat 8 code] ++ rest } }
    t dest 5 ([BitVec.ofNat 8 version, BitVec.ofNat 8 code] ++ rest)

/-- The version that an SPDM response bears. -/
def spdmSpoken (s : State) : Nat := if s.mgmt.spdmVersion = 0 then 0x10 else s.mgmt.spdmVersion

/-- A signed SPDM response: a head, a fresh nonce and a tail, with a signature over the transcript, the request's nonce and themselves. -/
def spdmSigned (i : Instr) (s : State) (source code : Nat) (p head nonce tail : Bytes) : Prop :=
  ∃ t sig, exec i s = .next t ∧
    sig = s.mgmt.spdmTranscript ++ nonce ++ head ++ padTo 32 (Config.nonce s.free) ++ tail ∧
    spdmSent { s with free := s.free + 1 } t source (spdmSpoken s) code
      (p ++ head ++ padTo 32 (Config.nonce s.free) ++ tail ++ padTo 96 (Config.deviceSignature s.free sig))

/-- The measurement block of an index: its number, its kind and the SHA-384 of what R582 has it measure. -/
def measuredBlock (s : State) (i : Nat) : Bytes :=
  [BitVec.ofNat 8 i, 1] ++ natLe 2 51 ++ [BitVec.ofNat 8 (i - 1)] ++ natLe 2 48 ++ padTo 48 (Sha.sha384 (s.measured i))

/-- The MCTP endpoint is served in INIT, READY and FAILSAFE and only then: it takes the endpoint ID that the bus owner
sets (0 to 7 and 255 are none), answers with it, and names SPDM and the vendor's commands as its types, with the
module's vendor ID as its one set (R552, R553, R555; the bodies follow log 21, and the version and command-set words
are free values, log 1). The SPDM responder speaks versions 1.1 and 1.2, negotiates P-384 and SHA-384 only, and then
gives the digest and any part of the certificate chain of slot 0, whose root is of the sample authority for A0 and of
the production authority for B1, and a challenge's response and measurements that it signs with the device key over
the transcript with a fresh nonce; it answers what it does not have with the ERROR of an invalid request, another
version with a version mismatch, and what comes before the algorithms are negotiated with an unexpected request; it
answers nothing while the transports are not served (R9, R581, R582; the chain, nonces and signatures are free values,
log 1, and the bodies follow log 21). -/
def Obligations.EndpointAnswersAndProvesIdentity : Prop :=
  ((∀ (s : State) (source eid : Nat), s.mgmtServed = true →
     (8 ≤ eid → eid ≤ 254 → ∃ t, exec (.mctpSetEndpointId source eid) s = .next t ∧
       messageSent { s with mgmt := { s.mgmt with eid := eid, busOwner := some source } } t source 0 [1, 0, 0, BitVec.ofNat 8 eid, 0]) ∧
     ((eid < 8 ∨ 254 < eid) → ∃ t, exec (.mctpSetEndpointId source eid) s = .next t ∧ messageSent s t source 0 [1, 2])) ∧
   (∀ (s : State) (source : Nat), s.mgmtServed = true →
     (∃ t, exec (.mctpGetEndpointId source) s = .next t ∧ messageSent s t source 0 [2, 0, BitVec.ofNat 8 s.mgmt.eid, 0, 0]) ∧
     (∃ t, exec (.getMessageTypeSupport source) s = .next t ∧ messageSent s t source 0 [5, 0, 2, 0x05, 0x7E]) ∧
     (∃ (t : State) (a b : Byte), exec (.getVendorDefinedMessageSupport source 0) s = .next t ∧
       messageSent s t source 0 [6, 0, 0xFF, 0, BitVec.ofNat 8 (s.ident.vendorId / 256), BitVec.ofNat 8 s.ident.vendorId, a, b]) ∧
     (∀ n, n ≠ 0 → ∃ t, exec (.getVendorDefinedMessageSupport source n) s = .next t ∧ messageSent s t source 0 [6, 2]) ∧
     (∀ type, type ∈ [0xFF, 0x00, 0x05, 0x7E] → ∃ t v, exec (.getMctpVersionSupport source type) s = .next t ∧
       v.length = 4 ∧ messageSent s t source 0 ([4, 0, 1] ++ v)) ∧
     (∀ type, type ∉ [0xFF, 0x00, 0x05, 0x7E] → ∃ t, exec (.getMctpVersionSupport source type) s = .next t ∧
       messageSent s t source 0 [4, 0x80])) ∧
   (∀ (s : State) (source n : Nat), s.mgmtServed = false →
     exec (.mctpSetEndpointId source n) s = .next s ∧ exec (.mctpGetEndpointId source) s = .next s ∧
     exec (.getMessageTypeSupport source) s = .next s ∧ exec (.getVendorDefinedMessageSupport source n) s = .next s ∧
     exec (.getMctpVersionSupport source n) s = .next s)) ∧
  ((∀ (s : State) (source : Nat), s.mgmtServed = true →
     ∃ t, exec (.spdmGetVersion source) s = .next t ∧
       spdmSent { s with mgmt := { s.mgmt with spdmVersion := 0, spdmAlgorithms := false, spdmTranscript := [] } } t
         source 0x10 0x04 [0, 0, 0, 2, 0x00, 0x11, 0x00, 0x12]) ∧
   (∀ (s : State) (source v : Nat), s.mgmtServed = true →
     (v ∈ [0x11, 0x12] → ∃ t, exec (.spdmGetCapabilities source v) s = .next t ∧
       spdmSent { s with mgmt := { s.mgmt with spdmVersion := v } } t source v 0x61 [0, 0, 0, 0, 0, 0, 0x16, 0, 0, 0]) ∧
     (v ∉ [0x11, 0x12] → ∃ t, exec (.spdmGetCapabilities source v) s = .next t ∧ messageSent s t source 5 [0x11, 0x7F, 0x41, 0])) ∧
   (∀ (s : State) (source : Nat) (asym hash : W32), s.mgmtServed = true →
     (s.mgmt.spdmVersion = 0 → ∃ t, exec (.spdmNegotiateAlgorithms source asym hash) s = .next t ∧
       messageSent s t source 5 [0x11, 0x7F, 4, 0]) ∧
     (s.mgmt.spdmVersion ≠ 0 → (asym.getLsbD 7 && hash.getLsbD 1) = true →
       ∃ t, exec (.spdmNegotiateAlgorithms source asym hash) s = .next t ∧
         spdmSent { s with mgmt := { s.mgmt with spdmAlgorithms := true } } t source s.mgmt.spdmVersion 0x63
           ([0, 0] ++ natLe 2 36 ++ [1, 0] ++ natLe 4 4 ++ natLe 4 0x80 ++ natLe 4 2 ++ List.replicate 16 (0 : Byte))) ∧
     (s.mgmt.spdmVersion ≠ 0 → (asym.getLsbD 7 && hash.getLsbD 1) = false →
       ∃ t, exec (.spdmNegotiateAlgorithms source asym hash) s = .next t ∧ messageSent s t source 5 [0x11, 0x7F, 1, 0])) ∧
   (∀ (s : State) (source : Nat) (chain : Bytes), s.mgmtServed = true → s.mgmt.spdmAlgorithms = true →
     chain = Config.rootCertificate s.ident.b1 ++ Config.deviceCertificates →
     (∃ t, exec (.spdmGetDigests source) s = .next t ∧
       spdmSent s t source (spdmSpoken s) 0x01 ([0, 1] ++ padTo 48 (Sha.sha384 chain))) ∧
     (∀ off len part, off < chain.length → part = (chain.drop off).take len → ∃ t, exec (.spdmGetCertificate source 0 off len) s = .next t ∧
       spdmSent s t source (spdmSpoken s) 0x02 ([0, 0] ++ natLe 2 part.length ++ natLe 2 (chain.length - off - part.length) ++ part)) ∧
     (∀ slot off len, (slot ≠ 0 ∨ chain.length ≤ off) → ∃ t, exec (.spdmGetCertificate source slot off len) s = .next t ∧
       messageSent s t source 5 [0x11, 0x7F, 1, 0]) ∧
     (∀ nonce, spdmSigned (.spdmChallenge source 0 nonce) s source 0x03 [0, 1] (padTo 48 (Sha.sha384 chain)) nonce
       (padTo 48 (Sha.sha384 ([1, 2, 3, 4, 5].flatMap (measuredBlock s))) ++ [0, 0])) ∧
     (∀ slot nonce, slot ≠ 0 → ∃ t, exec (.spdmChallenge source slot nonce) s = .next t ∧ messageSent s t source 5 [0x11, 0x7F, 1, 0]) ∧
     (∀ i nonce, 1 ≤ i → i ≤ 5 → spdmSigned (.spdmGetMeasurements source i nonce) s source 0x60 [0, 0]
       ([1] ++ natLe 3 55 ++ measuredBlock s i) nonce [0, 0]) ∧
     (∀ nonce, spdmSigned (.spdmGetMeasurements source 0 nonce) s source 0x60 [5, 0] ([0] ++ natLe 3 0) nonce [0, 0]) ∧
     (∀ nonce, spdmSigned (.spdmGetMeasurements source 255 nonce) s source 0x60 [0, 0]
       ([5] ++ natLe 3 275 ++ [1, 2, 3, 4, 5].flatMap (measuredBlock s)) nonce [0, 0]) ∧
     (∀ i nonce, 6 ≤ i → i ≠ 255 → ∃ t, exec (.spdmGetMeasurements source i nonce) s = .next t ∧
       messageSent s t source 5 [0x11, 0x7F, 1, 0])) ∧
   (∀ (s : State) (source i off len : Nat) (nonce : Bytes), s.mgmtServed = true → s.mgmt.spdmAlgorithms = false →
     ∃ t, messageSent s t source 5 [0x11, 0x7F, 4, 0] ∧ exec (.spdmGetDigests source) s = .next t ∧
       exec (.spdmGetCertificate source i off len) s = .next t ∧ exec (.spdmChallenge source i nonce) s = .next t ∧
       exec (.spdmGetMeasurements source i nonce) s = .next t) ∧
   (∀ (s : State) (source i off len : Nat) (nonce : Bytes) (a h : W32), s.mgmtServed = false →
     exec (.spdmGetVersion source) s = .next s ∧ exec (.spdmGetCapabilities source i) s = .next s ∧
     exec (.spdmNegotiateAlgorithms source a h) s = .next s ∧ exec (.spdmGetDigests source) s = .next s ∧
     exec (.spdmGetCertificate source i off len) s = .next s ∧ exec (.spdmChallenge source i nonce) s = .next s ∧
     exec (.spdmGetMeasurements source i nonce) s = .next s))

/-- A transport by which vendor messages come: I2C, or a PCIe requester that the filter lists. -/
def viaMctp (s : State) (via : Mgmt) : Prop := (∃ a, via = .i2c a) ∨ ∃ r x, via = .vdm r x ∧ r ∈ s.mgmt.aclRequesters

/-- The reply kept for a command of a source: the same tag and the same bytes by their CRC-32C. -/
def keptFor (s : State) (via : Mgmt) (b : Bytes) : Option KeptReply :=
  s.mgmt.kept.find? (fun k => k.fabric == (mgmtSource via).1 && k.source == (mgmtSource via).2 && k.tag == chTag b && k.crc == crc32c b)

/-- A command of a management transport is in form and passes the checks of its header, or the status that it fails with. -/
def mgmtFails (s : State) (via : Mgmt) (b : Bytes) : Option Status :=
  if chLenOk b && b.length == 32 + chLen b then s.headerCheck (.mgmt via) b else some .cmdInvalid

/-- A command in bytes goes from a state: a repeated one draws its kept reply, one that fails draws a reply with the status, which is kept, and
enters nothing, any other is accepted as its issuer's. -/
def mgmtTaken (i : Instr) (s u : State) (via : Mgmt) (b : Bytes) : Prop :=
  (∀ k, keptFor u via b = some k → exec i s = .next (u.sendReply via k.reply)) ∧
  (keptFor u via b = none →
    (∀ st, mgmtFails u via b = some st → exec i s = .next (u.mgmtComplete via b st [] [])) ∧
    (mgmtFails u via b = none → exec i s = .next (u.accept (.mgmt via) b 0)))

/-- A vendor message by I2C or from a listed PCIe requester, and a MGMT packet of a node that the filter admits, carry
a command: one that repeats another whose reply is kept draws that reply; one that fails a check of its header draws a
reply with the status; any other is accepted. A reply leaves as the message or packet that it is and takes in no
command. A message of an unlisted PCIe requester is discarded and counted, one that is not the vendor's has no effect;
a MGMT packet that is not one whole command of an admitted node, or that comes while the transports are not served, is
discarded and counted (R536, R537, R554 to R557). Where the rules leave a point open here, it is the model's reading
(log 37). -/
def Obligations.ManagementCommandsAreChecked : Prop :=
  (∀ (s : State) (via : Mgmt) (msg : Bytes), s.mgmtServed = true → viaMctp s via →
    (35 ≤ msg.length → fld msg 0 3 = s.ident.vendorId / 256 % 256 + s.ident.vendorId % 256 * 256 + 2 ^ 16 →
      mgmtTaken (.mctpVendorCommand via msg) s s via (msg.drop 3)) ∧
    ((msg.length < 35 ∨ fld msg 0 3 ≠ s.ident.vendorId / 256 % 256 + s.ident.vendorId % 256 * 256 + 2 ^ 16) →
      exec (.mctpVendorCommand via msg) s = .next s)) ∧
  (∀ (s : State) (r x : Nat) (msg : Bytes), s.mgmtServed = true → r ∉ s.mgmt.aclRequesters →
    ∃ t, exec (.mctpVendorCommand (.vdm r x) msg) s = .next t ∧ counted s t) ∧
  (∀ (s : State) (via : Mgmt) (msg : Bytes), (s.mgmtServed = false ∨ ∃ n p, via = .fabric n p) →
    exec (.mctpVendorCommand via msg) s = .next s) ∧
  (∀ (s : State) (via : Mgmt) (r : Bytes), (∀ n p, via ≠ .fabric n p) → messageSent s (s.sendReply via r) (mgmtSource via).2 0x7E
    ([BitVec.ofNat 8 (s.ident.vendorId / 256), BitVec.ofNat 8 s.ident.vendorId, 2] ++ r)) ∧
  (∀ (s : State) (via : Mgmt) (b r : Bytes) (st : Status), (s.mgmtComplete via b st [] []).host.cmds = s.host.cmds ∧
    (s.sendReply via r).host.cmds = s.host.cmds) ∧
  (∀ (s : State) (i : Nat) (q : Inbound), s.taken i [0x20] = some q →
    ((s.mgmtServed = false ∨ q.pkt.payload.length < 32 ∨ 256 < q.pkt.payload.length ∨
        q.pkt.payload.length ≠ 32 + chLen q.pkt.payload ∨ Nat.land q.pkt.src s.mgmt.aclMask ≠ s.mgmt.aclMatch) →
      ∃ t, exec (.mgmt i) s = .next t ∧ counted (s.dropTaken i false) t) ∧
    (s.mgmtServed = true → 32 ≤ q.pkt.payload.length → q.pkt.payload.length ≤ 256 → q.pkt.payload.length = 32 + chLen q.pkt.payload →
      Nat.land q.pkt.src s.mgmt.aclMask = s.mgmt.aclMatch →
      mgmtTaken (.mgmt i) s (s.dropTaken i false) (.fabric q.pkt.src q.port) q.pkt.payload)) ∧
  (∀ (s : State) (i : Nat), s.taken i [0x20] = none → exec (.mgmt i) s = .next s)

/-! ### System time and PPS_IN -/

/-- A TIME packet of a KIND and an exchange, with the time in its T1, waits last in a port's queue behind what was there. -/
def timeQueued (before after : List OutPkt) (kinds : List (Nat × Nat × Nat)) : Prop :=
  ∃ l : List OutPkt, after = before ++ l ∧
    l.map (fun k => (k.pkt.type, k.pkt.payload.length, byteAt k.pkt.payload 0, fld k.pkt.payload 6 2, fld k.pkt.payload 8 8)) =
      kinds.map (fun k => (0x21, 48, k.1, k.2.1 % 2 ^ 16, k.2.2 % 2 ^ 64))

/-- Packets have joined the queue of one port: of its other fields only what it keeps of its depth may change, and no other port does. -/
def onlyQueue (p : Nat) (s t : State) (kinds : List (Nat × Nat × Nat)) : Prop :=
  timeQueued (s.port p).queue (t.port p).queue kinds ∧
  t.port p = { s.port p with queue := (t.port p).queue, depthHc := (t.port p).depthHc, depths := (t.port p).depths } ∧
  ∀ q, q ≠ p → t.port q = s.port q

/-- A time packet can leave by a port: it is UP and knows its partner. -/
def timeReaches (s : State) (p : Nat) : Prop := (s.port p).state = .up ∧ (s.port p).partner.isSome = true

/-- The commands that take a TIME packet, with the KIND that each takes. -/
def timeCommand (i : Nat) : List (Instr × Nat) :=
  [(.announce i, 1), (.timeSync i, 2), (.followUp i, 3), (.pdelayReq i, 4), (.pdelayResp i, 5), (.pdelayFollowUp i, 6)]

/-- Port q's offer b is no better than port p's offer a: by class, then node, then steps, then port (R620, R622). -/
def noBetter (p : Nat) (a : Announce) (q : Nat) (b : Announce) : Prop :=
  Source.better (b.cls, b.source, b.steps) (a.cls, a.source, a.steps) = false ∧
  (Source.better (a.cls, a.source, a.steps) (b.cls, b.source, b.steps) = false → a.steps < b.steps ∨ (a.steps = b.steps ∧ p ≤ q))

/-- An edge of PPS_IN lies 1 s ± 100 µs after the one before. -/
def ppsInTime (s : State) (last : Nat) : Prop :=
  secondUnits ≤ s.time - last + 100 * usUnits ∧ s.time - last ≤ secondUnits + 100 * usUnits

/-- SYNC goes by a port: the module holds time, the port is not the parent's, and its partner offers nothing or a worse source, or the
module has a master and no parent (R622). -/
def syncDue (s : State) (p : Nat) : Prop :=
  s.tk.held = true ∧ s.tk.parent ≠ some p ∧ ∀ a, FMap.find? s.tk.announces p = some a →
    Source.better s.offer (a.cls, a.source, a.steps) = true ∨ (s.tk.parent = none ∧ s.tk.ownMaster = true)

/-- TIME packets in: a released TIME packet of 48 bytes is taken by the command of its KIND, one of another length or
of a reserved KIND is discarded, and a command that finds none has no effect. ANNOUNCE keeps what the partner of a
port offers, and a class beyond 1 to 3 takes its offer away; SYNC keeps its number and receive stamp; a FOLLOW_UP of
the parent's SYNC gives the servo an offset, 16 in a row within 100 ns make the module hold time, and the rate word
stays within ±200 ppm, and any other FOLLOW_UP ends its exchange only; PDELAY_REQ is answered with its receive stamp
and then the answer's, where the port is UP; the exchange's four stamps give the link's delay (R619 to R623; how far
the servo steps is a free value, log 22). The parent port is the one whose partner offers the best source of another
node, where that ranks before the module's own, and no port else. A module without a parent takes a 1588 master's time
and holds it, with a valid PPS_IN the second only; another frame has no effect. ANNOUNCE and a peer-delay request
leave by a port that is UP, and SYNC with FOLLOW_UP by one whose partner offers a worse source; a parent silent for 3
s is given up; holdover ends after 600 s and with it the holding of time; an edge of PPS_IN 1 s ± 100 µs after the one
before is accepted, and the third makes PPS_IN valid and, with a master and no parent, sets the phase; any other edge
sets every function's rejection flag and makes PPS_IN invalid, as do 1.2 s without an accepted edge (R620, R622, R623,
R646, R660). Where the rules leave a point open here, it is the model's reading (log 57). -/
def Obligations.TimeIsSetAndPicked : Prop :=
  ((∀ (s : State) (i : Nat), ∀ ck ∈ timeCommand i,
     (s.taken i [0x21] = none → exec ck.1 s = .next s) ∧
     ∀ q, s.taken i [0x21] = some q →
       ((q.pkt.payload.length ≠ 48 ∨ byteAt q.pkt.payload 0 = 0 ∨ 6 < byteAt q.pkt.payload 0 ∨ 24 ≤ q.port) →
         exec ck.1 s = .next (s.dropTaken i false)) ∧
       (q.pkt.payload.length = 48 → byteAt q.pkt.payload 0 ≠ 0 → byteAt q.pkt.payload 0 ≤ 6 → q.port < 24 →
         (byteAt q.pkt.payload 0 = ck.2 → s.takeTime i ck.2 = (s.dropTaken i false, some q)) ∧
         (byteAt q.pkt.payload 0 ≠ ck.2 → exec ck.1 s = .next s))) ∧
   (∀ (s u : State) (i : Nat) (q : Inbound), s.takeTime i 1 = (u, some q) →
     ∃ t, exec (.announce i) s = .next t ∧ t = { u with tk := { u.tk with announces := t.tk.announces } }.chooseParent ∧
       (1 ≤ byteAt q.pkt.payload 1 → byteAt q.pkt.payload 1 ≤ 3 → FMap.find? t.tk.announces q.port =
         some { cls := byteAt q.pkt.payload 1, source := fld q.pkt.payload 2 2, steps := fld q.pkt.payload 4 2, at_ := u.time }) ∧
       ((byteAt q.pkt.payload 1 = 0 ∨ 3 < byteAt q.pkt.payload 1) → FMap.find? t.tk.announces q.port = none) ∧
       ∀ p, p ≠ q.port → FMap.find? t.tk.announces p = FMap.find? u.tk.announces p) ∧
   (∀ (s u : State) (i : Nat) (q : Inbound), s.takeTime i 2 = (u, some q) →
     ∃ t, exec (.timeSync i) s = .next t ∧ t = { u with tk := { u.tk with syncs := t.tk.syncs } } ∧
       FMap.find? t.tk.syncs q.port = some (fld q.pkt.payload 6 2, q.at_) ∧
       ∀ p, p ≠ q.port → FMap.find? t.tk.syncs p = FMap.find? u.tk.syncs p) ∧
   (∀ (s u : State) (i : Nat) (q : Inbound), s.takeTime i 3 = (u, some q) →
     (FMap.find? u.tk.syncs q.port = none → exec (.followUp i) s = .next u) ∧
     ∀ id at_, FMap.find? u.tk.syncs q.port = some (id, at_) →
       ((id ≠ fld q.pkt.payload 6 2 ∨ u.tk.parent ≠ some q.port) →
         exec (.followUp i) s = .next { u with tk := { u.tk with syncs := FMap.erase u.tk.syncs q.port } }) ∧
       (id = fld q.pkt.payload 6 2 → u.tk.parent = some q.port →
         ∃ t, exec (.followUp i) s = .next t ∧
           t = { u with free := u.free + 1
                        tk := { u.tk with syncs := FMap.erase u.tk.syncs q.port, base := t.tk.base, baseAt := u.time
                                          ratePpb := t.tk.ratePpb, good := t.tk.good, held := t.tk.held } } ∧
           -200000 ≤ t.tk.ratePpb ∧ t.tk.ratePpb ≤ 200000 ∧
           let o := u.sysAt at_ - (Int.ofNat (fld q.pkt.payload 8 8) + tpCorr q.pkt.payload + FMap.get 0 u.tk.linkDelay q.port)
           (-100 ≤ o → o ≤ 100 → t.tk.good = u.tk.good + 1) ∧ ((o < -100 ∨ 100 < o) → t.tk.good = 0) ∧
           t.tk.held = (u.tk.held || decide (16 ≤ t.tk.good)))) ∧
   (∀ (s u : State) (i : Nat) (q : Inbound), s.takeTime i 4 = (u, some q) →
     ∃ t, exec (.pdelayReq i) s = .next t ∧ t = { u with fab := { u.fab with ports := t.fab.ports } } ∧
       (timeReaches u q.port → onlyQueue q.port u t
         [(5, fld q.pkt.payload 6 2, (u.sysAt q.at_).toNat), (6, fld q.pkt.payload 6 2, (u.sysAt u.time).toNat)]) ∧
       (¬ timeReaches u q.port → onlyQueue q.port u t [])) ∧
   (∀ (s u : State) (i : Nat) (q : Inbound), s.takeTime i 5 = (u, some q) →
     (∀ x, FMap.find? u.tk.pdelays q.port = some x → x.id = fld q.pkt.payload 6 2 →
       ∃ t, exec (.pdelayResp i) s = .next t ∧ t = { u with tk := { u.tk with pdelays := t.tk.pdelays } } ∧
         FMap.find? t.tk.pdelays q.port = some { x with t2 := some (fld q.pkt.payload 8 8), t4 := (u.sysAt q.at_).toNat } ∧
         ∀ p, p ≠ q.port → FMap.find? t.tk.pdelays p = FMap.find? u.tk.pdelays p) ∧
     ((∀ x, FMap.find? u.tk.pdelays q.port = some x → x.id ≠ fld q.pkt.payload 6 2) → exec (.pdelayResp i) s = .next u)) ∧
   (∀ (s u : State) (i : Nat) (q : Inbound), s.takeTime i 6 = (u, some q) →
     (∀ x t2, FMap.find? u.tk.pdelays q.port = some x → x.id = fld q.pkt.payload 6 2 → x.t2 = some t2 →
       ∃ t, exec (.pdelayFollowUp i) s = .next t ∧
         t = { u with tk := { u.tk with pdelays := t.tk.pdelays, linkDelay := t.tk.linkDelay } } ∧
         FMap.find? t.tk.pdelays q.port = none ∧
         (∀ p, p ≠ q.port → FMap.find? t.tk.pdelays p = FMap.find? u.tk.pdelays p) ∧
         FMap.get 0 t.tk.linkDelay q.port = ((Int.ofNat x.t4 - Int.ofNat x.t1) -
           (Int.ofNat (fld q.pkt.payload 8 8) - Int.ofNat t2) - tpCorr q.pkt.payload) / 2 ∧
         ∀ p, p ≠ q.port → FMap.get 0 t.tk.linkDelay p = FMap.get 0 u.tk.linkDelay p) ∧
     ((∀ x, FMap.find? u.tk.pdelays q.port = some x → x.id ≠ fld q.pkt.payload 6 2 ∨ x.t2 = none) →
       exec (.pdelayFollowUp i) s = .next u))) ∧
  ((∀ (s : State), s.chooseParent = { s with tk := { s.tk with
       parent := s.chooseParent.tk.parent
       good := if s.chooseParent.tk.parent = s.tk.parent then s.tk.good else 0
       holdover := s.tk.held && s.chooseParent.tk.parent.isNone && !s.tk.ownMaster } } ∧
     (∀ p, s.chooseParent.tk.parent = some p → ∃ a, (p, a) ∈ s.tk.announces ∧ a.source ≠ s.fab.node ∧
       Source.better (a.cls, a.source, a.steps) s.ownSource = true ∧
       ∀ q b, (q, b) ∈ s.tk.announces → b.source ≠ s.fab.node → noBetter p a q b) ∧
     (s.chooseParent.tk.parent = none → ∀ q b, (q, b) ∈ s.tk.announces → b.source ≠ s.fab.node →
       Source.better (b.cls, b.source, b.steps) s.ownSource = false)) ∧
   (∀ (s u : State) (f : Bytes) (now : Nat), s.mod.refereeRuns = true → (f.drop 12).take 2 = [0x88, 0xF7] →
     u = { s with tk := { s.tk with ownMaster := true } }.chooseParent →
     (u.tk.parent.isSome = true → exec (.ptpFrame f now) s = .next u) ∧
     (u.tk.parent = none → ∀ v : Int,
       v = (if s.tk.ppsValid then s.sysAt s.time + nearestSecond (Int.ofNat now - s.sysAt s.time) else Int.ofNat now) →
       exec (.ptpFrame f now) s = .next { u with tk := { u.tk with
         base := v.toNat, baseAt := s.time, ratePpb := max (-200000) (min 200000 s.tk.ratePpb), held := true } })) ∧
   (∀ (s : State) (f : Bytes) (now : Nat), (s.mod.refereeRuns = false ∨ (f.drop 12).take 2 ≠ [0x88, 0xF7]) →
     exec (.ptpFrame f now) s = .next s) ∧
   (∀ (s : State) (p : Nat), p < 24 → (s.port p).state = .up →
     (∃ t, exec (.announceSend p) s = .next t ∧
       t = { s with fab := { s.fab with ports := t.fab.ports }
                    tk := { s.tk with nextId := (s.tk.nextId + 1) % 65536, pdelays := t.tk.pdelays } } ∧
       t.tk.pdelays = FMap.insert s.tk.pdelays p { id := s.tk.nextId, t1 := (s.sysAt s.time).toNat, t2 := none, t4 := 0 } ∧
       onlyQueue p s t (if (s.port p).partner.isSome then [(1, s.tk.nextId, 0), (4, s.tk.nextId, 0)] else [])) ∧
     (syncDue s p → ∃ t, exec (.syncSend p) s = .next t ∧
       t = { s with fab := { s.fab with ports := t.fab.ports }, tk := { s.tk with nextId := (s.tk.nextId + 1) % 65536 } } ∧
       onlyQueue p s t (if (s.port p).partner.isSome then [(2, s.tk.nextId, 0), (3, s.tk.nextId, (s.sysAt s.time).toNat)] else []))) ∧
   (∀ (s : State) (p : Nat), ((24 ≤ p ∨ (s.port p).state ≠ .up) → exec (.announceSend p) s = .next s) ∧
     ((24 ≤ p ∨ (s.port p).state ≠ .up ∨ ¬ syncDue s p) → exec (.syncSend p) s = .next s)) ∧
   (∀ (s : State) (p : Nat), s.tk.parent = some p →
     exec .parentAnnounceTimeout s = .next { s with tk := { s.tk with announces := FMap.erase s.tk.announces p } }.chooseParent) ∧
   (∀ s : State, s.tk.parent = none → exec .parentAnnounceTimeout s = .next s) ∧
   (∀ s : State, s.tk.holdover = true →
     exec .holdoverExpiry s = .next { s with tk := { s.tk with held := false, holdover := false, good := 0 } }) ∧
   (∀ s : State, s.tk.holdover = false → exec .holdoverExpiry s = .next s) ∧
   (∀ (s u : State) (last : Nat), s.mod.refereeRuns = true → s.tk.ppsLast = some last → ppsInTime s last →
     u = { s with tk := { s.tk with ppsLast := some s.time, ppsGood := s.tk.ppsGood + 1
                                    ppsValid := s.tk.ppsValid || decide (3 ≤ s.tk.ppsGood + 1) } }.chooseParent →
     ((u.tk.ppsValid = true ∧ u.tk.ownMaster = true ∧ u.tk.parent = none) →
       exec .ppsInEdge s = .next { u with tk := { u.tk with
         base := (nearestSecond (s.sysAt s.time)).toNat, baseAt := s.time, ratePpb := max (-200000) (min 200000 s.tk.ratePpb) } }) ∧
     ((u.tk.ppsValid = false ∨ u.tk.ownMaster = false ∨ u.tk.parent ≠ none) → exec .ppsInEdge s = .next u)) ∧
   (∀ s : State, s.mod.refereeRuns = true → (∀ last, s.tk.ppsLast = some last → ¬ ppsInTime s last) →
     ∃ t, exec .ppsInEdge s = .next t ∧
       t = { s with tk := { s.tk with ppsLast := some s.time, ppsGood := 0, ppsValid := false, parent := t.tk.parent
                                      good := t.tk.good, holdover := t.tk.holdover }
                    host := { s.host with functions := t.host.functions } } ∧
       (∀ n, n < 64 → s.fnPresent n = true → t.fn n = { s.fn n with ppsReject := true, setAt := FMap.insert (s.fn n).setAt 8 s.hcNow }) ∧
       ∀ n, (64 ≤ n ∨ s.fnPresent n = false) → t.fn n = s.fn n) ∧
   (∀ s : State, s.mod.refereeRuns = false → exec .ppsInEdge s = .next s) ∧
   (∀ s : State, exec .ppsTimeout s = .next { s with tk := { s.tk with ppsValid := false, ppsGood := 0 } }.chooseParent))

/-! ### Tiles: contexts, descriptors, signals, barriers -/

/-- A tile is as before but for its contexts and what its banks' arbiter holds. -/
def tileKept (x y : Tile) : Prop := { y with ctxs := [] }.quiet = { x with ctxs := [] }.quiet

/-- One context of one tile has become y; every other context, and the rest of every tile, is as before. -/
def ctxIs (s t : State) (T c : Nat) (y : Ctx) : Prop :=
  t.ctx T c = y ∧ (∀ T' c', (T', c') ≠ (T, c) → t.ctx T' c' = s.ctx T' c') ∧ ∀ T', tileKept (s.tile T') (t.tile T')

/-- The effect of a context's descriptor is made. -/
def ctxMade (s t : State) (T c : Nat) (e : Exec) : Prop := ctxIs s t T c { s.ctx T c with cur := some { e with done := true } }

/-- A context after its descriptor: FREE after END, else FETCHING or READY, with the state that it still has in this tc. -/
def ctxAfter (x : Ctx) (e : Exec) (held : Option (Nat × CtxState)) : Ctx :=
  if dEnd e.desc then {} else { x with cur := none, pending := 0, state := if x.buffer.isEmpty then .fetching else .ready, held := held }

/-- A context's descriptor has completed (R78, R116, R123): the context goes on, and the signal of its descriptor is on its way; STREAM
and ROUTE have theirs made elsewhere. -/
def ctxCompleted (s t : State) (T c : Nat) (e : Exec) (held : Option (Nat × CtxState)) : Prop :=
  let x := s.ctx T c
  aside { s with tiles := t.tiles, sync := { s.sync with signals := t.sync.signals } } t ∧
  ctxIs s t T c (ctxAfter x e held) ∧
  (dSig e.desc = true → dType e.desc ≠ 6 → dType e.desc ≠ 9 → ∀ q g, s.seat? x.seat = some q →
    crefTarget q (s.view x.seat T) (dSigRef e.desc) = some g →
    t.sync.signals = s.sync.signals ++ [{ seat := x.seat, target := g, isSet := false, value := BitVec.ofNat 32 (dSigVal e.desc),
                                          tile := s.view x.seat T, ctx := c, parks := false }]) ∧
  ((dSig e.desc = false ∨ dType e.desc = 6 ∨ dType e.desc = 9) → t.sync.signals = s.sync.signals)

/-- A context's descriptor has ended with an error status (R119, R166, R168): FAULTED, its slots wasted, the first status of its
turn kept; the fault record goes to the seat's ring. -/
def ctxFaulted (s t : State) (T c : Nat) (st : Status) (detail : Nat) : Prop :=
  (∃ z, counted s z ∧ t = z.faultCtx T c st detail) ∧
  ctxIs s t T c { s.ctx T c with state := .faulted, pending := 0 } ∧
  ∀ q, s.seat? (s.ctx T c).seat = some q → ∃ (y : Seat), t.seat? (s.ctx T c).seat = some y ∧ y.facts.failed = true ∧
    y.facts.firstStatus = q.facts.firstStatus.orElse (fun _ => some st) ∧ y.record = q.record ∧ y.state = q.state

/-- The state in which a tile's issue stage chooses: a tc of the banks has passed, the waits that are over have ended, and the tc is
counted. -/
def choosing (s : State) (T n : Nat) : State :=
  let u := ((s.tileArb T).clusterArb (T / 8)).endWaits T
  let u := u.setTile T { u.tile T with stepTc := some (s.time / tcUnits) }
  u.tcCounts n T (s.view n T) (u.tile T)

/-- What an issued step leaves of seats: the times of the first step of a kernel and a turn, and whether a GMM of the turn steals, of its own
seat; nothing of another seat. -/
def seatsStepped (n : Nat) (u t : State) : Prop := ∀ k x, u.seat? k = some x → ∃ (y : Seat), t.seat? k = some y ∧
  (k ≠ n → y.quiet = x.quiet) ∧
  (k = n → y.quiet = { x.quiet with
    running := x.quiet.running.map (fun r => { r with first := r.first.orElse (fun _ => some u.time) })
    facts := { x.facts with start := x.facts.start.orElse (fun _ => some u.time), steal := y.facts.steal } })

/-- A step of the descriptor in execution e issues on tile T, its context's buffer becoming `rest` (R79 to R83, R86, R94, R103). -/
def stepIssues (u t : State) (T c n : Nat) (v : DescEnv) (e : Exec) (rest : List (Nat × Bytes)) : Prop :=
  let now := u.time / tcUnits
  let more := decide (e.issued + 1 < e.total)
  let waits := dType e.desc == 8 || (dType e.desc == 7 && syOp e.desc == 1)
  let parks := !more && !waits && u.isRemote v e.desc
  let ways := if dType e.desc = 5 then u.copyWays v e.desc else (false, false)
  t.ctx T c = { u.ctx T c with
    buffer := rest
    cur := some { e with issued := e.issued + 1, since := if !more && waits then u.time else e.since
                         order := if parks then (u.tile T).nextOrder else e.order
                         inbound := if parks then ways.1 else e.inbound
                         outbound := if parks then ways.2 else e.outbound }
    pending := (u.ctx T c).pending + 1
    state := if more then .ready else if waits then .waiting else if parks then .parked else .ready
    held := some (now, .issuing) } ∧
  (∀ T' c', (T', c') ≠ (T, c) → t.ctx T' c' = u.ctx T' c') ∧
  (t.tile T).quiet = { u.tile T with
    ctxs := (t.tile T).ctxs, last := c, lastTc := some now
    arrayFree := if dType e.desc = 1 then now + u.matmulTc v.base e.desc e.issued else (u.tile T).arrayFree
    vecFree := if dType e.desc = 3 then now + vecStepTc e.desc e.issued
               else if dType e.desc = 4 then now + State.issueOn.reduceStepTc e.desc e.issued else (u.tile T).vecFree
    nextOrder := if parks then (u.tile T).nextOrder + 1 else (u.tile T).nextOrder }.quiet ∧
  (∀ T', T' ≠ T → (t.tile T').quiet = (u.tile T').quiet) ∧
  aside { u with tiles := t.tiles, seats := t.seats } t ∧ seatsStepped n u t

/-- A step of a GMM issues: of those planned, or the first of its next unit; a fetch that leaves the store parks the context, and a pass
holds the array (R76, R77, R81, R84, R103, R676). -/
def gmmStepIssues (u t : State) (T c n : Nat) (v : DescEnv) (e : Exec) (g : GmmRun) (st : GStep) (rest : List (Nat × Bytes)) : Prop :=
  let now := u.time / tcUnits
  let parks := st.op.fetches && (g.run? st.run).any (fun r => u.fetchRemote v r st.op)
  t.ctx T c = { u.ctx T c with
    buffer := rest
    cur := some { e with issued := e.issued + 1, gmm := some (g.take st), order := if parks then (u.tile T).nextOrder else e.order }
    pending := (u.ctx T c).pending + 1
    state := if parks then .parked else .ready
    held := some (now, .issuing) } ∧
  (∀ T' c', (T', c') ≠ (T, c) → t.ctx T' c' = u.ctx T' c') ∧
  (t.tile T).quiet = { u.tile T with
    ctxs := (t.tile T).ctxs, last := c, lastTc := some now
    arrayFree := match g.run? st.run with
      | some r => if st.op.fetches then (u.tile T).arrayFree else now + unitTc r st.op
      | none => (u.tile T).arrayFree
    nextOrder := if parks then (u.tile T).nextOrder + 1 else (u.tile T).nextOrder }.quiet ∧
  (∀ T', T' ≠ T → (t.tile T').quiet = (u.tile T').quiet) ∧
  aside { u with tiles := t.tiles, seats := t.seats } t ∧ seatsStepped n u t

/-- The next descriptor of a context has been chosen. -/
def nextTaken (u : State) (T c : Nat) (e : Exec) (rest : List (Nat × Bytes)) : State :=
  (u.setTile T { u.tile T with last := c, lastTc := some (u.time / tcUnits) }).setCtx T c { u.ctx T c with buffer := rest, cur := some e }

/-- A fetch lands the next descriptor of a tile's stream behind those it holds, up to four, of a cluster's stream the
next four where it holds none, and a FETCHING context becomes READY; nothing is fetched beyond END, or for a context
that is FREE or FAULTED (R79, R116, R117). The issue stage makes one choice in a tc, after the waits that are over
have ended: it checks the chosen context's next descriptor, which ends with the status of a check that fails, or
issues its first step or a further step of the one in execution; the step's context is ISSUING, and READY, WAITING or,
at its remote access, PARKED afterwards; with no READY context only counters move (R80 to R83, R103, R119, R592,
R593). A descriptor whose effect is made and whose steps have all issued completes, a GMM once nothing is left to run,
land, write or take, a WAIT once it is over; until then nothing happens. A PARKED context goes on when its access has
landed, still PARKED in this tc: to its next descriptor, or to the next step of its GMM; one whose access does not
come back ends FAULTED with TIMEOUT, and what it asked for does not land (R78, R81, R82, R114, R131, R194, R676).
Where the rules leave a point open here, it is the model's reading (log 23, log 60). -/
def Obligations.ContextsFetchIssueAndComplete : Prop :=
  ((∀ (s : State) (T c : Nat) (x : Ctx), x = s.ctx T c → x.state ≠ .free → x.state ≠ .faulted → x.inCluster = false →
     x.ended = false → x.buffer.length < 4 →
     (∀ a, s.streamPhys T x x.next 64 = some a → ∃ t, exec (.descriptorFetchLand T c) s = .next t ∧ t = { s with tiles := t.tiles } ∧
       ctxIs s t T c { x with
         buffer := x.buffer ++ [(streamAddr s T x x.next, s.bytes a 64)]
         next := x.next + 64
         ended := dEnd (s.bytes a 64)
         state := if x.state = .fetching then .ready else x.state }) ∧
     (s.streamPhys T x x.next 64 = none → x.buffer = [] → exec (.descriptorFetchLand T c) s = .next s)) ∧
   (∀ (s : State) (T c b : Nat) (x : Ctx), x = s.ctx T c → x.state ≠ .free → x.state ≠ .faulted → x.inCluster = true →
     x.ended = false → x.buffer = [] → s.clusterPhys (T / 8) = some b → x.next + 256 ≤ clusterBytes →
     ∃ t k, exec (.descriptorFetchLand T c) s = .next t ∧ t = { s with tiles := t.tiles } ∧ 1 ≤ k ∧ k ≤ 4 ∧
       (∀ i, i + 1 < k → dEnd (s.bytes (b + x.next + 64 * i) 64) = false) ∧
       (k < 4 → dEnd (s.bytes (b + x.next + 64 * (k - 1)) 64) = true) ∧
       ctxIs s t T c { x with
         buffer := (List.range k).map (fun i => (streamAddr s T x (x.next + 64 * i), s.bytes (b + x.next + 64 * i) 64))
         next := x.next + 64 * k
         ended := dEnd (s.bytes (b + x.next + 64 * (k - 1)) 64)
         state := if x.state = .fetching then .ready else x.state }) ∧
   (∀ (s : State) (T c : Nat), ((s.ctx T c).state = .free ∨ (s.ctx T c).state = .faulted ∨
       ((s.ctx T c).state ≠ .fetching ∧ ((s.ctx T c).ended = true ∨ 4 ≤ (s.ctx T c).buffer.length ∨
         ((s.ctx T c).inCluster = true ∧ (s.ctx T c).buffer ≠ [])))) →
     exec (.descriptorFetchLand T c) s = .next s) ∧
   (∀ (s : State) (T n : Nat) (q : Seat), s.tileSeat T = some (n, q) →
     ((∀ c e, (s.ctx T c).cur = some e → dType e.desc = 7 → s.waitOver (s.ctx T c) (s.view (s.ctx T c).seat T) e = false) →
       aside (s.setTile T { s.tile T with stepTc := some (s.time / tcUnits) }) (choosing s T n)) ∧
     (∀ c e, (s.ctx T c).cur = some e → dType e.desc = 7 → s.waitOver (s.ctx T c) (s.view (s.ctx T c).seat T) e = true →
       (choosing s T n).ctx T c = ctxAfter (s.ctx T c) e (s.ctx T c).held)) ∧
   (∀ (s u : State) (T n : Nat) (q : Seat), s.tileSeat T = some (n, q) → (s.tile T).stepTc ≠ some (s.time / tcUnits) →
     u = choosing s T n →
     (issueChoice (u.tile T) (s.time / tcUnits) = none → ∃ t, exec (.issueStep T) s = .next t ∧ aside u t) ∧
     (∀ c, issueChoice (u.tile T) (s.time / tcUnits) = some c →
       (∀ a d rest (e : Exec), (u.ctx T c).cur = none → (u.ctx T c).buffer = (a, d) :: rest →
         e = { addr := a, desc := d, total := stepsOf d, issued := 0, done := false, since := s.time, gmm := none } →
         (u.descEnv T c d = none → ∃ t, exec (.issueStep T) s = .next t ∧ ctxFaulted (nextTaken u T c e rest) t T c .tilesUnavailable 0) ∧
         (∀ v, u.descEnv T c d = some v →
           (∀ st detail, checkDesc u v d = some (st, detail) →
             ∃ t, exec (.issueStep T) s = .next t ∧ ctxFaulted (nextTaken u T c e rest) t T c st detail) ∧
           (checkDesc u v d = none → dType d ≠ 2 → ∃ t, exec (.issueStep T) s = .next t ∧ stepIssues u t T c n v e rest) ∧
           (checkDesc u v d = none → dType d = 2 → ∀ g g' : GmmRun, g = u.gmmStart v d →
             g' = (if g.next.isNone then u.beginNext v d g else g) →
             (∀ st detail, g.units = [] → g.todo = [] → g.ending = some (st, detail) →
               ∃ t, exec (.issueStep T) s = .next t ∧ (t.ctx T c).state = .faulted ∧
                 t.ctx T c = { (nextTaken u T c e rest).ctx T c with state := .faulted, pending := 0 }) ∧
             (∀ st, (g.units ≠ [] ∨ g.todo ≠ [] ∨ g.ending = none) → g'.next = some st →
               ∃ t, exec (.issueStep T) s = .next t ∧ gmmStepIssues u t T c n v e g' st rest)))) ∧
       (∀ e, (u.ctx T c).cur = some e →
         (u.descEnv T c e.desc = none → ∃ t, exec (.issueStep T) s = .next t ∧
           aside (u.setTile T { u.tile T with last := c, lastTc := some (s.time / tcUnits) }) t) ∧
         (∀ v, u.descEnv T c e.desc = some v →
           (e.gmm = none → ∃ t, exec (.issueStep T) s = .next t ∧ stepIssues u t T c n v e (u.ctx T c).buffer) ∧
           (∀ g g', e.gmm = some g → g' = (if g.next.isNone then u.beginNext v e.desc g else g) →
             (∀ st, g'.next = some st → ∃ t, exec (.issueStep T) s = .next t ∧ gmmStepIssues u t T c n v e g' st (u.ctx T c).buffer) ∧
             (g'.next = none → exec (.issueStep T) s =
               .next ((u.setTile T { u.tile T with last := c, lastTc := some (s.time / tcUnits) }).gmmSettle T c g'))))))) ∧
   (∀ (s : State) (T : Nat), (s.tileSeat T = none ∨ (s.tile T).stepTc = some (s.time / tcUnits)) → exec (.issueStep T) s = .next s)) ∧
  ((∀ (s : State) (T c : Nat) (e : Exec) (x : Ctx), x = s.ctx T c → x.cur = some e → x.state ≠ .faulted → x.state ≠ .parked →
     ((dType e.desc = 7 ∧ syOp e.desc = 1) →
       (s.waitOver x (s.view x.seat T) e = true → ∃ t, exec (.descriptorComplete T c) s = .next t ∧ ctxCompleted s t T c e x.held) ∧
       (s.waitOver x (s.view x.seat T) e = false → exec (.descriptorComplete T c) s = .next s)) ∧
     (dType e.desc = 8 → exec (.descriptorComplete T c) s = .next s) ∧
     (dType e.desc ≠ 8 → (dType e.desc = 7 → syOp e.desc ≠ 1) →
       (e.gmm = none → e.done = true → e.total ≤ e.issued →
         ∃ t, exec (.descriptorComplete T c) s = .next t ∧ ctxCompleted s t T c e x.held) ∧
       (e.gmm = none → (e.done = false ∨ e.issued < e.total) → exec (.descriptorComplete T c) s = .next s) ∧
       (∀ g, e.gmm = some g →
         (g.over = true → g.ending = none → (gmSteal e.desc = true → s.victim T x.seat (gmGt e.desc) = none) →
           ∃ t, exec (.descriptorComplete T c) s = .next t ∧ ctxCompleted s t T c e x.held) ∧
         ((g.over = false ∨ g.ending ≠ none ∨ (gmSteal e.desc = true ∧ s.victim T x.seat (gmGt e.desc) ≠ none)) →
           exec (.descriptorComplete T c) s = .next s)))) ∧
   (∀ (s : State) (T c : Nat), ((s.ctx T c).cur = none ∨ (s.ctx T c).state = .faulted ∨ (s.ctx T c).state = .parked) →
     exec (.descriptorComplete T c) s = .next s) ∧
   (∀ (s : State) (T c : Nat) (e : Exec) (x : Ctx) (now : Nat), x = s.ctx T c → x.cur = some e → x.state = .parked →
     now = s.time / tcUnits →
     (e.gmm = none → e.done = true → ∃ t, exec (.remoteAccessComplete T c) s = .next t ∧ ctxCompleted s t T c e (some (now, .parked))) ∧
     (e.gmm = none → e.done = false → exec (.remoteAccessComplete T c) s = .next s) ∧
     (∀ g, e.gmm = some g → (∀ y ∈ g.flight, y.op.fetches = false) → ∃ t, exec (.remoteAccessComplete T c) s = .next t ∧
       t = { s with tiles := t.tiles } ∧ ctxIs s t T c { x with state := .ready, held := some (now, .parked) }) ∧
     (∀ g, e.gmm = some g → (∃ y ∈ g.flight, y.op.fetches = true) → exec (.remoteAccessComplete T c) s = .next s) ∧
     (((e.gmm = none ∧ e.done = false ∧ dType e.desc ≠ 4) ∨ ∃ g, e.gmm = some g ∧ ∃ y ∈ g.flight, y.op.fetches = true) →
       ∃ t, exec (.remoteAccessTimeout T c) s = .next t ∧ ctxFaulted { s with ni := { s.ni with
         requests := s.ni.requests.filter (fun kr => !decide (kr.2.owner = Owner.ctx T c)) } } t T c .timeout 0) ∧
     (((e.gmm = none ∧ (e.done = true ∨ dType e.desc = 4)) ∨ ∃ g, e.gmm = some g ∧ ∀ y ∈ g.flight, y.op.fetches = false) →
       exec (.remoteAccessTimeout T c) s = .next s)) ∧
   (∀ (s : State) (T c : Nat), ((s.ctx T c).cur = none ∨ (s.ctx T c).state ≠ .parked) →
     exec (.remoteAccessComplete T c) s = .next s ∧ exec (.remoteAccessTimeout T c) s = .next s))

/-- A context's descriptor of a type has its effect made, or ends with an error status, by the outcome of its work. -/
def workSettles (i : Instr) (s : State) (T c : Nat) (o : DescOut) : Prop :=
  (o.err = none → exec i s = .next (o.s.markDone T c)) ∧
  (∀ st detail, o.err = some (st, detail) → exec i s = .next (o.s.faultCtx T c st detail))

/-- The engines carry out the descriptors in execution: MATMUL and VEC write in their own tile's store only, and
MATMUL leaves its sums in the tile's accumulators; an integer VEC writes x + y, x - y, x · y, x AND y, x OR y, x XOR y
word by word (R145, R146); the oldest step in flight of a GMM has its effect: a fetch lands in STAGE, a pass forms the
sums of segments, and a unit that is merged writes its output rows and no others (R141, R186, R676); a COPY of one
piece in the package makes its destination equal its source and writes nothing else, and one from or to another node
asks for its data or sends it in aligned lines, once the earlier accesses of the tile in its directions have landed
(R103, R152, R153, R369). Each then has its effect made, or faults its context with the status of its error. A row for
a context without such a descriptor in execution has no effect. Where the rules leave a point open here, it is the
model's reading (log 23, log 24, log 25, log 66). -/
def Obligations.EnginesCarryOutDescriptors : Prop :=
  (∀ (s : State) (T c : Nat), (s.inExec T c 1 = none → exec (.matmul T c) s = .next s) ∧
    (s.inExec T c 3 = none → exec (.vec T c) s = .next s) ∧ (s.inExec T c 5 = none → exec (.copy T c) s = .next s)) ∧
  (∀ (s : State) (T c : Nat) (v : DescEnv) (e : Exec), s.inExec T c 1 = some (v, e) →
    workSettles (.matmul T c) s T c (s.runMatmul v e.desc) ∧
    (checkMatmul s.ident.b1 e.desc = none → (s.runMatmul v e.desc).err = none →
      ∃ t, exec (.matmul T c) s = .next t ∧ aside { s with mem := t.mem, poison := t.poison, tiles := t.tiles } t ∧
        t.ctx T c = { s.ctx T c with cur := some { e with done := true } } ∧
        (∀ T' c', (T', c') ≠ (T, c) → t.ctx T' c' = s.ctx T' c') ∧
        (∀ T', T' ≠ v.ltile → T' ≠ T → (t.tile T').quiet = (s.tile T').quiet) ∧
        ∀ a, (a < v.base ∨ v.base + tileBytes ≤ a) → t.byte a = s.byte a)) ∧
  (∀ (s : State) (T c : Nat) (v : DescEnv) (e : Exec), s.inExec T c 3 = some (v, e) →
    workSettles (.vec T c) s T c (s.runVec v e.desc) ∧
    (checkVec s.ident.b1 e.desc = none → (s.runVec v e.desc).err = none →
      ∃ t, exec (.vec T c) s = .next t ∧ aside { s with mem := t.mem, poison := t.poison, tiles := t.tiles } t ∧
        ctxMade s t T c e ∧ ∀ a, (a < v.base ∨ v.base + tileBytes ≤ a) → t.byte a = s.byte a)) ∧
  (∀ (s : State) (T c : Nat) (v : DescEnv) (e : Exec), s.inExec T c 3 = some (v, e) → checkVec s.ident.b1 e.desc = none →
    vOp e.desc ∈ [0x20, 0x21, 0x22, 0x25, 0x26, 0x27] → vRows e.desc = 1 →
    (∀ i, i < vCount e.desc → s.rangePoison (v.base + vS0 e.desc + 4 * i) 4 = none ∧
      (vScalar e.desc = false → s.rangePoison (v.base + vS1 e.desc + 4 * i) 4 = none)) →
    ∃ t, exec (.vec T c) s = .next t ∧ ctxMade s t T c e ∧ ∀ i, i < vCount e.desc →
      let x : W32 := BitVec.ofNat 32 (leNat (s.bytes (v.base + vS0 e.desc + 4 * i) 4))
      let y : W32 := if vScalar e.desc then BitVec.ofNat 32 (vImm e.desc)
        else BitVec.ofNat 32 (leNat (s.bytes (v.base + vS1 e.desc + 4 * i) 4))
      let z : W32 := BitVec.ofNat 32 (leNat (t.bytes (v.base + vDst e.desc + 4 * i) 4))
      (vOp e.desc = 0x20 → z = x + y) ∧ (vOp e.desc = 0x21 → z = x - y) ∧ (vOp e.desc = 0x22 → z = x * y) ∧
      (vOp e.desc = 0x25 → z = x &&& y) ∧ (vOp e.desc = 0x26 → z = x ||| y) ∧ (vOp e.desc = 0x27 → z = x ^^^ y)) ∧
  (∀ (s : State) (T c : Nat) (e : Exec) (g : GmmRun) (v : DescEnv) (x : Ctx) (st : GStep) (rest : List GStep), x = s.ctx T c →
    x.cur = some e → e.gmm = some g → s.descEnv T c e.desc = some v → g.flight = st :: rest → dType e.desc = 2 → x.state ≠ .faulted →
    x.state ≠ .free → ¬ (x.state = .parked ∧ st.op.fetches = true ∧ s.portHeld T e.order (true, false) = true) →
    ∃ r, r = s.gmmEffect v c (v.base + gmStage e.desc) { g with flight := rest } st ∧
      exec (.gmm T c) s = .next (r.1.gmmSettle T c r.2) ∧
      (∀ q, (r.2.ending = none ∨ r.2.runs ≠ [] ∨ r.2.units ≠ [] ∨ r.2.todo ≠ [] ∨ r.2.flight ≠ []) → q = r.1.gmmSettle T c r.2 →
        q.ctx T c = { r.1.ctx T c with cur := (r.1.ctx T c).cur.map (fun e => { e with gmm := some r.2 }) })) ∧
  (∀ (s : State) (T c : Nat), ((s.ctx T c).cur = none ∨ (s.ctx T c).state = .faulted ∨ (s.ctx T c).state = .free ∨
      (∃ e, (s.ctx T c).cur = some e ∧ (dType e.desc ≠ 2 ∨ e.gmm = none ∨ (∃ g, e.gmm = some g ∧ g.flight = []) ∨
        s.descEnv T c e.desc = none ∨ (∃ g y, e.gmm = some g ∧ g.flight.head? = some y ∧ (s.ctx T c).state = .parked ∧
          y.op.fetches = true ∧ s.portHeld T e.order (true, false) = true)))) →
    exec (.gmm T c) s = .next s) ∧
  (∀ (s t : State) (v : DescEnv) (r : UnitRun) (p : Option Nat), s.writeUnit v r = (t, p) →
    aside { s with mem := t.mem, poison := t.poison } t ∧
    ∀ a, (∀ n ya, n ∈ unitRows r.entry r.unit → s.yRow v r.desc r.entry n = some ya →
        a < ya + (gmNFirst r.desc + 16 * r.unit.cb) * fmtBits (gmYF r.desc) / 8 ∨
        ya + max 1 (packedLen (gmYF r.desc) (gmNFirst r.desc + gmNCount r.desc)) ≤ a) →
      16 * r.unit.cb < gmNCount r.desc → t.byte a = s.byte a) ∧
  (∀ (s : State) (T c : Nat) (v : DescEnv) (e : Exec), s.inExec T c 5 = some (v, e) →
    ((s.owned (.ctx T c) = true ∨ ((s.ctx T c).state = .parked ∧ s.portHeld T e.order (e.inbound, e.outbound) = true)) →
      exec (.copy T c) s = .next s) ∧
    (s.owned (.ctx T c) = false → ((s.ctx T c).state ≠ .parked ∨ s.portHeld T e.order (e.inbound, e.outbound) = false) →
      (s.ownNode (cpSrc e.desc / 2 ^ 48) = false → s.ownNode (cpDst e.desc / 2 ^ 48) = false →
        ∃ t, exec (.copy T c) s = .next t ∧ ctxFaulted s t T c .addrInvalid (cpDst e.desc)) ∧
      (s.ownNode (cpSrc e.desc / 2 ^ 48) = true → s.ownNode (cpDst e.desc / 2 ^ 48) = true →
        (∀ a, s.copyOffending v (copyPieces s v.base e.desc) false false = some a →
          ∃ t, exec (.copy T c) s = .next t ∧ ctxFaulted s t T c .addrInvalid a) ∧
        (∀ a b, cpMode e.desc = 0 → s.descAddr v.seat (cpSrc e.desc) (cpLen e.desc) = some a →
          s.descAddr v.seat (cpDst e.desc) (cpLen e.desc) = some b →
          ∃ t, exec (.copy T c) s = .next t ∧ aside { s with mem := t.mem, poison := t.poison, tiles := t.tiles } t ∧
            ctxMade s t T c e ∧ t.mem = (s.move a b (cpLen e.desc)).mem ∧ t.poison = (s.move a b (cpLen e.desc)).poison ∧
            (∀ p, (p < b ∨ b + cpLen e.desc ≤ p) → t.byte p = s.byte p) ∧
            (s.rangePoison a (cpLen e.desc) = none → s.rangePoison b (cpLen e.desc) = none →
              t.bytes b (cpLen e.desc) = s.bytes a (cpLen e.desc) ∧ t.poison = s.poison))) ∧
      (∀ far, cpMode e.desc = 0 → s.ownNode (cpSrc e.desc / 2 ^ 48) ≠ s.ownNode (cpDst e.desc / 2 ^ 48) →
        far = (if s.ownNode (cpSrc e.desc / 2 ^ 48) then cpDst e.desc else cpSrc e.desc) →
        ((far % 64 ≠ 0 ∨ cpLen e.desc % 64 ≠ 0) → ∃ t, exec (.copy T c) s = .next t ∧ ctxFaulted s t T c .descInvalid 0) ∧
        (far % 64 = 0 → cpLen e.desc % 64 = 0 →
          (∀ b, far = cpSrc e.desc → s.ownNode (cpDst e.desc / 2 ^ 48) = true → s.descAddr v.seat (cpDst e.desc) (cpLen e.desc) = some b →
            exec (.copy T c) s = .next (s.openReads (s.tileHub T) v.seatNo (far / 2 ^ 48) 3 0 (cpKey e.desc) (far % 2 ^ 48) b
              (cpLen e.desc) true (.ctx T c))) ∧
          (∀ a, far = cpDst e.desc → s.ownNode (cpSrc e.desc / 2 ^ 48) = true → s.descAddr v.seat (cpSrc e.desc) (cpLen e.desc) = some a →
            exec (.copy T c) s = .next (s.openWrites (s.tileHub T) v.seatNo (far / 2 ^ 48) 3 0 (cpKey e.desc) (far % 2 ^ 48) a
              (cpLen e.desc) true (.ctx T c)))))))

/-- A thief's grant of the last unstarted unit of a stealing GMM, whole, or of its highest unstarted segment that may be taken (R189 to
R193): the owner's list and the thief's begun units. -/
def grantIs (s t : State) (T c th thc : Nat) (e the : Exec) (g tg : GmmRun) (v : DescEnv) : Prop :=
  let both (og ng : GmmRun) : Prop :=
    aside { s with tiles := t.tiles } t ∧
    t.ctx T c = { s.ctx T c with cur := some { e with gmm := some og } } ∧
    t.ctx th thc = { s.ctx th thc with cur := some { the with gmm := some ng } } ∧
    (∀ T' c', (T', c') ≠ (T, c) → (T', c') ≠ (th, thc) → t.ctx T' c' = s.ctx T' c') ∧ ∀ T', tileKept (s.tile T') (t.tile T')
  (∀ us u en, g.units = us ++ [u] → s.gtEntry v e.desc u.entry = some en →
    both { g with units := us } (tg.begin_ T e.desc en u none)) ∧
  (∀ k r rs, g.units = [] → g.runs = rs ++ [r] → (∀ x ∈ rs, x.id ≠ r.id) → stealable g = some (some k) →
    both { g with runs := rs ++ [{ r with unstarted := r.unstarted.filter (· ≠ k), given := r.given ++ [(k, th)] }] }
      ({ tg with stolen := tg.stolen + 1 }.begin_ r.weights.owner r.desc r.entry r.unit (some (T, c, r.id, k))))

/-- The thieves' requests that reach a tile's queue in one tc are granted in the order of its arbiter, each from what
those before it leave, and the pointer moves on where one found nothing: the last unstarted unit whole, under the
descriptor that lists it, else the highest unstarted segment within 63 of the next to merge, whose sums go to the
owner (R105, R189 to R191). A thief's sums land in the owner's slot of STAGE and wait there for their turn, in which
the owner adds them, ascending, to what it has merged (R192, R193); sums for an owner that has ended, or that did not
give them, are discarded (R197). Where the rules leave a point open here, it is the model's reading (log 26, log 27,
log 66). -/
def Obligations.GroupsOfTilesShareWork : Prop :=
  (∀ (s : State) (T : Nat), s.thieves T = [] → exec (.stealRequest T) s = .next s) ∧
  (∀ (s : State) (T : Nat) (r : State × Bool), r = (arbOrder 9 (s.tile T).queuePtr (·.1) (s.thieves T)).foldl
      (fun (a : State × Bool) q => ((a.1.grantSteal T q.2.1 q.2.2).1, a.2 || !(a.1.grantSteal T q.2.1 q.2.2).2)) (s, false) →
    (r.2 = false → exec (.stealRequest T) s = .next r.1) ∧
    (r.2 = true → exec (.stealRequest T) s = .next (r.1.setTile T { r.1.tile T with queuePtr := ((s.tile T).queuePtr + 1) % 9 }))) ∧
  (∀ (s : State) (T n th thc : Nat), (n, th, thc) ∈ s.thieves T → th ≠ T ∧ (n < 8 → th / 8 = T / 8 ∧ n = th % 8) ∧ n ≤ 8 ∧
    (th / 8 ≠ T / 8 → n = 8) ∧ ∃ e g, (s.ctx th thc).cur = some e ∧ e.gmm = some g ∧ isThief g = true ∧ gmSteal e.desc = true ∧
      s.victim th (s.ctx th thc).seat (gmGt e.desc) = some T) ∧
  (∀ (s : State) (T c th thc : Nat) (x : Ctx) (the e : Exec) (tg g : GmmRun) (v tv : DescEnv), (s.ctx th thc).cur = some the →
    the.gmm = some tg → th ≠ T →
    (s.stealing T).find? (fun q => q.2.1.seat == (s.ctx th thc).seat && gmGt q.2.2.1.desc == gmGt the.desc &&
      (stealable q.2.2.2).isSome) = some (c, x, e, g) →
    s.descEnv T c e.desc = some v → s.descEnv th thc the.desc = some tv →
    (∀ u, g.units.getLast? = some u → s.gtEntry v e.desc u.entry ≠ none) →
    ∃ t, s.grantSteal T th thc = (t, true) ∧ grantIs s t T c th thc e the g tg v) ∧
  (∀ (s : State) (T th thc : Nat) (the : Exec), (s.ctx th thc).cur = some the →
    (s.stealing T).find? (fun q => q.2.1.seat == (s.ctx th thc).seat && gmGt q.2.2.1.desc == gmGt the.desc &&
      (stealable q.2.2.2).isSome) = none → s.grantSteal T th thc = (s, false)) ∧
  (∀ (s : State) (i : Nat), s.sync.slotWrites[i]? = none → exec (.stolenSlotArrival i) s = .next s) ∧
  (∀ (s z : State) (i : Nat) (w : SlotWrite), s.sync.slotWrites[i]? = some w →
    z = { s with sync := { s.sync with slotWrites := s.sync.slotWrites.eraseIdx i } }.stolenLands w.thief w.thiefCtx →
    (z = { s with tiles := z.tiles, sync := { s.sync with slotWrites := s.sync.slotWrites.eraseIdx i } } ∧
      ∀ e g, (s.ctx w.thief w.thiefCtx).cur = some e → e.gmm = some g → ctxIs s z w.thief w.thiefCtx
        { s.ctx w.thief w.thiefCtx with cur := some { e with gmm := some { g with stolen := g.stolen - 1 } } }) ∧
    ((z.ctx w.owner w.ownerCtx).cur = none → exec (.stolenSlotArrival i) s = .next z) ∧
    (∀ e, (z.ctx w.owner w.ownerCtx).cur = some e →
      ((e.gmm = none ∨ z.descEnv w.owner w.ownerCtx e.desc = none ∨ (z.ctx w.owner w.ownerCtx).state = .faulted) →
        exec (.stolenSlotArrival i) s = .next z) ∧
      (∀ g v, e.gmm = some g → z.descEnv w.owner w.ownerCtx e.desc = some v → (z.ctx w.owner w.ownerCtx).state ≠ .faulted →
        (g.run? w.run = none → exec (.stolenSlotArrival i) s = .next z) ∧
        (∀ r, g.run? w.run = some r →
          ((w.seg, w.thief) ∉ r.given → exec (.stolenSlotArrival i) s = .next z) ∧
          ((w.seg, w.thief) ∈ r.given →
            let slot := v.base + gmStage e.desc + gmStageLen e.desc - 65536 + w.seg % 64 * 1024
            let y := z.store slot (w.sums.flatMap (fun x => natLe 4 x.1))
            let r' := { r with given := r.given.filter (· ≠ (w.seg, w.thief)), sums := FMap.insert r.sums w.seg w.sums }
            ∃ q, aside (match w.sums.findSome? (·.2) with | some p => y.poisonRange slot 1024 p | none => y) q ∧
              (r'.merged < r'.nseg → FMap.find? r'.sums r'.merged = none →
                ∃ t, exec (.stolenSlotArrival i) s = .next t ∧ aside (q.setGmm w.owner w.ownerCtx (g.setRun r')) t) ∧
              exec (.stolenSlotArrival i) s =
                .next ((q.unitMerge v g r' false).1.gmmSettle w.owner w.ownerCtx (q.unitMerge v g r' false).2)))))) ∧
  (∀ (r : UnitRun) (x : SegSums) (n : Nat), FMap.find? r.sums r.merged = some x →
    FMap.find? (FMap.erase r.sums r.merged) (r.merged + 1) = none →
    (mergeRun (n + 1) r).1 = { r with acc := if r.merged = 0 then x else (mergeSums r.acc x).1, merged := r.merged + 1,
                                      sums := FMap.erase r.sums r.merged })

/-- What a counter has taken in this tc. -/
def takenNow (s : State) (seat : Nat) (g : Target) : CtrTc :=
  match FMap.find? s.sync.ctrTc (targetKey seat g) with
  | some o => if o.tc = s.time / tcUnits then o else { tc := s.time / tcUnits, adds := 0, setBy := none }
  | none => { tc := s.time / tcUnits, adds := 0, setBy := none }

/-- One counter has become v, with what it has taken in this tc; every other counter and all else is as before. -/
def counterBecomes (s t : State) (seat : Nat) (g : Target) (v : W32) (r : CtrTc) : Prop :=
  t = { s with
    sync := { s.sync with tileCtr := t.sync.tileCtr, cluCtr := t.sync.cluCtr, ctrTc := t.sync.ctrTc }
    ni := { s.ni with ctr := t.ni.ctr } } ∧
  t.readCtr seat g = v ∧ FMap.find? t.sync.ctrTc (targetKey seat g) = some r ∧
  (∀ n, n ≠ targetKey seat g → FMap.find? t.sync.ctrTc n = FMap.find? s.sync.ctrTc n) ∧
  (∀ n, (∀ w i, g = .tile w i → n ≠ tileCtrKey seat w i) → FMap.get 0 t.sync.tileCtr n = FMap.get 0 s.sync.tileCtr n) ∧
  (∀ n, (∀ w i, g = .cluster w i → n ≠ cluCtrKey seat w i) → FMap.get 0 t.sync.cluCtr n = FMap.get 0 s.sync.cluCtr n) ∧
  (∀ n, (∀ i, g = .ni i → n ≠ niCtrKey seat i) → FMap.get 0 t.ni.ctr n = FMap.get 0 s.ni.ctr n)

/-- A signal adds its value to its counter; a SET makes it VALUE and the signals of the same tc, of two SETs in a tc that of the lower tile
and then the lower context (R130 to R132). -/
def signalTakes (s t : State) (g : Signal) : Prop :=
  let r := takenNow s g.seat g.target
  let rank := g.tile * 8 + g.ctx
  (g.isSet = false → counterBecomes s t g.seat g.target (s.readCtr g.seat g.target + g.value) { r with adds := r.adds + g.value }) ∧
  (g.isSet = true → (∀ b, r.setBy = some b → rank < b) →
    counterBecomes s t g.seat g.target (g.value + r.adds) { r with setBy := some rank }) ∧
  (g.isSet = true → (∃ b, r.setBy = some b ∧ b ≤ rank) → t = s)

/-- A release made in this tc whose own arrival, counted in this tc too, comes after one that arrives now (R160). -/
def givesWay (s : State) (a : Arrival) (me : Counted) (j : Nat) (r : Release) : Prop :=
  s.sync.releases[j]? = some r ∧ r.seat = a.seat ∧ r.bid = a.bid ∧ r.home = a.home ∧ r.members = a.members ∧ r.tc = me.tc ∧
  r.who.tc = me.tc ∧ r.who.after me = true

/-- An arrival is counted in the current generation of its barrier (R160, R161): one that fills MEMBERS releases every counted context, one
that disagrees ends them with DESC_MISMATCH, any other is counted. -/
def arrivalCounts (z t : State) (a : Arrival) (me : Counted) : Prop :=
  let k := barrierKey a.seat a.home a.bid
  let g : BarrierGen := (FMap.find? z.sync.barriers k).getD { members := a.members, arrived := [] }
  let now := g.arrived ++ [me]
  (∀ n, n ≠ k → FMap.find? t.sync.barriers n = FMap.find? z.sync.barriers n) ∧
  (g.members = a.members → now.length = g.members → FMap.find? t.sync.barriers k = none ∧
    t = { z with sync := { z.sync with
      barriers := t.sync.barriers
      releases := z.sync.releases ++ now.map (fun w =>
        { seat := a.seat, bid := a.bid, home := a.home, members := g.members, who := w, tc := me.tc }) } }) ∧
  (g.members = a.members → now.length ≠ g.members → FMap.find? t.sync.barriers k = some { g with arrived := now } ∧
    t = { z with sync := { z.sync with barriers := t.sync.barriers } }) ∧
  (g.members ≠ a.members → FMap.find? t.sync.barriers k = none ∧
    (∃ y : State, y = { z with sync := { z.sync with barriers := y.sync.barriers } } ∧
      t = y.barrierFail a.seat a.home a.bid now .descMismatch a.tile) ∧
    (∀ w ∈ now, ∀ T, z.waiter a.seat a.home a.bid w = some T → (t.ctx T w.ctx).state = .faulted) ∧
    (∀ T c, (∀ w ∈ now, z.waiter a.seat a.home a.bid w = some T → w.ctx ≠ c) → t.ctx T c = z.ctx T c))

/-- SIGNAL adds to a counter of the own tile at once, SET writes it before the signals of the same tc; to any other
counter both travel, once, and take effect when they are applied, after those that their source sent to the same unit
before; those for a store of a seat that is saved are held. A context that its SIGNAL or SET has parked then goes on.
WAIT waits, and its LIMIT ends it with TIMEOUT while its counter does not reach VALUE (R20, R130 to R132, R158, R516).
A BARRIER sends its arrival to its home and waits. An arrival is counted in its barrier, of its seat, home and BID; in
the tc of a release it changes places with the counted arrival that R160 puts last, where that comes after it. A
release lets its context go on in the following tc, and a LIMIT that passes ends the wait with TIMEOUT (R159 to R161).
Where the rules leave a point open here, it is the model's reading (log 23, log 26). -/
def Obligations.SignalsCountAndBarriersMeet : Prop :=
  ((∀ (s : State) (T c : Nat),
     ((∀ v e, s.inExec T c 7 = some (v, e) → syOp e.desc ≠ 0) → exec (.syncSignal T c) s = .next s) ∧
     ((∀ v e, s.inExec T c 7 = some (v, e) → syOp e.desc ≠ 2) → exec (.syncSet T c) s = .next s) ∧
     ((∀ v e, s.inExec T c 7 = some (v, e) → syOp e.desc ≠ 1) → exec (.syncWait T c) s = .next s)) ∧
   (∀ (s : State) (T c : Nat) (v : DescEnv) (e : Exec) (g : Target) (i : Instr), s.inExec T c 7 = some (v, e) →
     ((syOp e.desc = 0 ∧ i = .syncSignal T c) ∨ (syOp e.desc = 2 ∧ i = .syncSet T c)) →
     crefTarget v.seat v.view (syCref e.desc) = some g →
     let sig : Signal := { seat := v.seatNo, target := g, isSet := syOp e.desc == 2, value := BitVec.ofNat 32 (syValue e.desc),
                           tile := v.view, ctx := c, parks := s.isRemote v e.desc }
     ((∃ k, g = .tile v.view k) →
       ∃ t y, exec i s = .next t ∧ signalTakes s y sig ∧ t = { y with tiles := t.tiles } ∧ ctxMade y t T c e) ∧
     ((∀ k, g ≠ .tile v.view k) →
       ((∀ x ∈ s.sync.signals, ¬ (x.parks = true ∧ x.seat = v.seatNo ∧ x.tile = v.view ∧ x.ctx = c)) →
         exec i s = .next { s with sync := { s.sync with signals := s.sync.signals ++ [{ sig with parks := true }] } }) ∧
       ((∃ x ∈ s.sync.signals, x.parks = true ∧ x.seat = v.seatNo ∧ x.tile = v.view ∧ x.ctx = c) → exec i s = .next s))) ∧
   (∀ (s : State) (T c : Nat) (v : DescEnv) (e : Exec) (i : Instr), s.inExec T c 7 = some (v, e) →
     ((syOp e.desc = 0 ∧ i = .syncSignal T c) ∨ (syOp e.desc = 2 ∧ i = .syncSet T c)) →
     crefTarget v.seat v.view (syCref e.desc) = none → ∃ t, exec i s = .next t ∧ ctxFaulted s t T c .descInvalid 0) ∧
   (∀ (s : State) (T c : Nat) (v : DescEnv) (e : Exec), s.inExec T c 7 = some (v, e) → syOp e.desc = 1 →
     ∃ t, exec (.syncWait T c) s = .next t ∧ t = { s with tiles := t.tiles } ∧
       ctxIs s t T c { s.ctx T c with state := .waiting, cur := some { e with done := true } }) ∧
   (∀ (s : State) (i : Nat), s.sync.signals[i]? = none → exec (.signalApply i) s = .next s) ∧
   (∀ (s : State) (i j : Nat) (g x : Signal), s.sync.signals[i]? = some g → s.sync.signals[j]? = some x → j < i → x.seat = g.seat →
     x.tile = g.tile → x.target.unit = g.target.unit → exec (.signalApply i) s = .next s) ∧
   (∀ (s z : State) (i : Nat) (g : Signal), s.sync.signals[i]? = some g →
     (∀ j x, j < i → s.sync.signals[j]? = some x → x.seat = g.seat → x.tile = g.tile → x.target.unit ≠ g.target.unit) →
     z = { s with sync := { s.sync with signals := s.sync.signals.eraseIdx i } } →
     (∀ q, s.seat? g.seat = some q → q.preempt.phase ≠ .none → (∀ n, g.target ≠ .ni n) →
       ∃ t, exec (.signalApply i) s = .next t ∧ t = { z with seats := t.seats } ∧
         t.seat? g.seat = some { q with heldSignals := q.heldSignals ++ [g] } ∧ ∀ n, n ≠ g.seat → t.seat? n = s.seat? n) ∧
     ((s.seat? g.seat = none ∨ (∃ q, s.seat? g.seat = some q ∧ q.preempt.phase = .none) ∨ ∃ n, g.target = .ni n) →
       (g.parks = false → ∃ t, exec (.signalApply i) s = .next t ∧ signalTakes z t g) ∧
       (g.parks = true → ∀ q T e, s.seat? g.seat = some q → q.tile? g.tile = some T → (s.ctx T g.ctx).cur = some e →
         dType e.desc = 7 → e.gmm = none → (s.ctx T g.ctx).state = .parked →
         ∃ t y, exec (.signalApply i) s = .next t ∧ signalTakes z y g ∧
           ctxCompleted y t T g.ctx e (some (s.time / tcUnits, .parked))) ∧
       (g.parks = true → (∀ q T, s.seat? g.seat = some q → q.tile? g.tile = some T →
           ((s.ctx T g.ctx).state ≠ .parked ∨ ∀ e, (s.ctx T g.ctx).cur = some e → dType e.desc ≠ 7)) →
         ∃ t, exec (.signalApply i) s = .next t ∧ signalTakes z t g))) ∧
   (∀ (s : State) (T c : Nat),
     (∀ e, (s.ctx T c).cur = some e → dType e.desc = 7 → syOp e.desc = 1 → (s.ctx T c).state = .waiting → syLimit e.desc ≠ 0 →
       s.waitHolds (s.ctx T c) (s.view (s.ctx T c).seat T) e.desc = false →
       ∃ t, exec (.syncWaitLimit T c) s = .next t ∧ ctxFaulted s t T c .timeout 0) ∧
     ((∀ e, (s.ctx T c).cur = some e → (dType e.desc ≠ 7 ∨ syOp e.desc ≠ 1 ∨ (s.ctx T c).state ≠ .waiting ∨ syLimit e.desc = 0 ∨
         s.waitHolds (s.ctx T c) (s.view (s.ctx T c).seat T) e.desc = true)) →
       exec (.syncWaitLimit T c) s = .next s))) ∧
  ((∀ (s : State) (T c : Nat), (s.inExec T c 8 = none → exec (.barrier T c) s = .next s) ∧
     (∀ v e, s.inExec T c 8 = some (v, e) →
       ∃ t, exec (.barrier T c) s = .next t ∧
         t = { s with
           tiles := t.tiles
           sync := { s.sync with arrivals := s.sync.arrivals ++
             [{ seat := v.seatNo, bid := brBid e.desc, home := brHome e.desc, members := brMembers e.desc, tile := v.view, ctx := c,
                since := e.since }] } } ∧
         ctxIs s t T c { s.ctx T c with state := .waiting, cur := some { e with done := true } })) ∧
   (∀ (s : State) (i : Nat), s.sync.arrivals[i]? = none → exec (.barrierArrival i) s = .next s) ∧
   (∀ (s z : State) (i : Nat) (a : Arrival) (me : Counted), s.sync.arrivals[i]? = some a →
     z = { s with sync := { s.sync with arrivals := s.sync.arrivals.eraseIdx i } } →
     me = { tile := a.tile, ctx := a.ctx, since := a.since, tc := s.time / tcUnits } →
     ((∀ j r, ¬ givesWay s a me j r) → ∃ t, exec (.barrierArrival i) s = .next t ∧ arrivalCounts z t a me) ∧
     (∀ j r, givesWay s a me j r → (∀ k y, givesWay s a me k y → k ≠ j → r.who.after y.who = true) →
       ∃ t, exec (.barrierArrival i) s = .next t ∧
         arrivalCounts { z with sync := { z.sync with releases := z.sync.releases.set j { r with who := me } } } t
           { a with tile := r.who.tile, ctx := r.who.ctx, since := r.who.since } r.who)) ∧
   (∀ (s : State) (i : Nat), s.sync.releases[i]? = none → exec (.barrierRelease i) s = .next s) ∧
   (∀ (s z : State) (i : Nat) (r : Release), s.sync.releases[i]? = some r →
     z = { s with sync := { s.sync with releases := s.sync.releases.eraseIdx i } } →
     (s.waiter r.seat r.home r.bid r.who = none → exec (.barrierRelease i) s = .next z) ∧
     (∀ T e, s.waiter r.seat r.home r.bid r.who = some T → (s.ctx T r.who.ctx).cur = some e →
       ∃ t, exec (.barrierRelease i) s = .next t ∧ ctxCompleted z t T r.who.ctx e (some (s.time / tcUnits, .waiting)))) ∧
   (∀ (s : State) (q : Seat) (seat home bid T : Nat) (a : Counted) (e : Exec), s.seat? seat = some q → q.tile? a.tile = some T →
     (s.ctx T a.ctx).cur = some e →
     (s.waiter seat home bid a = some T ↔ ((s.ctx T a.ctx).state = .waiting ∧ (s.ctx T a.ctx).seat = seat ∧ dType e.desc = 8 ∧
       brHome e.desc = home ∧ brBid e.desc = bid ∧ e.since = a.since))) ∧
   (∀ (s : State) (T c : Nat),
     (∀ e, (s.ctx T c).cur = some e → dType e.desc = 8 → (s.ctx T c).state = .waiting → brLimit e.desc ≠ 0 →
       ∃ t, exec (.barrierLimit T c) s = .next t ∧ ctxFaulted s t T c .timeout 0) ∧
     ((∀ e, (s.ctx T c).cur = some e → (dType e.desc ≠ 8 ∨ (s.ctx T c).state ≠ .waiting ∨ brLimit e.desc = 0)) →
       exec (.barrierLimit T c) s = .next s)))

/-- A REDUCE of the package that has arrived joins its run: it meets its end, shows that the members differ, finds a member lost, waits, or is
the last, with which the result is formed and delivered (R148, R149, R151). -/
def reduceMeets (s t : State) (x : Seat) (seat : Nat) (me : Nat × Nat) (d : Bytes) (run : ReduceRun) : Prop :=
  let arrived := run.arrived ++ [me]
  let left := ((arrived.flatMap (fun a => rdMembers (s.memberDesc x a)) ++ rdMembers d).eraseDups).filter
    (fun v => !arrived.any (fun a => a.1 == v))
  let ends (as : List (Nat × Nat)) : Prop := ∀ a ∈ as, ∀ T, x.tile? a.1 = some T → (s.ctx T a.2).cur ≠ none →
    (t.ctx T a.2).state = .faulted
  let waits (r : ReduceRun) : Prop := (r.left ≠ [] → t.sync.reduces = s.sync.reduces ++ [r]) ∧
    (r.left = [] → t.sync.reduces = s.sync.reduces)
  (∀ st det, run.ended = some (st, det) → ends [me] ∧ t.mem = (s.reduceFail x [me] st det).mem ∧
    waits { run with arrived := arrived, left := run.left.filter (· ≠ me.1) }) ∧
  (∀ v, run.ended = none → s.firstDiffering x arrived = some v → ends arrived ∧
    waits { run with arrived := arrived, ended := some (.descMismatch, v), left := left }) ∧
  (∀ st, run.ended = none → s.firstDiffering x arrived = none → s.reduceBroken seat x d = some st → ends arrived ∧
    waits { run with arrived := arrived, ended := some (st, 0), left := left }) ∧
  (run.ended = none → s.firstDiffering x arrived = none → s.reduceBroken seat x d = none →
    (left ≠ [] → t = { s with sync := { s.sync with reduces := s.sync.reduces ++ [{ run with arrived := arrived }] } }) ∧
    (left = [] → t = s.reduceComplete seat x arrived d))

/-- STREAM asks its hub once; NITRIG arms its entry, or faults with TRIGGER_BUSY while the entry is not FREE, and with
the status of an action that fails its checks; ROUTE is handed over to its lead engine in the nc in which it reaches
it and its space counts as routed for the turn, or ends with SPACE_UNKNOWN, SPACE_BUSY, DESC_INVALID or ROUTE_ABORTED,
where a ROUTE of a group has its member stand in; a REDUCE joins the run of its members, a member of none begins one,
a single member has its result at once (R148, R149, R151, R157, R163, R165, R166, R199, R230, R231, R400). Where the
rules leave a point open here, it is the model's reading (log 28, log 35). -/
def Obligations.DescriptorsAreHandedOver : Prop :=
  (∀ (s : State) (T c : Nat),
    ((s.inExec T c 6 = none ∨ (T, c) ∈ s.flash.asks) → exec (.stream T c) s = .next s) ∧
    (s.inExec T c 6 ≠ none → (T, c) ∉ s.flash.asks →
      exec (.stream T c) s = .next { s with flash := { s.flash with asks := s.flash.asks ++ [(T, c)] } }) ∧
    (s.inExec T c 10 = none → exec (.nitrig T c) s = .next s) ∧
    ((s.inExec T c 9 = none ∨ ∃ a ∈ s.druind.asks, a.tile = T ∧ a.ctx = c) → exec (.route T c) s = .next s)) ∧
  (∀ (s : State) (T c : Nat) (v : DescEnv) (e : Exec), s.inExec T c 10 = some (v, e) →
    (∀ st, checkAction s v.seatNo v.seat (ntAction e.desc) (ntClass e.desc) (ntLen e.desc) (e.desc.drop 32) = some st →
      ∃ t, exec (.nitrig T c) s = .next t ∧ ctxFaulted s t T c st (if st = .addrInvalid then
        s.offending v.seatNo v.seat (ntAction e.desc) (ntLen e.desc) (e.desc.drop 32) else 0)) ∧
    (checkAction s v.seatNo v.seat (ntAction e.desc) (ntClass e.desc) (ntLen e.desc) (e.desc.drop 32) = none →
      let k := trigKey v.seatNo (niHub (ntCtr e.desc)) (ntSlot e.desc)
      (FMap.find? s.ni.triggers k = none →
        ∃ t, exec (.nitrig T c) s = .next t ∧ ctxMade s t T c e ∧
          t = { s with tiles := t.tiles, ni := { s.ni with triggers := t.ni.triggers } } ∧
          FMap.find? t.ni.triggers k = some { running := false, action := ntAction e.desc, tclass := ntClass e.desc,
                                              ctr := ntCtr e.desc, thresh := ntThresh e.desc,
                                              next := if ntNext e.desc = 0xFFFFFFFF then none else some (ntNext e.desc),
                                              len := ntLen e.desc, args := e.desc.drop 32 } ∧
          ∀ n, n ≠ k → FMap.find? t.ni.triggers n = FMap.find? s.ni.triggers n) ∧
      (FMap.find? s.ni.triggers k ≠ none →
        ∃ t, exec (.nitrig T c) s = .next t ∧ ctxFaulted s t T c .triggerBusy 0))) ∧
  (∀ (s y : State) (T c : Nat) (v : DescEnv) (e : Exec), s.inExec T c 9 = some (v, e) →
    (∀ a ∈ s.druind.asks, ¬ (a.tile = T ∧ a.ctx = c)) →
    y = s.onSeat v.seatNo (fun q => { q with routed := q.routed ++ [roSpace e.desc] }) →
    (FMap.find? v.seat.spaces (roSpace e.desc) = none →
      exec (.route T c) s = .next (s.routeRefuse T c v.seat e.desc .spaceUnknown 0) ∧
      (roGrant e.desc = false → ∃ t, exec (.route T c) s = .next t ∧ ctxFaulted s t T c .spaceUnknown 0)) ∧
    (∀ sp, FMap.find? v.seat.spaces (roSpace e.desc) = some sp →
      (roSpace e.desc ∈ v.seat.routed → ∃ t, exec (.route T c) s = .next t ∧ ctxFaulted s t T c .spaceBusy 0) ∧
      (roSpace e.desc ∉ v.seat.routed →
        ((spE sp.record < roK e.desc ∨ (spPolicy sp.record = 1 ∧ spE sp.record < roK e.desc * (1 + spProbe sp.record)) ∨
            (roGrant e.desc = true ∧ s.groupOf v.seatNo (roGroup e.desc) = none)) →
          exec (.route T c) s = .next (y.routeRefuse T c v.seat e.desc .descInvalid 0) ∧
          (roGrant e.desc = false → ∃ t, exec (.route T c) s = .next t ∧ ctxFaulted y t T c .descInvalid 0)) ∧
        (roK e.desc ≤ spE sp.record → (spPolicy sp.record = 1 → roK e.desc * (1 + spProbe sp.record) ≤ spE sp.record) →
          (roGrant e.desc = true → s.groupOf v.seatNo (roGroup e.desc) ≠ none) →
          (s.leadOf v.seat T = none →
            exec (.route T c) s = .next (y.routeRefuse T c v.seat e.desc .routeAborted 0) ∧
            (roGrant e.desc = false → ∃ t, exec (.route T c) s = .next t ∧ ctxFaulted y t T c .routeAborted 0)) ∧
          (∀ lead, s.leadOf v.seat T = some lead →
            ∃ t, exec (.route T c) s = .next t ∧
              t = { s with
                seats := t.seats
                druind := { s.druind with asks := s.druind.asks ++
                  [{ tile := T, ctx := c, lead := lead, nc := s.handOverNc T lead }] } } ∧
              t.seat? v.seatNo = some { v.seat with routed := v.seat.routed ++ [roSpace e.desc] } ∧
              ∀ n, n ≠ v.seatNo → t.seat? n = s.seat? n))))) ∧
  (∀ (s : State) (T c : Nat), (∀ e, (s.ctx T c).cur = some e → (dType e.desc ≠ 4 ∨ (s.ctx T c).state = .free ∨ e.joined = true ∨
      ((s.ctx T c).state ≠ .faulted ∧ s.inExec T c 4 = none) ∨ ((s.ctx T c).state = .faulted ∧ rdGroup e.desc = 0xFFFF))) →
    exec (.reduce T c) s = .next s) ∧
  (∀ (s : State) (T c : Nat) (v : DescEnv) (e : Exec), s.inExec T c 4 = some (v, e) → e.joined = false →
    (rdGroup e.desc ≠ 0xFFFF → s.groupOf v.seatNo (rdGroup e.desc) = none →
      ∃ t, exec (.reduce T c) s = .next t ∧ ctxFaulted s t T c .descInvalid 0) ∧
    ((∀ r ∈ s.sync.reduces, r.seat ≠ v.seatNo) → (rdGroup e.desc ≠ 0xFFFF → s.groupOf v.seatNo (rdGroup e.desc) ≠ none) →
      1 < rdTiles e.desc → s.reduceBroken v.seatNo v.seat e.desc = none →
      ∃ t, exec (.reduce T c) s = .next t ∧
        t = { s with
          tiles := t.tiles
          sync := { s.sync with reduces := s.sync.reduces ++ [{ seat := v.seatNo, arrived := [(s.view v.seatNo T, c)] }] } } ∧
        ctxIs s t T c { s.ctx T c with cur := some { e with joined := true } }) ∧
    (∀ b, (∀ r ∈ s.sync.reduces, r.seat ≠ v.seatNo) → rdGroup e.desc = 0xFFFF → rdTiles e.desc = 1 →
      checkReduce s v e.desc = none → s.reduceBroken v.seatNo v.seat e.desc = none → rdFirst e.desc = s.view v.seatNo T →
      v.seat.tile? (s.view v.seatNo T) = some T → s.tilePhys T = some b → (s.ctx T c).state ≠ .parked →
      s.rangePoison (b + rdSrc e.desc) (packedLen (rdIn e.desc) (rdCount e.desc)) = none →
      ∃ t, exec (.reduce T c) s = .next t ∧ aside { s with mem := t.mem, poison := t.poison, tiles := t.tiles } t ∧
        ctxIs s t T c { s.ctx T c with cur := some { e with joined := true, done := true } } ∧
        ∀ a, (a < b + rdDst e.desc ∨ b + rdDst e.desc + max 1 (packedLen (rdOut e.desc) (rdPart e.desc 0).2) ≤ a) →
          t.byte a = s.byte a) ∧
    (rdGroup e.desc = 0xFFFF → ∀ z run, z = { s.setCtx T c { s.ctx T c with cur := some { e with joined := true } } with
        sync := { s.sync with reduces :=
          (match s.sync.reduces.findIdx? (s.reduceRunOf v.seat v.seatNo (s.view v.seatNo T) e.desc) with
            | some i => s.sync.reduces.eraseIdx i
            | none => s.sync.reduces) } } →
      run = (s.sync.reduces.find? (s.reduceRunOf v.seat v.seatNo (s.view v.seatNo T) e.desc)).getD
        { seat := v.seatNo, arrived := [] } →
      ∃ t, exec (.reduce T c) s = .next t ∧ reduceMeets z t v.seat v.seatNo (s.view v.seatNo T, c) e.desc run))

/-! ### Routes -/

/-- A hand-over that its context still makes: the descriptor in execution is a ROUTE, with its seat. -/
def handsOver (s : State) (a : RouteAsk) (e : Exec) (x : Seat) : Prop :=
  (s.ctx a.tile a.ctx).cur = some e ∧ s.seat? (s.ctx a.tile a.ctx).seat = some x ∧ (s.ctx a.tile a.ctx).state ≠ .faulted ∧
  dType e.desc = 9

/-- A hand-over comes before another at one engine: by the nc of its arrival, then by seat-view tile (R163). -/
def asksBefore (s : State) (b a : RouteAsk) : Prop :=
  b.lead = a.lead ∧ (b.nc < a.nc ∨ (b.nc = a.nc ∧
    s.view (s.ctx b.tile b.ctx).seat b.tile < s.view (s.ctx a.tile a.ctx).seat a.tile))

/-- An engine, and a seat on it, has a working slot left (R201). -/
def slotLeft (s : State) (lead seat : Nat) (x : Seat) : Prop :=
  (s.druind.runs.filter (fun r => r.2.lead == lead)).length < 4 ∧
  ((s.druind.runs.filter (fun r => r.2.lead == lead)).filter (fun r => r.2.seat == seat)).length < recDreSlots x.record

/-- A hand-over waits while another stands before it or no working slot is left; the first is accepted: its bank is
loaded, its context goes on, and the ROUTE is in flight (R201, R209, R210); an unknown space, a bank outside the
quota, an output area or rows of logits outside the seat, an output area that is too small and a bank that is not
valid end it at hand-over (R163, R210, R232), poison in its bank ends it after its context has gone on (R242). A count
or grant message from a member that comes before its ROUTE waits for it, one for a round that is not yet full is kept,
one for an earlier turn or a round that is over is discarded, and one from outside the group is rejected (R229, R410).
At the horizon the homes that are missing count as refusing, and the last round ends the grant phase; a mismatch ends
the ROUTE (R228, R229). Once its grant phase is over a ROUTE writes its outputs, the header last, sends its completion
signal and frees its slot (R233, R241). Where the rules leave a point open here, it is the model's reading (log 28). -/
def Obligations.RoutesRun : Prop :=
  (∀ (s : State) (i : Nat), s.druind.asks[i]? = none → exec (.routeAccept i) s = .next s) ∧
  (∀ (s : State) (i : Nat) (a : RouteAsk), s.druind.asks[i]? = some a → (∀ e x, ¬ handsOver s a e x) →
    exec (.routeAccept i) s = .next { s with druind := { s.druind with asks := s.druind.asks.eraseIdx i } }) ∧
  (∀ (s z : State) (i : Nat) (a : RouteAsk) (e : Exec) (x : Seat), s.druind.asks[i]? = some a → handsOver s a e x →
    z = { s with druind := { s.druind with asks := s.druind.asks.eraseIdx i } } →
    (s.leadOf x a.tile = none → exec (.routeAccept i) s = .next (z.routeRefuse a.tile a.ctx x e.desc .routeAborted 0)) ∧
    (∀ lead, s.leadOf x a.tile = some lead →
      (((∃ b ∈ s.druind.asks, asksBefore s b a) ∨ ¬ slotLeft s lead (s.ctx a.tile a.ctx).seat x) →
        exec (.routeAccept i) s = .next s) ∧
      ((∀ b ∈ s.druind.asks, ¬ asksBefore s b a) → slotLeft s lead (s.ctx a.tile a.ctx).seat x →
        (FMap.find? x.spaces (roSpace e.desc) = none →
          exec (.routeAccept i) s = .next (z.routeRefuse a.tile a.ctx x e.desc .spaceUnknown 0)) ∧
        (∀ sp, FMap.find? x.spaces (roSpace e.desc) = some sp →
          let place := if sp.bankB then spBankB sp.record else spBankA sp.record
          (s.quotaAddr x place (8 * spE sp.record) = none →
            exec (.routeAccept i) s = .next (z.routeRefuse a.tile a.ctx x e.desc .addrInvalid place)) ∧
          (∀ run, z.newRun a.tile a.ctx lead x e sp = some run →
            let own := (List.range (spE sp.record)).filter (fun k => bkHome run.bank k == s.fab.node)
            let rows := roundUp (spE sp.record * (fmtBits (roLogitFmt e.desc) / 8)) 16
            (s.descAddr x (roOut e.desc) (max 1 (roOutLen e.desc)) = none →
              exec (.routeAccept i) s = .next (z.routeRefuse a.tile a.ctx x e.desc .addrInvalid (roOut e.desc))) ∧
            (s.descAddr x (roOut e.desc) (max 1 (roOutLen e.desc)) ≠ none →
              (roOutLen e.desc < ouNeeded sp.record (roTokens e.desc) (roK e.desc) run.members.length own.length →
                exec (.routeAccept i) s = .next (z.routeRefuse a.tile a.ctx x e.desc .descInvalid 0)) ∧
              (ouNeeded sp.record (roTokens e.desc) (roK e.desc) run.members.length own.length ≤ roOutLen e.desc →
                (roMode e.desc ≠ 2 → s.descAddr x (roLogits e.desc) (rows * roTokens e.desc) = none →
                  exec (.routeAccept i) s = .next (z.routeRefuse a.tile a.ctx x e.desc .addrInvalid (roLogits e.desc))) ∧
                ((roMode e.desc ≠ 2 → s.descAddr x (roLogits e.desc) (rows * roTokens e.desc) ≠ none) →
                  exec (.routeAccept i) s = .next (z.routeBegin x run))))))))) ∧
  (∀ (s : State) (x : Seat) (run : RouteRun) (e : Exec), (s.ctx run.tile run.ctx).cur = some e → run.group = none →
    (s.bankStatus x run = some .placementInvalid → roGrant run.desc = false →
      ∃ u t, counted { s with ni := { s.ni with directory := u.ni.directory, caches := u.ni.caches } } u ∧ s.routeBegin x run = t ∧
        ctxFaulted u t run.tile run.ctx .placementInvalid 0) ∧
    (∀ st, s.bankStatus x run = some st → st ≠ .placementInvalid →
      ∃ u, s.routeBegin x run = u.routeFault { run with status := some st, tokens := [] } st ∧
        aside { s with tiles := u.tiles } u ∧ ctxMade s u run.tile run.ctx e) ∧
    (∀ lead sp, s.newRun run.tile run.ctx lead x e sp = some run → s.bankStatus x run = none → roMode run.desc = 2 →
      ∃ t r, s.routeBegin x run = t ∧ aside { s with tiles := t.tiles, druind := t.druind } t ∧ ctxMade s t run.tile run.ctx e ∧
        t.druind = { s.druind with runs := t.druind.runs, nextRun := s.druind.nextRun + 1 } ∧
        (∀ k, k ≠ s.druind.nextRun → FMap.find? t.druind.runs k = FMap.find? s.druind.runs k) ∧
        FMap.find? t.druind.runs s.druind.nextRun = some r ∧ r.seat = run.seat ∧ r.tile = run.tile ∧ r.ctx = run.ctx ∧
        r.desc = run.desc ∧ r.lead = run.lead ∧ r.bank = run.bank ∧ r.record = run.record ∧ r.members = run.members ∧
        r.status = none)) ∧
  (∀ (s : State) (t c lead ba : Nat) (x : Seat) (e : Exec) (sp : SpaceRec),
    s.quotaAddr x (if sp.bankB then spBankB sp.record else spBankA sp.record) (8 * spE sp.record) = some ba →
    ∃ run, s.newRun t c lead x e sp = some run ∧ run.seat = (s.ctx t c).seat ∧ run.tile = t ∧ run.ctx = c ∧ run.desc = e.desc ∧
      run.lead = lead ∧ run.share = s.engines x ∧ run.record = sp.record ∧ run.bank = s.bytes ba (8 * spE sp.record) ∧
      (roGrant e.desc = false → run.group = none ∧ run.members = [s.fab.node] ∧ run.rank = 0)) ∧
  (∀ (s : State) (x : Seat) (run : RouteRun) (ba : Nat), run.group = none →
    s.quotaAddr x (if run.bankB then spBankB run.record else spBankA run.record) (8 * spE run.record) = some ba →
    (∀ cause, s.rangePoison ba (8 * spE run.record) = some cause → s.bankStatus x run = some (poisonStatus cause)) ∧
    (s.rangePoison ba (8 * spE run.record) = none →
      (s.bankStatus x run = none ↔ (bankOk x s.fab.node run.bank (spE run.record) = true ∧
        ∀ k, k < spE run.record → bkHome run.bank k ∈ run.members)) ∧
      (s.bankStatus x run ≠ none → s.bankStatus x run = some .placementInvalid))) ∧
  (∀ (s : State) (i : Nat), (s.taken i [0x18] = none → exec (.grantCount i) s = .next s) ∧
    (s.taken i [0x19] = none → exec (.grantReply i) s = .next s)) ∧
  (∀ (s z : State) (i rank type : Nat) (c : Instr) (q : Inbound) (grp : Group) (key : Nat) (b : Bytes),
    ((type = 0x18 ∧ c = .grantCount i) ∨ (type = 0x19 ∧ c = .grantReply i)) → s.taken i [type] = some q →
    FMap.find? s.ni.groups (tagGroup q.pkt.tag) = some grp → grp.nodes.idxOf? q.pkt.src = some rank →
    s.epochOf grp.seat = q.pkt.epoch → z = s.dropTaken i false →
    key = (type * 1024 + tagGroup q.pkt.tag) * 65536 + rank → b = FMap.get [] z.druind.gather key ++ q.pkt.payload →
    (b.length < (if b.length < 20 then 24 else 24 + 4 * fld b 16 4) →
      ∃ t, exec c s = .next t ∧ t = { z with druind := { z.druind with gather := t.druind.gather } } ∧
        FMap.get [] t.druind.gather key = (if q.pkt.last then [] else b) ∧
        ∀ k, k ≠ key → FMap.get [] t.druind.gather k = FMap.get [] z.druind.gather k) ∧
    (24 ≤ b.length → 24 + 4 * fld b 16 4 ≤ b.length →
      ∃ y : State, y = { z with druind := { z.druind with gather := y.druind.gather } } ∧ FMap.get [] y.druind.gather key = [] ∧
        (∀ k, k ≠ key → FMap.get [] y.druind.gather k = FMap.get [] z.druind.gather k) ∧
        exec c s = .next (y.grantDeliver (type == 0x19) (tagGroup q.pkt.tag) rank grp (b.take (24 + 4 * fld b 16 4))))) ∧
  (∀ (s : State) (i : Nat) (reply : Bool) (q : Inbound), s.taken i [if reply then 0x19 else 0x18] = some q →
    (FMap.find? s.ni.groups (tagGroup q.pkt.tag) = none ∨ ∃ grp, FMap.find? s.ni.groups (tagGroup q.pkt.tag) = some grp ∧
      (q.pkt.src ∉ grp.nodes ∨ s.epochOf grp.seat ≠ q.pkt.epoch)) →
    ∃ t, exec (if reply then .grantReply i else .grantCount i) s = .next t ∧ counted (s.dropTaken i false) t) ∧
  (∀ (s : State) (reply : Bool) (g rank : Nat) (grp : Group) (b : Bytes),
    let mine (kr : Nat × RouteRun) : Bool := kr.2.group == some g && kr.2.seat == grp.seat &&
      fld kr.2.record 0 2 == fld b 0 2 && kr.2.turn % 2 ^ 32 == fld b 4 4
    (∀ id r, List.find? mine s.druind.runs = some (id, r) →
      ((if reply then (byteAt b 2 < r.round ∨ r.finished = true) else byteAt b 2 < r.decided) →
        counted s (s.grantDeliver reply g rank grp b)) ∧
      (∀ d1 d2, r.finished = false → r.round ≤ byteAt b 2 → r.decided ≤ byteAt b 2 → d1 < r.members.length → d2 < r.members.length →
        msgKey r.decided d1 ≠ msgKey (byteAt b 2) rank → FMap.find? r.counts (msgKey r.decided d1) = none →
        msgKey r.round d2 ≠ msgKey (byteAt b 2) rank → FMap.find? r.replies (msgKey r.round d2) = none →
        ∃ t, s.grantDeliver reply g rank grp b = t ∧ t = { s with druind := { s.druind with runs := t.druind.runs } } ∧
          FMap.find? t.druind.runs id = some (if reply then
            { r with replies := FMap.insert r.replies (msgKey (byteAt b 2) rank) (decodeGrant true b) }
            else { r with counts := FMap.insert r.counts (msgKey (byteAt b 2) rank) (decodeGrant false b) }) ∧
          ∀ k, k ≠ id → FMap.find? t.druind.runs k = FMap.find? s.druind.runs k)) ∧
    (∀ x, List.find? mine s.druind.runs = none → s.seat? grp.seat = some x →
      (seqBefore (fld b 4 4) (x.turn.toNat % 2 ^ 32) = true → counted s (s.grantDeliver reply g rank grp b)) ∧
      (seqBefore (fld b 4 4) (x.turn.toNat % 2 ^ 32) = false → (fld b 4 4 ≠ x.turn.toNat % 2 ^ 32 ∨ fld b 0 2 ∉ x.routed) →
        s.grantDeliver reply g rank grp b = { s with druind := { s.druind with
          early := s.druind.early ++ [{ reply := reply, group := g, rank := rank, bytes := b }] } }))) ∧
  (∀ (s : State) (id : Nat),
    (FMap.find? s.druind.runs id = none → exec (.grantHorizon id) s = .next s) ∧
    (∀ r, FMap.find? s.druind.runs id = some r → (r.finished = true ∨ spRounds r.record ≤ r.round) →
      exec (.grantHorizon id) s = .next s)) ∧
  (∀ (s : State) (id : Nat) (r : RouteRun), FMap.find? s.druind.runs id = some r → r.finished = false → r.decided = r.round + 1 →
    (r.status = none → r.round + 1 = spRounds r.record →
      (∀ d g, d < r.members.length → FMap.find? r.replies (msgKey r.round d) = some g → g.mismatch = 0) →
      ∃ t y, exec (.grantHorizon id) s = .next t ∧ aside { s with druind := { s.druind with runs := t.druind.runs } } t ∧
        FMap.find? t.druind.runs id = some y ∧ y.finished = true ∧ y.round = r.round + 1 ∧ y.grants = r.grants ∧
        (∀ d, d < r.members.length → FMap.find? r.replies (msgKey r.round d) = none → d ∈ y.short) ∧
        ∀ k, k ≠ id → FMap.find? t.druind.runs k = FMap.find? s.druind.runs k) ∧
    (r.round < spRounds r.record → r.status = none →
      (∃ d g, d < r.members.length ∧ FMap.find? r.replies (msgKey r.round d) = some g ∧ (g.mismatch = 1 ∨ g.mismatch = 2)) →
      ∃ st, (st = .descMismatch ∨ st = .placementMismatch) ∧
        (st = .descMismatch ↔ ∃ d g, d < r.members.length ∧ FMap.find? r.replies (msgKey r.round d) = some g ∧ g.mismatch = 1) ∧
        exec (.grantHorizon id) s = .next (((s.routeFault r st).dropRun id).routeStandIn r))) ∧
  (∀ (r : RouteRun) (rank e n : Nat), ∃ g, (grantEntries r rank [(e, n)]).2 = [(e, g)] ∧
    g = (if bkHome r.bank e = r.members.getD r.rank 0 then
      min n (min (FMap.get (bkCap r.bank e) r.rem e)
        (FMap.get (spRxRows r.record + spSpillRows r.record) r.room (bkCluster r.bank e))) else 0) ∧
    FMap.get 0 (grantEntries r rank [(e, n)]).1.received e = (FMap.get 0 r.received e + n) % 2 ^ 32 ∧
    FMap.get 0 (grantEntries r rank [(e, n)]).1.granted e = (FMap.get 0 r.granted e + g) % 2 ^ 32 ∧
    FMap.get 0 (grantEntries r rank [(e, n)]).1.overflowed e = (FMap.get 0 r.overflowed e + (n - g)) % 2 ^ 32 ∧
    FMap.get (bkCap r.bank e) (grantEntries r rank [(e, n)]).1.rem e = FMap.get (bkCap r.bank e) r.rem e - g) ∧
  (∀ (s : State) (id : Nat),
    (FMap.find? s.druind.runs id = none → exec (.routeTablesWritten id) s = .next s) ∧
    (∀ r, FMap.find? s.druind.runs id = some r →
      (s.seat? r.seat = none → exec (.routeTablesWritten id) s = .next (s.dropRun id)) ∧
      (∀ x, s.seat? r.seat = some x → r.finished = false → exec (.routeTablesWritten id) s = .next s) ∧
      (∀ x, s.seat? r.seat = some x → r.finished = true → s.descAddr x (roOut r.desc) (roOutLen r.desc) = none →
        exec (.routeTablesWritten id) s = .next (((s.routeFault r .addrInvalid (roOut r.desc)).dropRun id).routeStandIn r)))) ∧
  (∀ (s : State) (id a : Nat) (r : RouteRun) (x : Seat), FMap.find? s.druind.runs id = some r → s.seat? r.seat = some x →
    r.finished = true → s.descAddr x (roOut r.desc) (roOutLen r.desc) = some a →
      ∃ t, exec (.routeTablesWritten id) s = .next t ∧
        aside { s with mem := t.mem, poison := t.poison, seats := t.seats
                       sync := { s.sync with signals := t.sync.signals }
                       druind := { s.druind with runs := t.druind.runs } } t ∧
        FMap.find? t.druind.runs id = none ∧ (∀ k, k ≠ id → FMap.find? t.druind.runs k = FMap.find? s.druind.runs k) ∧
        (s.rangePoison a 64 = none → t.bytes a 64 = routeHeader r) ∧
        (∀ p, (∀ o ∈ routeOutputs r, p < a + o.1 ∨ a + o.1 + o.2.length ≤ p) → t.byte p = s.byte p) ∧
        (∀ g, dSig r.desc = true → crefTarget x (s.view r.seat r.tile) (dSigRef r.desc) = some g →
          t.sync.signals = s.sync.signals ++ [{ seat := r.seat, target := g, isSet := false,
                                                value := BitVec.ofNat 32 (dSigVal r.desc), tile := s.view r.seat r.tile,
                                                ctx := r.ctx, parks := false }]) ∧
        (dSig r.desc = false → t.sync.signals = s.sync.signals) ∧
        (r.short ≠ [] → ∃ y : Seat, t.seat? r.seat = some y ∧ y.facts = { x.facts with short := true, shortCalls := x.facts.shortCalls + 1 } ∧
          ∀ n, n ≠ r.seat → (t.seat? n).map Seat.quiet = (s.seat? n).map Seat.quiet) ∧
        (r.short = [] → aside { s with mem := t.mem, poison := t.poison
                                       sync := { s.sync with signals := t.sync.signals }
                                       druind := { s.druind with runs := t.druind.runs } } t))

/-! ### Triggers and actions -/

/-- The action of a number ends with a status; every other is as before. -/
def actionGot (s t : State) (id : Nat) (st : Status) : Prop :=
  (∀ a, FMap.find? s.ni.actions id = some a → FMap.find? t.ni.actions id = some { a with begun := true, status := some st }) ∧
  ∀ k, k ≠ id → FMap.find? t.ni.actions k = FMap.find? s.ni.actions k

/-- An action of a hub that has fired in this hc and has not begun. -/
def firedThisHc (s : State) (hub : Nat) (a : Action) : Prop :=
  a.hub = hub ∧ a.fired = s.hcNow ∧ a.begun = false ∧ a.status = none

/-- A memory action ends at once with a status, and nothing else happens. -/
def actionRefused (i : Instr) (s : State) (id : Nat) (st : Status) : Prop :=
  ∃ t, exec i s = .next t ∧ t = { s with ni := { s.ni with actions := t.ni.actions } } ∧ actionGot s t id st

/-- A READ or WRITE moves n bytes from one place to another of the own package, poison among them (R264, R370). -/
def actionMoves (i : Instr) (s : State) (id src dst n : Nat) : Prop :=
  ∃ t, exec i s = .next t ∧ actionGot s t id .success ∧ t.mem = (s.move src dst n).mem ∧ t.poison = (s.move src dst n).poison ∧
    (s.rangePoison src n = none → s.rangePoison dst n = none → t.bytes dst n = s.bytes src n ∧ t.poison = s.poison) ∧
    (∀ b, (b < dst ∨ dst + n ≤ b) → t.byte b = s.byte b) ∧
    aside { s with mem := t.mem, poison := t.poison, ni := { s.ni with actions := t.ni.actions } } t

/-- An ARMED entry fires when its counter has reached the threshold: it is RUNNING, and its action has an engine, or
waits for one of the 256, those of one hc in ascending slot and then seat (R401). SIGNAL adds to a counter once its
unit is backed (R404); READ and WRITE move bytes in the own package, after the operations that wait on their lines,
and ask for them or send them to another node; ATOMIC makes its operation in a store and joins its line's queue in HBM
(R368, R370); TXN queues its parts as one group (R385, R386); a collective joins its group's calls (R405); an address
that the seat does not reach, a misaligned one, poisoned operands and arguments out of their range end an action with
their status. ACTION_END writes the result record of a memory action, frees the entry, adds 1 to NEXT and hands the
engine to the first action that waits (R370, R402). Where the rules leave a point open here, it is the model's reading
(log 32, log 33). -/
def Obligations.ActionsFireAndEnd : Prop :=
  (∀ (s : State) (n hub slot : Nat), (FMap.find? s.ni.triggers (trigKey n hub slot) = none ∨
      ∃ tr, FMap.find? s.ni.triggers (trigKey n hub slot) = some tr ∧
        (tr.running = true ∨ (s.readCtr n (.ni tr.ctr)).toNat < tr.thresh)) →
    exec (.triggerFire n hub slot) s = .next s) ∧
  (∀ (s : State) (n hub slot : Nat) (tr : Trigger), FMap.find? s.ni.triggers (trigKey n hub slot) = some tr → tr.running = false →
    tr.thresh ≤ (s.readCtr n (.ni tr.ctr)).toNat → FMap.risingFrom s.ni.actions 0 = true →
    FMap.find? s.ni.actions s.ni.nextAction = none →
    let new (e : Bool) : Action := { seat := n, hub := hub, slot := slot, trig := tr, fired := s.hcNow, engine := e, begun := false,
                                     outstanding := 0, first := none, status := none, old := 0, perm := none }
    ∃ t, exec (.triggerFire n hub slot) s = .next t ∧
      t = { s with ni := { s.ni with triggers := t.ni.triggers, actions := t.ni.actions, nextAction := s.ni.nextAction + 1,
                                     waiting := t.ni.waiting } } ∧
      FMap.find? t.ni.triggers (trigKey n hub slot) = some { tr with running := true } ∧
      (∀ k, k ≠ trigKey n hub slot → FMap.find? t.ni.triggers k = FMap.find? s.ni.triggers k) ∧
      (∃ e, FMap.find? t.ni.actions s.ni.nextAction = some (new e)) ∧
      (∀ id a, id ≠ s.ni.nextAction → FMap.find? s.ni.actions id = some a →
        (¬ firedThisHc s hub a → FMap.find? t.ni.actions id = some a) ∧
        (firedThisHc s hub a → ∃ e, FMap.find? t.ni.actions id = some { a with engine := e })) ∧
      (∀ i j a b, FMap.find? t.ni.actions i = some a → FMap.find? t.ni.actions j = some b → firedThisHc s hub a →
        firedThisHc s hub b → a.slot * 64 + a.seat < b.slot * 64 + b.seat → b.engine = true → a.engine = true) ∧
      ((∀ id a, FMap.find? s.ni.actions id = some a → ¬ firedThisHc s hub a) →
        let free := decide ((s.ni.actions.filter (fun ka => ka.2.hub == hub && ka.2.engine)).length < 256)
        FMap.find? t.ni.actions s.ni.nextAction = some (new free) ∧
        t.ni.waiting = s.ni.waiting.filter (· ≠ s.ni.nextAction) ++ (if free then [] else [s.ni.nextAction]))) ∧
  (∀ (s : State) (id : Nat), (s.beginning id 0x01 = none → exec (.actionSignal id) s = .next s) ∧
    (s.beginning id 0x10 = none → exec (.actionRead id) s = .next s) ∧ (s.beginning id 0x11 = none → exec (.actionWrite id) s = .next s) ∧
    (s.beginning id 0x12 = none → exec (.actionAtomic id) s = .next s) ∧ (s.beginning id 0x13 = none → exec (.actionTxn id) s = .next s)) ∧
  (∀ (s : State) (id : Nat) (a : Action) (x : Seat), s.beginning id 0x01 = some (a, x) →
    (signalTarget x a.trig.args = none → actionRefused (.actionSignal id) s id .descInvalid) ∧
    (∀ g, signalTarget x a.trig.args = some g →
      (s.targetBacked x g = false → exec (.actionSignal id) s = .next s) ∧
      (s.targetBacked x g = true →
        ∃ t y, exec (.actionSignal id) s = .next t ∧
          signalTakes s y { seat := a.seat, target := g, isSet := false, value := BitVec.ofNat 32 (fld a.trig.args 4 4), tile := 1024,
                            ctx := 0, parks := false } ∧
          t = { y with ni := { y.ni with actions := t.ni.actions } } ∧ actionGot y t id .success))) ∧
  (∀ (s : State) (id code : Nat) (i : Instr) (a : Action) (x : Seat) (b : Bytes) (n : Nat), s.beginning id code = some (a, x) →
    ((code = 0x10 ∧ i = .actionRead id) ∨ (code = 0x11 ∧ i = .actionWrite id)) → b = a.trig.args → n = a.trig.len →
    (s.descAddr x (maLocal b) n = none → actionRefused i s id .addrInvalid) ∧
    (∀ l, s.descAddr x (maLocal b) n = some l →
      (s.ownNode (maTarget b / 2 ^ 48) = true →
        (s.resolve x (maTarget b % 2 ^ 48) n = none → actionRefused i s id .addrInvalid) ∧
        (∀ p, s.resolve x (maTarget b % 2 ^ 48) n = some p →
          (s.linesBusy p n = true → exec i s = .next s) ∧
          (s.linesBusy p n = false → (code = 0x10 → actionMoves i s id p l n) ∧ (code = 0x11 → actionMoves i s id l p n)))) ∧
      (s.ownNode (maTarget b / 2 ^ 48) = false →
        ((maTarget b % 64 ≠ 0 ∨ n % 64 ≠ 0 ∨ n = 0) → actionRefused i s id .addrInvalid) ∧
        (maTarget b % 64 = 0 → n % 64 = 0 → n ≠ 0 →
          (code = 0x10 → exec i s = .next ((s.actionBusy id (cutRange (n + 1) 4096 (maTarget b % 2 ^ 48) 0 n).length).openReads a.hub a.seat
            (maTarget b / 2 ^ 48) a.trig.tclass (maVl b) (maKey b) (maTarget b % 2 ^ 48) l n (maAdaptive b) (.action id))) ∧
          (code = 0x11 → exec i s = .next ((s.actionBusy id (cutRange (n + 1) 4032 (maTarget b % 2 ^ 48) 0 n).length).openWrites a.hub a.seat
            (maTarget b / 2 ^ 48) a.trig.tclass (maVl b) (maKey b) (maTarget b % 2 ^ 48) l n (maAdaptive b) (.action id))))))) ∧
  (∀ (s u : State) (id : Nat) (a : Action) (x : Seat) (b : Bytes) (w : Nat), s.beginning id 0x12 = some (a, x) → b = a.trig.args →
    w = aopWidth (maAop b) →
    u = (if maAop b = 3 ∨ maAop b = 14 ∨ maFetch b = true then
      s.onSeat a.seat (fun q => { q with facts := { q.facts with fpAtomic := true } }) else s) →
    (s.descAddr x (maLocal b) 16 = none → actionRefused (.actionAtomic id) s id .addrInvalid) ∧
    (∀ l, s.descAddr x (maLocal b) 16 = some l →
      (maTarget b % w ≠ 0 → actionRefused (.actionAtomic id) s id .addrInvalid) ∧
      (∀ c, maTarget b % w = 0 → s.rangePoison l 16 = some c → actionRefused (.actionAtomic id) s id (poisonStatus c)) ∧
      (maTarget b % w = 0 → s.rangePoison l 16 = none → s.ownNode (maTarget b / 2 ^ 48) = true →
        (s.resolve x (maTarget b % 2 ^ 48) w = none → ∃ t, exec (.actionAtomic id) s = .next t ∧ actionGot s t id .addrInvalid ∧
          t = { u with ni := { u.ni with actions := t.ni.actions } }) ∧
        (∀ p, s.resolve x (maTarget b % 2 ^ 48) w = some p → p < hbmEnd →
          (s.lineRoom [p / 64 * 64] = false → ∃ t, exec (.actionAtomic id) s = .next t ∧ t = u) ∧
          (s.lineRoom [p / 64 * 64] = true → exec (.actionAtomic id) s = .next ((u.actionBusy id 1).queueAtomic
            { src := s.fab.node, tc := 2, vl := 0, epoch := 0, seq := id, seat := a.seat, hub := a.hub, reliable := false,
              adaptive := false, last := true, owner := some (.action id) } p (maAop b) (leNat (s.bytes l 8)) (leNat (s.bytes (l + 8) 8))
            (maFetch b)))) ∧
        (∀ p, s.resolve x (maTarget b % 2 ^ 48) w = some p → hbmEnd ≤ p → a.outstanding = 0 → a.first = none →
          (s.rangePoison p w ≠ none → ∃ (t : State) (y : Action), exec (.actionAtomic id) s = .next t ∧
            FMap.find? t.ni.actions id = some y ∧ y.status = some .dataPoisoned ∧ t = { u with ni := { u.ni with actions := t.ni.actions } }) ∧
          (s.rangePoison p w = none →
            let old := leNat (s.bytes p w)
            let operand := leNat (s.bytes l 8) % 2 ^ (8 * w)
            ∃ (t : State) (y : Action), exec (.actionAtomic id) s = .next t ∧
              t.bytes p w = natLe w (aopNew (maAop b) old operand (leNat (s.bytes (l + 8) 8))) ∧
              (∀ q, (q < p ∨ p + w ≤ q) → t.byte q = s.byte q) ∧ FMap.find? t.ni.actions id = some y ∧ y.status = some .success ∧
              y.old = (if maFetch b || maAop b == 14 then old else 0) ∧
              (∀ k, k ≠ id → FMap.find? t.ni.actions k = FMap.find? s.ni.actions k) ∧
              aside { u with mem := t.mem, ni := { u.ni with actions := t.ni.actions } } t))) ∧
      (maTarget b % w = 0 → s.rangePoison l 16 = none → s.ownNode (maTarget b / 2 ^ 48) = false →
        let p := mkPacket (maTarget b / 2 ^ 48) 5 2 (maVl b) (maKey b) (s.epochOf a.seat)
          (opHeader (maTarget b % 2 ^ 48) 0 (maAop b) (maFetch b) 0 0 ++ natLe 8 (leNat (s.bytes l 8) % 2 ^ (8 * w)) ++
            natLe 8 (if maAop b = 14 then leNat (s.bytes (l + 8) 8) else 0))
        exec (.actionAtomic id) s = .next ((u.actionBusy id 1).openRequest a.hub a.seat { p with adaptive := maAdaptive b } [] .atomic
          (.action id))))) ∧
  (∀ (s : State) (id : Nat) (a : Action) (x : Seat) (b : Bytes), s.beginning id 0x13 = some (a, x) → b = a.trig.args →
    (s.descAddr x (maLocal b) (128 + a.trig.len) = none → actionRefused (.actionTxn id) s id .addrInvalid) ∧
    (∀ l r n offs, s.descAddr x (maLocal b) (128 + a.trig.len) = some l → r = s.bytes l 128 → n = byteAt r 0 + 1 →
      offs = (List.range n).map (fun i => fld r (8 + 8 * i) 8) →
      (∀ c, s.rangePoison l 128 = some c → actionRefused (.actionTxn id) s id (poisonStatus c)) ∧
      (s.rangePoison l 128 = none → (8 < n ∨ zeros r 1 8 = false ∨ (n ≤ 8 ∧ (zeros r (8 + 8 * n) 72 = false ∨ a.trig.len ≠ 64 * n ∨ ¬ offs.Nodup))) →
        actionRefused (.actionTxn id) s id .descInvalid) ∧
      (s.rangePoison l 128 = none → n ≤ 8 → zeros r 1 8 = true → zeros r (8 + 8 * n) 72 = true → a.trig.len = 64 * n → offs.Nodup →
        ((∃ o ∈ offs, o % 64 ≠ 0) → actionRefused (.actionTxn id) s id .addrInvalid) ∧
        ((∀ o ∈ offs, o % 64 = 0) → s.ownNode (maTarget b / 2 ^ 48) = true →
          ((∃ o ∈ offs, ∀ p, s.resolve x o 64 = some p → hbmEnd ≤ p) → actionRefused (.actionTxn id) s id .addrInvalid) ∧
          (∀ places, offs.map (fun o => s.resolve x o 64) = places.map some → (∀ p ∈ places, p < hbmEnd) →
            (s.lineRoom places = false → exec (.actionTxn id) s = .next s) ∧
            (s.lineRoom places = true → places.Nodup →
              ∃ (t : State) (g : TxnGroup), exec (.actionTxn id) s = .next t ∧ FMap.find? t.ni.txns s.ni.nextTxn = some g ∧ g.parts + 1 = n ∧
                g.have_.map (fun h => (h.line, h.data)) =
                  (List.range n).zipWith (fun i p => (p, s.bytes (l + 128 + 64 * i) 64)) places ∧
                (∀ i h, g.have_[i]? = some h → h.bad = (List.range 64).filterMap (fun j =>
                  (s.wordPoison (wordBase (l + 128 + 64 * i + j))).map (fun c => (j, c)))) ∧
                t = { s with ni := { s.ni with txns := t.ni.txns, nextTxn := s.ni.nextTxn + 1, lineOps := t.ni.lineOps,
                                               actions := t.ni.actions } } ∧
                (∀ k, k ≠ s.ni.nextTxn → FMap.find? t.ni.txns k = FMap.find? s.ni.txns k) ∧
                t.ni.lineOps.length = s.ni.lineOps.length + n ∧
                (∀ o, o ∈ t.ni.lineOps ↔ (o ∈ s.ni.lineOps ∨
                  ∃ p ∈ places, o.line = p ∧ o.work = .txn s.ni.nextTxn ∧ o.from_ = g.from_ ∧ o.hc = s.hcNow)) ∧
                FMap.find? t.ni.actions id = some { a with begun := true, outstanding := a.outstanding + 1 }))) ∧
        ((∀ o ∈ offs, o % 64 = 0) → s.ownNode (maTarget b / 2 ^ 48) = false →
          let part (z : State) (i : Nat) : Packet := { mkPacket (maTarget b / 2 ^ 48) 7 2 (maVl b) (maKey b) (z.epochOf a.seat)
            (opHeader (offs.getD i 0) 63 0 false i (n - 1)) with adaptive := maAdaptive b }
          let sent := (List.range (n - 1)).foldl (fun (z : State) i =>
            (z.startPacket a.hub (some a.seat) (part z i) [(l + 128 + 64 * i, 64)] none).1) (s.actionBusy id 1)
          exec (.actionTxn id) s = .next (sent.openRequest a.hub a.seat (part sent (n - 1)) [(l + 128 + 64 * (n - 1), 64)] .txn
            (.action id)))))) ∧
  (∀ (s : State) (id code : Nat) (i : Instr), (i, code) ∈ [(Instr.actionBroadcast id, 0x20), (.actionAllGather id, 0x21),
      (.actionShift id, 0x22), (.actionPermute id, 0x23), (.actionBarrier id, 0x24)] →
    (s.beginning id code = none → exec i s = .next s) ∧
    (∀ a x, s.beginning id code = some (a, x) →
      (s.groupOf a.seat (caGroup a.trig.args) = none → actionRefused i s id .descInvalid) ∧
      (∀ grp c, s.groupOf a.seat (caGroup a.trig.args) = some grp →
        c = newCall (caSeq a.trig.args) code a.trig.tclass (some id) [] [] (caHorizon a.trig.args) (caArg a.trig.args) (caFmt a.trig.args)
          a.trig.len (caSrc a.trig.args) (caDst a.trig.args) none [] →
        (collArgsOk grp code a.trig.args = false → ∃ t, exec i s = .next t ∧ actionGot s t id .descInvalid ∧
          aside { s with mem := t.mem, poison := t.poison, ni := { s.ni with actions := t.ni.actions } } t) ∧
        (collArgsOk grp code a.trig.args = true →
          s.reachAll x (collPlaces code a.trig.len (grMembers grp.record) a.trig.args) = false →
          ∃ t, exec i s = .next t ∧ actionGot s t id .addrInvalid ∧
            aside { s with mem := t.mem, poison := t.poison, ni := { s.ni with actions := t.ni.actions } } t) ∧
        (collArgsOk grp code a.trig.args = true →
          s.reachAll x (collPlaces code a.trig.len (grMembers grp.record) a.trig.args) = true →
          ∃ t, exec i s = .next t ∧ FMap.find? t.ni.actions id = some { a with begun := true } ∧
            (∀ k, k ≠ id → FMap.find? t.ni.actions k = FMap.find? s.ni.actions k) ∧
            FMap.find? t.ni.groups (caGroup a.trig.args) = some { grp with waiting := grp.waiting ++ [c] } ∧
            (∀ k, k ≠ caGroup a.trig.args → FMap.find? t.ni.groups k = FMap.find? s.ni.groups k) ∧
            t = { s with ni := { s.ni with groups := t.ni.groups, actions := t.ni.actions } })))) ∧
  (∀ (s : State) (id : Nat), (FMap.find? s.ni.actions id = none ∨ ∃ a, FMap.find? s.ni.actions id = some a ∧ a.status = none ∧
      (a.trig.action ≠ 0x28 ∨ a.perm = none)) → exec (.actionEnd id) s = .next s) ∧
  (∀ (s : State) (id : Nat) (a : Action) (st : Status), FMap.find? s.ni.actions id = some a → a.status = some st →
    ∃ t, exec (.actionEnd id) s = .next t ∧ FMap.find? t.ni.actions id = none ∧
      FMap.find? t.ni.triggers (trigKey a.seat a.hub a.slot) = none ∧
      (∀ k, k ≠ trigKey a.seat a.hub a.slot → FMap.find? t.ni.triggers k = FMap.find? s.ni.triggers k) ∧
      (∀ n, a.trig.next = some n → t.readCtr a.seat (.ni n) = s.readCtr a.seat (.ni n) + 1) ∧
      (∀ n, (∀ k, a.trig.next = some k → n ≠ niCtrKey a.seat k) → FMap.get 0 t.ni.ctr n = FMap.get 0 s.ni.ctr n) ∧
      (∀ l1 w l2 b, s.ni.waiting.erase id = l1 ++ w :: l2 → (∀ v ∈ l1, ∀ c, v ≠ id → FMap.find? s.ni.actions v = some c → c.hub ≠ a.hub) →
        w ≠ id → FMap.find? s.ni.actions w = some b → b.hub = a.hub →
        FMap.find? t.ni.actions w = some { b with engine := true } ∧ t.ni.waiting = l1 ++ l2 ∧
        ∀ k, k ≠ id → k ≠ w → FMap.find? t.ni.actions k = FMap.find? s.ni.actions k) ∧
      ((∀ v ∈ s.ni.waiting.erase id, ∀ c, v ≠ id → FMap.find? s.ni.actions v = some c → c.hub ≠ a.hub) →
        t.ni.waiting = s.ni.waiting.erase id ∧ ∀ k, k ≠ id → FMap.find? t.ni.actions k = FMap.find? s.ni.actions k) ∧
      aside { s with
        mem := t.mem
        poison := t.poison
        ni := { s.ni with actions := t.ni.actions, triggers := t.ni.triggers, ctr := t.ni.ctr, waiting := t.ni.waiting } } t ∧
      ((a.trig.action < 0x10 ∨ 0x13 < a.trig.action ∨ maResult a.trig.args = 0) → t.mem = s.mem ∧ t.poison = s.poison) ∧
      (∀ x r, 0x10 ≤ a.trig.action → a.trig.action ≤ 0x13 → maResult a.trig.args ≠ 0 → s.seat? a.seat = some x →
        s.descAddr x (maResult a.trig.args) 16 = some r →
        (s.rangePoison r 16 = none → t.bytes r 16 = natLe 8 a.old ++ natLe 2 (statusCode st) ++ List.replicate 6 0) ∧
        ∀ b, (b < r ∨ r + 16 ≤ b) → t.byte b = s.byte b))

/-! ### Collective calls -/

/-- A receiving stream owes no acknowledgement. -/
def settled (u : State) (k : Nat) : Prop := (u.rxStream k).reliables < 16 ∧ (u.rxStream k).duplicate = false

/-- A packet at a place of the inbox comes from a member, in the epoch of the group's seat (R410). -/
def fromMember (s : State) (i : Nat) (types : List Nat) (q : Inbound) (grp : Group) (rank : Nat) : Prop :=
  s.taken i types = some q ∧ FMap.find? s.ni.groups (tagGroup q.pkt.tag) = some grp ∧ grp.nodes.idxOf? q.pkt.src = some rank ∧
  s.epochOf grp.seat = q.pkt.epoch ∧ settled (s.dropTaken i true) q.pkt.rxKey

/-- It is a packet of the call in progress (R411). -/
def forCall (s : State) (i : Nat) (types : List Nat) (q : Inbound) (grp : Group) (c : Call) (rank : Nat) : Prop :=
  fromMember s i types q grp rank ∧ grp.call = some c ∧ tagInst q.pkt.tag = c.seq % 64

/-- It is the whole of a control record of a step. -/
def wholeRecord (q : Inbound) (grp : Group) (rank step : Nat) : Prop :=
  tagStep q.pkt.tag = step ∧ q.pkt.last = true ∧ FMap.get [] grp.gather (step * 65536 + rank) = []

/-- A call of an action has ended with a status: its group has none in progress, the action ends with it, and its result record
says so (R402, R431). -/
def callEnded (s t : State) (g : Nat) (grp : Group) (c : Call) (st : Status) : Prop :=
  FMap.find? t.ni.groups g = some { grp with call := none, gather := [] } ∧
  (∀ k, k ≠ g → FMap.find? t.ni.groups k = FMap.find? s.ni.groups k) ∧
  ∀ id, c.action = some id → actionGot s t id st ∧ (∀ T, (t.tile T).quiet = (s.tile T).quiet) ∧
    ∀ x ra, s.seat? grp.seat = some x →
      let n := 64 + (grMembers grp.record + 7) / 8
      s.descAddr x (grRecords grp.record + c.seq % 64 * ((n + 63) / 64 * 64)) n = some ra →
      (s.rangePoison ra n = none → leNat (t.bytes ra 2) = statusCode st) ∧
      ∀ b, (b < ra ∨ ra + n ≤ b) → t.byte b = s.byte b

/-- A group's next call begins with its digest and waits for its children's OPENs, or ends at once with DESC_INVALID
where its SEQ is not the next (R411, R412, R417). OPENs are gathered, and the deadline gives up those that have not
come; a FINAL ends a BARRIER, and one that disagrees ends any call with DESC_MISMATCH; data lands where its message
belongs, and waits for the FINAL; CLOSEs are gathered and a FINAL_CLOSE ends a REDUCE; stalls and absences end a call
with MEMBER_LOST and TIMEOUT (R416 to R432). A packet from outside the group, or of an earlier call, is discarded and
counted; one of the next call waits (R410, R411). Where the rules leave a point open here, it is the model's reading
(log 19, log 34). -/
def Obligations.CallsRun : Prop :=
  (∀ (s : State) (i : Nat), (s.taken i [0x11, 0x13] = none → exec (.openRecord i) s = .next s ∧ exec (.finalRecord i) s = .next s) ∧
    (s.taken i [0x11] = none → exec (.closeRecord i) s = .next s ∧ exec (.finalCloseRecord i) s = .next s) ∧
    (s.taken i [0x10] = none → exec (.collData i) s = .next s) ∧
    (∀ q, s.taken i [0x11, 0x13] = some q →
      (tagStep q.pkt.tag ∈ [3, 0x11, 0x13] → exec (.openRecord i) s = .next s) ∧
      (tagStep q.pkt.tag ≠ 0x11 → exec (.finalRecord i) s = .next s)) ∧
    (∀ q, s.taken i [0x11] = some q → (tagStep q.pkt.tag ≠ 3 → exec (.closeRecord i) s = .next s) ∧
      (tagStep q.pkt.tag ≠ 0x13 → exec (.finalCloseRecord i) s = .next s))) ∧
  (∀ (s : State) (g : Nat), s.callOf g = none →
    exec (.agreementDeadline g) s = .next s ∧ exec (.stallExpiry g) s = .next s ∧ exec (.absentResultTimeout g) s = .next s) ∧
  (∀ (s : State) (g : Nat), (FMap.find? s.ni.groups g = none ∨ ∃ grp, FMap.find? s.ni.groups g = some grp ∧
      (grp.call ≠ none ∨ grp.waiting = [] ∨ s.seat? grp.seat = none)) → exec (.callBegin g) s = .next s) ∧
  (∀ (s : State) (g k : Nat) (grp : Group) (c : Call) (rest : List Call) (x : Seat), FMap.find? s.ni.groups g = some grp →
    grp.call = none → grp.waiting = c :: rest → s.seat? grp.seat = some x → c.seq = seqNext grp.lastSeq → c.openSent = false →
    k ∈ treeChildren (grRank grp.record) (grMembers grp.record) → k ∉ x.excluded 1 g c.seq (grMembers grp.record) →
    FMap.find? c.opens k = none →
    ∃ (t : State) (y : Call), exec (.callBegin g) s = .next t ∧ t = { s with ni := { s.ni with groups := t.ni.groups } } ∧
      FMap.find? t.ni.groups g = some { grp with waiting := rest, lastSeq := c.seq, call := some y, gather := [] } ∧
      y = { c with begun := some s.time, digest := callDigest s g grp c, abort := y.abort, gone := y.gone, checked := y.checked } ∧
      ∀ j, j ≠ g → FMap.find? t.ni.groups j = FMap.find? s.ni.groups j) ∧
  (∀ (s : State) (g id : Nat) (grp : Group) (c : Call) (rest : List Call) (x : Seat), FMap.find? s.ni.groups g = some grp →
    grp.call = none → grp.waiting = c :: rest → s.seat? grp.seat = some x → c.seq ≠ seqNext grp.lastSeq → c.action = some id →
    ∃ t, exec (.callBegin g) s = .next t ∧ FMap.find? t.ni.groups g = some { grp with waiting := rest } ∧
      actionGot s t id .descInvalid) ∧
  (∀ (s : State) (i rank k : Nat) (q : Inbound) (grp : Group) (c : Call), forCall s i [0x11, 0x13] q grp c rank →
    wholeRecord q grp rank 1 → c.openSent = false → rank ∈ treeChildren (grRank grp.record) (grMembers grp.record) →
    rank ∉ c.gone → FMap.find? c.opens rank = none → k ∈ treeChildren (grRank grp.record) (grMembers grp.record) → k ≠ rank →
    k ∉ c.gone → FMap.find? c.opens k = none →
    ∃ t, exec (.openRecord i) s = .next t ∧
      t = { s.dropTaken i true with ni := { (s.dropTaken i true).ni with groups := t.ni.groups } } ∧
      FMap.find? t.ni.groups (tagGroup q.pkt.tag) = some { grp with
        gather := FMap.erase grp.gather (65536 + rank)
        call := some { c with opens := FMap.insert c.opens rank (decodeOpen q.pkt.payload) } }) ∧
  (∀ (s : State) (g : Nat) (grp : Group) (c : Call), FMap.find? s.ni.groups g = some grp → grp.call = some c →
    (c.openSent = true → exec (.agreementDeadline g) s = .next s) ∧
    (c.openSent = false → c.abort = none → grRank grp.record ≠ 0 →
      ∃ t, exec (.agreementDeadline g) s = .next t ∧ t.mem = s.mem ∧ t.poison = s.poison ∧
        (∀ T, (t.tile T).quiet = (s.tile T).quiet) ∧
        FMap.find? t.ni.groups g = some { grp with call := some { c with
          openSent := true
          gone := (treeChildren (grRank grp.record) (grMembers grp.record)).filter (fun k => (FMap.find? c.opens k).isNone) } })) ∧
  (∀ (s : State) (i rank : Nat) (q : Inbound) (grp : Group) (c : Call), forCall s i [0x11, 0x13] q grp c rank →
    wholeRecord q grp rank 0x11 → c.final = none → grRank grp.record ≠ 0 → downChildren grp (decodeOpen q.pkt.payload) = [] →
    ((decodeOpen q.pkt.payload).mismatch = true ∨ (decodeOpen q.pkt.payload).digest ≠ c.digest →
      (decodeOpen q.pkt.payload).runs = [] →
      ∃ t, exec (.finalRecord i) s = .next t ∧ callEnded s t (tagGroup q.pkt.tag) grp c .descMismatch) ∧
    ((decodeOpen q.pkt.payload).mismatch = false → (decodeOpen q.pkt.payload).digest = c.digest →
      (decodeOpen q.pkt.payload).runs = [] → c.abort = none → c.kind = 0x24 →
      ∃ t, exec (.finalRecord i) s = .next t ∧ callEnded s t (tagGroup q.pkt.tag) grp c .success)) ∧
  (∀ (s : State) (i rank a : Nat) (q : Inbound) (grp : Group) (c : Call) (f : OpenRec) (x : Seat), forCall s i [0x10] q grp c rank →
    tagStep q.pkt.tag = 0x12 → c.final = some f → c.kind = 0x22 → s.seat? grp.seat = some x → rank ∈ pairSources grp c f →
    rank ∉ c.whole → q.pkt.last = false → q.pkt.bad = [] → q.pkt.payload ≠ [] →
    let got := FMap.get 0 c.landed rank
    let n := q.pkt.payload.length
    got + n < c.len → s.descAddr x (c.dst + got) n = some a → s.rangePoison a n = none →
    ∃ t, exec (.collData i) s = .next t ∧ t.bytes a n = q.pkt.payload ∧ (∀ b, (b < a ∨ a + n ≤ b) → t.byte b = s.byte b) ∧
      aside { s.dropTaken i true with mem := t.mem, ni := { (s.dropTaken i true).ni with groups := t.ni.groups } } t ∧
      FMap.find? t.ni.groups (tagGroup q.pkt.tag) = some { grp with call := some { c with landed := FMap.insert c.landed rank (got + n) } }) ∧
  (∀ (s : State) (i rank : Nat) (q : Inbound) (grp : Group) (c : Call), forCall s i [0x10] q grp c rank →
    tagStep q.pkt.tag = 0x12 → c.final = none → exec (.collData i) s = .next s) ∧
  (∀ (s : State) (i rank : Nat) (q : Inbound) (grp : Group), fromMember s i [0x10] q grp rank → grp.call = none →
    (tagInst q.pkt.tag = seqNext grp.lastSeq % 64 → exec (.collData i) s = .next s) ∧
    (tagInst q.pkt.tag ≠ seqNext grp.lastSeq % 64 → ∃ t, exec (.collData i) s = .next t ∧ counted (s.dropTaken i true) t)) ∧
  (∀ (s : State) (i : Nat) (q : Inbound), s.taken i [0x10] = some q → FMap.find? s.ni.groups (tagGroup q.pkt.tag) = none →
    ∃ t, exec (.collData i) s = .next t ∧ counted (s.dropTaken i false) t) ∧
  (∀ (s : State) (i rank : Nat) (q : Inbound) (grp : Group) (c : Call), forCall s i [0x11] q grp c rank → wholeRecord q grp rank 3 →
    rank ∈ treeChildren (grRank grp.record) (grMembers grp.record) → c.kind = kindReduce → c.formed < 4 * c.len →
    (decodeClose q.pkt.payload).status ≠ statusCode .memberLost →
    ∃ t, exec (.closeRecord i) s = .next t ∧
      t = { s.dropTaken i true with ni := { (s.dropTaken i true).ni with groups := t.ni.groups } } ∧
      FMap.find? t.ni.groups (tagGroup q.pkt.tag) = some { grp with
        gather := FMap.erase grp.gather (3 * 65536 + rank)
        call := some { c with closes := FMap.insert c.closes rank (decodeClose q.pkt.payload) } }) ∧
  (∀ (s : State) (i rank : Nat) (q : Inbound) (grp : Group) (c : Call) (f : OpenRec), forCall s i [0x11] q grp c rank →
    wholeRecord q grp rank 0x13 → c.final = some f → c.finalClose = none → downChildren grp f = [] → rdShape c.desc = 0 →
    (decodeClose q.pkt.payload).status = 0 →
    ∃ t, exec (.finalCloseRecord i) s = .next t ∧
      FMap.find? t.ni.groups (tagGroup q.pkt.tag) = some { grp with call := none, gather := [] }) ∧
  (∀ (s : State) (g : Nat) (grp : Group) (c : Call) (f : OpenRec), FMap.find? s.ni.groups g = some grp → grp.call = some c →
    c.final = some f → f.names (grRank grp.record) = false →
    (c.kind ≠ kindReduce → f.runs = [] → ∃ t, exec (.stallExpiry g) s = .next t ∧ callEnded s t g grp c .memberLost) ∧
    (c.kind = kindReduce → c.closeSent = false → grRank grp.record ≠ 0 → ∃ t, exec (.stallExpiry g) s = .next t ∧
      FMap.find? t.ni.groups g = some { grp with call := some { c with closeSent := true } })) ∧
  (∀ (s : State) (g : Nat) (grp : Group) (c : Call), FMap.find? s.ni.groups g = some grp → grp.call = some c → c.final = none →
    (c.openSent = true → ∃ t, exec (.absentResultTimeout g) s = .next t ∧ callEnded s t g grp c .timeout) ∧
    (c.openSent = false → exec (.absentResultTimeout g) s = .next s)) ∧
  (∀ (s : State) (g : Nat) (grp : Group) (c : Call) (f : OpenRec), FMap.find? s.ni.groups g = some grp → grp.call = some c →
    (c.final = none → exec (.stallExpiry g) s = .next s) ∧
    (c.final = some f → f.names (grRank grp.record) = true →
      exec (.stallExpiry g) s = .next s ∧ ∃ t, exec (.absentResultTimeout g) s = .next t ∧ callEnded s t g grp c .timeout) ∧
    (c.final = some f → f.names (grRank grp.record) = false → exec (.absentResultTimeout g) s = .next s)) ∧
  (∀ (s : State) (i type : Nat) (types : List Nat) (c : Instr) (q : Inbound),
    (c, types, type) ∈ [(Instr.openRecord i, [0x11, 0x13], 1), (.finalRecord i, [0x11, 0x13], 0x11), (.closeRecord i, [0x11], 3),
      (.finalCloseRecord i, [0x11], 0x13)] →
    s.taken i types = some q → tagStep q.pkt.tag = type →
    (FMap.find? s.ni.groups (tagGroup q.pkt.tag) = none ∨ ∃ grp, FMap.find? s.ni.groups (tagGroup q.pkt.tag) = some grp ∧
      (q.pkt.src ∉ grp.nodes ∨ s.epochOf grp.seat ≠ q.pkt.epoch)) →
    ∃ t, exec c s = .next t ∧ counted (s.dropTaken i false) t)

/-! ### Expert exchange -/

/-- An EXCHANGE in one package that passes its checks copies its rows and has received them at once, and signals
RX_CTR; a RETURN whose EXCHANGE has not ended waits for it (R446, R451, R452, R457, R462). PERM_DATA lands in the rows
of its message, waits for its action, or is discarded by a stand-in (R453, R456, R466). The horizon abandons the
messages that are not complete (R455). An EXCHANGE that has received ends once its packets are acknowledged, a RETURN
ends its part, and the combine of the last part ends the action (R457, R462, R463). Where the rules leave a point open
here, it is the model's reading (log 29, log 36). -/
def Obligations.ExchangesRun : Prop :=
  (∀ (s : State) (id : Nat), (s.beginning id 0x28 = none → exec (.exchange id) s = .next s) ∧
    (s.beginning id 0x29 = none → exec (.returnAction id) s = .next s) ∧
    ((FMap.find? s.ni.actions id = none ∨ ∃ a, FMap.find? s.ni.actions id = some a ∧ (a.perm = none ∨ s.seat? a.seat = none ∨
        a.trig.action ≠ 0x29 ∨ a.status ≠ none)) →
      exec (.returnPartEnd id) s = .next s ∧ exec (.combineEnd id) s = .next s) ∧
    ((FMap.find? s.ni.actions id = none ∨ ∃ a, FMap.find? s.ni.actions id = some a ∧ (a.perm = none ∨ s.seat? a.seat = none ∨
        a.status ≠ none ∨ ∃ p, a.perm = some p ∧ (p.waiting = true ∨ p.received = true))) →
      exec (.exchangeHorizon id) s = .next s)) ∧
  (∀ (s : State) (i : Nat), s.taken i [0x12] = none → exec (.permData i) s = .next s) ∧
  (∀ (s : State) (i : Nat) (q : Inbound), s.taken i [0x12] = some q →
    (FMap.find? s.ni.groups (tagGroup q.pkt.tag) = none ∨ ∃ grp, FMap.find? s.ni.groups (tagGroup q.pkt.tag) = some grp ∧
      (q.pkt.src ∉ grp.nodes ∨ s.epochOf grp.seat ≠ q.pkt.epoch)) →
    ∃ t, exec (.permData i) s = .next t ∧ counted (s.dropTaken i false) t) ∧
  (∀ (s : State) (id : Nat) (a : Action) (x : Seat) (st : Status), s.beginning id 0x28 = some (a, x) →
    let v := s.permEnv a x
    s.groupOf a.seat v.group = none → s.isStandIn a.seat x.turn.toNat v.space = false → firstFail (s.permChecks a x v) = some st →
    (∀ kb ∈ s.ni.actions, ∀ r, kb.2.perm = some r → r.waiting = false) →
    ∃ (t : State) (y : Action), exec (.exchange id) s = .next t ∧ FMap.find? t.ni.actions id = some y ∧ y.status = some st ∧
      y.begun = true ∧ ∃ d, t.ni.permDone = s.ni.permDone ++ [d] ∧ d.seat = a.seat ∧ d.kind = 0x28 ∧ d.status = st) ∧
  (∀ (s : State) (id : Nat) (a : Action) (x : Seat) (st : Status), s.beginning id 0x29 = some (a, x) →
    let v := s.permEnv a x
    s.groupOf a.seat v.group = none → s.exchangeDone a.seat x.turn.toNat v.space = none →
    firstFail (s.permChecks a x v ++ s.returnChecks x v) = some st →
    ∃ (t : State) (y : Action), exec (.returnAction id) s = .next t ∧ FMap.find? t.ni.actions id = some y ∧ y.status = some st ∧
      y.begun = true ∧ ∃ d, t.ni.permDone = s.ni.permDone ++ [d] ∧ d.seat = a.seat ∧ d.kind = 0x29 ∧ d.status = st) ∧
  (∀ (s : State) (id : Nat) (a : Action) (x : Seat) (d : PermDone), s.beginning id 0x29 = some (a, x) →
    let v := s.permEnv a x
    s.groupOf a.seat v.group = none → s.exchangeDone a.seat x.turn.toNat v.space = some d → (d.status = .success ∨ d.status = .short) →
    firstFail (s.permChecks a x v ++ s.returnChecks x v) = none → s.ni.allParts = [] → s.permRowsOk x v d.wholeRows = true →
    ∃ (t : State) (p : PermRun), exec (.returnAction id) s = .next t ∧
      FMap.find? t.ni.actions id = some { a with begun := true, perm := some p } ∧ p.waiting = false ∧ p.received = true ∧
      p.turn = x.turn.toNat ∧ p.space = v.space ∧ p.part = v.part ∧ p.cb = v.cb ∧ p.record = v.tab.record ∧
      p.rowsOut = min (s.rowsTo x v d.wholeRows 0).length (s.rowsFrom x v 0).length ∧
      aside { s with mem := t.mem, poison := t.poison, ni := { s.ni with actions := t.ni.actions } } t) ∧
  (∀ (s : State) (id : Nat) (a : Action) (x : Seat), s.beginning id 0x28 = some (a, x) →
    let v := s.permEnv a x
    s.groupOf a.seat v.group = none → s.isStandIn a.seat x.turn.toNat v.space = false → firstFail (s.permChecks a x v) = none →
    s.permRowsOk x v [] = true →
    ∃ (t : State) (p : PermRun), exec (.exchange id) s = .next t ∧
      FMap.find? t.ni.actions id = some { a with begun := true, perm := some p } ∧ p.received = true ∧ p.turn = x.turn.toNat ∧
      p.space = v.space ∧ p.rowsOut = min (s.rowsTo x v [] 0).length (s.rowsFrom x v 0).length ∧
      (exRxCtr a.trig.args ≠ 0xFFFFFFFF →
        t.readCtr a.seat (.ni (exRxCtr a.trig.args)) = s.readCtr a.seat (.ni (exRxCtr a.trig.args)) + 1) ∧
      aside { s with mem := t.mem, poison := t.poison, ni := { s.ni with actions := t.ni.actions, ctr := t.ni.ctr } } t) ∧
  (∀ (s : State) (id : Nat) (a : Action) (x : Seat), s.beginning id 0x29 = some (a, x) →
    let v := s.permEnv a x
    s.exchangeDone a.seat x.turn.toNat v.space = none → firstFail (s.permChecks a x v ++ s.returnChecks x v) = none →
    s.ni.allParts = [] →
    ∃ t, exec (.returnAction id) s = .next t ∧ t = { s with ni := { s.ni with actions := t.ni.actions } } ∧
      FMap.find? t.ni.actions id = some { a with begun := true, perm := some { permStart s x v (s.permMembers a.seat v.group) with waiting := true } }) ∧
  (∀ (s : State) (i r : Nat) (q : Inbound) (grp : Group) (x : Seat), fromMember s i [0x12] q grp r → s.seat? grp.seat = some x →
    let step := tagStep q.pkt.tag
    let here (turn space : Nat) : Bool := turn % 64 == tagInst q.pkt.tag && space % 2048 == step % 2048
    (∀ z, s.ni.standIns.find? (fun z => z.seat == grp.seat && here z.turn z.space) = some z →
      ∃ t, exec (.permData i) s = .next t ∧ counted (s.dropTaken i true) t) ∧
    (s.ni.standIns.find? (fun z => z.seat == grp.seat && here z.turn z.space) = none → (bit step 15 = false ∨ bits step 14 11 ≠ 15) →
      (∀ id a p pl, s.permMatch grp.seat (tagInst q.pkt.tag) step = some (id, a, p) → (p.msgs.getD r {}).end_ = 0 →
        q.pkt.payload ≠ [] → q.pkt.last = false → q.pkt.bad = [] →
        let v := s.permEnv a x
        let got := (p.msgs.getD r {}).got
        let n := q.pkt.payload.length
        got + n < (s.rowsFrom x v r).length * v.row →
        (takePieces (takePieces ((s.rowPlaces x v.row (s.rowsFrom x v r)).getD []) got).2 n).1 = [(pl, n)] →
        s.rangePoison pl n = none →
        ∃ t, exec (.permData i) s = .next t ∧ t.bytes pl n = q.pkt.payload ∧ (∀ b, (b < pl ∨ pl + n ≤ b) → t.byte b = s.byte b) ∧
          aside { s.dropTaken i true with mem := t.mem, ni := { (s.dropTaken i true).ni with actions := t.ni.actions } } t ∧
          ∀ y, FMap.find? s.ni.actions id = some y → FMap.find? t.ni.actions id = some { y with perm := some { p with
            msgs := p.msgs.set r { p.msgs.getD r {} with got := got + n } } }) ∧
      (s.permMatch grp.seat (tagInst q.pkt.tag) step = none → s.ni.permDone = [] → tagInst q.pkt.tag = x.turn.toNat % 64 →
        exec (.permData i) s = .next s))) ∧
  (∀ (s : State) (id : Nat) (a : Action) (p : PermRun) (x : Seat), FMap.find? s.ni.actions id = some a → a.perm = some p →
    s.seat? a.seat = some x → p.waiting = false → p.received = false → a.status = none →
    ∃ (t : State) (y : PermRun), exec (.exchangeHorizon id) s = .next t ∧
      FMap.find? t.ni.actions id = some { a with perm := some y } ∧ y.received = true ∧ y.msgs.length = p.msgs.length ∧
      (∀ r, r < p.msgs.length → (y.msgs.getD r {}).end_ =
        if (p.msgs.getD r {}).end_ = 0 then 3 else (p.msgs.getD r {}).end_) ∧
      aside { s with mem := t.mem, poison := t.poison, ni := { s.ni with actions := t.ni.actions, ctr := t.ni.ctr } } t) ∧
  (∀ (s : State) (id : Nat) (a : Action) (p : PermRun) (x : Seat), FMap.find? s.ni.actions id = some a → a.perm = some p →
    s.seat? a.seat = some x → a.trig.action = 0x28 → a.status = none →
    ((p.received = false ∨ s.permAcked id = false) → exec (.actionEnd id) s = .next s) ∧
    (p.received = true → s.permAcked id = true → (∀ kb ∈ s.ni.actions, ∀ r, kb.2.perm = some r → r.waiting = false) →
      ∃ (t : State) (d : PermDone), exec (.actionEnd id) s = .next t ∧ FMap.find? t.ni.actions id = none ∧
        FMap.find? t.ni.triggers (trigKey a.seat a.hub a.slot) = none ∧ t.ni.permDone = s.ni.permDone ++ [d] ∧ d.seat = a.seat ∧
        d.turn = p.turn ∧ d.space = p.space ∧ d.kind = 0x28 ∧ d.status = permStatus p)) ∧
  (∀ (s : State) (id : Nat) (a : Action) (p : PermRun) (x : Seat), FMap.find? s.ni.actions id = some a → a.perm = some p →
    s.seat? a.seat = some x → a.trig.action = 0x29 → a.status = none →
    (p.waiting = false → p.partOver = false → p.received = true → s.permAcked id = true →
      ∃ (t : State) (d : PermDone), exec (.returnPartEnd id) s = .next t ∧ t.ni.permDone = s.ni.permDone ++ [d] ∧ d.kind = 0x29 ∧
        d.part = p.part ∧ d.status = permStatus p ∧
        d.seat = a.seat ∧ d.turn = p.turn ∧ d.space = p.space ∧
        (p.part + 1 = (s.permEnv a x).parts → FMap.find? t.ni.actions id = some { a with perm := some { p with partOver := true } }) ∧
        (p.part + 1 ≠ (s.permEnv a x).parts → FMap.find? t.ni.actions id = some { a with begun := true, status := some (permStatus p) })) ∧
    ((p.waiting = true ∨ p.partOver = true ∨ p.received = false ∨ s.permAcked id = false) → exec (.returnPartEnd id) s = .next s) ∧
    (p.partOver = true →
      (∀ n, n < (s.permEnv a x).parts → ∃ d ∈ s.ni.permDone, d.seat = a.seat ∧ d.turn = p.turn ∧ d.space = p.space ∧ d.kind = 0x29 ∧ d.part = n) →
      ∃ (t : State) (st : Status), exec (.combineEnd id) s = .next t ∧ (st = permStatus p ∨ (st = .dataPoisoned ∧ permStatus p ≠ .lengthMismatch)) ∧
        FMap.find? t.ni.actions id = some { a with begun := true, status := some st }) ∧
    ((p.partOver = false ∨ ∃ n, n < (s.permEnv a x).parts ∧ ∀ d ∈ s.ni.permDone, ¬ (d.seat = a.seat ∧ d.turn = p.turn ∧ d.space = p.space ∧
        d.kind = 0x29 ∧ d.part = n)) → exec (.combineEnd id) s = .next s))

/-! ### Fabric ports and links -/

/-- One port has become y, and every other port is as before. -/
def portIs (s t : State) (p : Nat) (y : Port) : Prop := t.port p = y ∧ ∀ q, q ≠ p → t.port q = s.port q

/-- Only ports have changed, and what is counted and told. -/
def portsOnly (s t : State) : Prop := aside { s with fab := { s.fab with ports := t.fab.ports } } t

/-- The first control record of a code that waits at a port, and the records that are left without it. -/
def recordIs (s : State) (p code : Nat) (c : Control) (rest : List Control) : Prop :=
  ∃ l1 l2, (s.port p).controlIn = l1 ++ c :: l2 ∧ (∀ x ∈ l1, x.code ≠ code) ∧ c.code = code ∧ rest = l1 ++ l2

/-- A port in UP: an IDLE flit only acknowledges, a bad one or one out of order is discarded and asks once for the one
expected, a CONTROL flit in order leaves its records, a DATA flit in order its bytes, and a whole packet goes to its
stream or to its port, one that fails a check is discarded, and on a module that is not Ready one that is not for it
to take is named in a NOT_READY record (R324, R325, R328, R329, R340, R344, R353, R355). In HANDSHAKE only the records
of good CONTROL flits count; in another state nothing but codewords. Where the rules leave a point open here, it is
the model's reading (log 30, log 65). -/
def Obligations.PortsReceiveFlits : Prop :=
  (∀ (s : State) (p : Nat) (f : Flit), (s.port p).state = .up → f.good = true → f.kind = .idle →
    ∃ t, exec (.flitReceive p f) s = .next t ∧ portsOnly s t ∧
      portIs s t p { (s.port p).acked f.ack with soakBad := (s.port p).soakBad || f.uncorrectable != 0 }) ∧
  (∀ (s : State) (p : Nat) (f : Flit), (s.port p).state = .up →
    (f.good = false ∨ (f.kind ≠ .idle ∧ f.lseq ≠ (s.port p).expected)) →
    ∃ t, exec (.flitReceive p f) s = .next t ∧ portsOnly s t ∧
      portIs s t p { s.port p with
        soakBad := (s.port p).soakBad || f.uncorrectable != 0
        awaiting := true
        controlOut := if (s.port p).awaiting then (s.port p).controlOut
          else (s.port p).controlOut ++ [{ code := 2, body := [0] ++ natLe 2 (s.port p).expected ++ [0, 0, 0, 0] }] }) ∧
  (∀ (s : State) (p : Nat) (f : Flit), (s.port p).state = .up → f.good = true → f.kind = .control → f.lseq = (s.port p).expected →
    ∃ t, exec (.flitReceive p f) s = .next t ∧ portsOnly s t ∧
      portIs s t p { (s.port p).acked f.ack with
        soakBad := (s.port p).soakBad || f.uncorrectable != 0
        expected := (f.lseq + 1) % 4096, accepted := some f.lseq, awaiting := false
        controlIn := (s.port p).controlIn ++ (controlRecords 31 f.payload).filter (fun c => 1 ≤ c.code && c.code ≤ 5) }) ∧
  (∀ (s : State) (p : Nat) (f : Flit), (s.port p).state = .up → f.good = true → f.kind = .data → f.lseq = (s.port p).expected →
    let x := (s.port p).acked f.ack
    let stream := f.tc % 4 * 16 + f.vl % 16
    let ms := (FMap.get [] (s.port p).partials stream).flatMap (·.2) ++ marked f.payload f.bad
    let k := parsePacket ms
    (ms.length < 16 → ∃ t, exec (.flitReceive p f) s = .next t ∧ portsOnly s t ∧
      portIs s t p { x with
        soakBad := (s.port p).soakBad || f.uncorrectable != 0
        expected := (f.lseq + 1) % 4096, accepted := some f.lseq, awaiting := false, nextFlit := x.nextFlit + 1
        flits := FMap.insert x.flits x.nextFlit (stream, f.payload.length)
        partials := FMap.insert x.partials stream (FMap.get [] x.partials stream ++ [(x.nextFlit, marked f.payload f.bad)]) }) ∧
    (packetSize (ms.map (·.1)) = some ms.length → k.ok = true → k.crc = k.pkt.crc →
      (s.mod.state = .ready → k.pkt.dst = s.fab.node → settled s k.pkt.rxKey →
        (unnumbered k.pkt.type = true → ∃ t o, exec (.flitReceive p f) s = .next t ∧ t.mem = s.mem ∧
          t.ni = { s.ni with inbox := s.ni.inbox ++ [{ pkt := k.pkt, port := p, origin := o, at_ := s.time }] }) ∧
        (unnumbered k.pkt.type = false → s.epochCurrent k.pkt.epoch = true → k.pkt.seq = (s.rxStream k.pkt.rxKey).next →
          (s.rxStream k.pkt.rxKey).early = [] → ∃ t o, exec (.flitReceive p f) s = .next t ∧ t.mem = s.mem ∧
            t.ni = { s.ni with
              rx := t.ni.rx, inbox := s.ni.inbox ++ [{ pkt := k.pkt, port := p, origin := o, at_ := s.time }] } ∧
            t.rxStream k.pkt.rxKey = { s.rxStream k.pkt.rxKey with next := seqNext k.pkt.seq } ∧
            ∀ j, j ≠ k.pkt.rxKey → t.rxStream j = s.rxStream j)) ∧
      (∀ r d, s.mod.state = .ready → k.pkt.dst ≠ s.fab.node →
        s.chooseRoute (s.routeEntry p (portHub p) k.pkt.dst) p (portHub p) k.pkt = some (r, d) →
        ∃ t o, exec (.flitReceive p f) s = .next t ∧ t.mem = s.mem ∧ t.ni = s.ni ∧
          (t.port r).queue = (s.port r).queue ++ [{
            req := p, hub := portHub p, seat := none
            pkt := if d then { k.pkt with adaptive := false } else k.pkt
            sent := 0, origin := o }]) ∧
      (s.mod.state = .ready → k.pkt.dst ≠ s.fab.node →
        s.chooseRoute (s.routeEntry p (portHub p) k.pkt.dst) p (portHub p) k.pkt = none →
        ∃ t, exec (.flitReceive p f) s = .next t ∧ portsOnly s t ∧ ∀ r, (t.port r).queue = (s.port r).queue) ∧
      (s.mod.state ≠ .ready → (k.pkt.dst = s.fab.node → k.pkt.type ≠ 0x20 ∧ k.pkt.type ≠ 0x21) → (k.pkt.dst ≠ s.fab.node → k.pkt.tc ≠ 0) →
        ∃ t, exec (.flitReceive p f) s = .next t ∧ portsOnly s t ∧ (∀ r, (t.port r).queue = (s.port r).queue) ∧
          { code := 4, body := [BitVec.ofNat 8 k.pkt.tc] ++ natLe 2 k.pkt.src ++ natLe 2 k.pkt.dst ++ natLe 2 k.pkt.seq } ∈
            (t.port p).controlOut)) ∧
    (packetSize (ms.map (·.1)) = some ms.length → (k.ok = false ∨ k.crc ≠ k.pkt.crc) →
      ∃ t, exec (.flitReceive p f) s = .next t ∧ portsOnly s t ∧ ∀ r, (t.port r).queue = (s.port r).queue)) ∧
  (∀ (s : State) (p : Nat) (f : Flit), (s.port p).state ≠ .up →
    (((s.port p).state ≠ .handshake ∨ f.good = false ∨ f.kind ≠ .control) →
      ∃ t, exec (.flitReceive p f) s = .next t ∧ counted s t) ∧
    ((s.port p).state = .handshake → f.good = true → f.kind = .control →
      ∃ t, exec (.flitReceive p f) s = .next t ∧ portsOnly s t ∧
        portIs s t p { s.port p with controlIn := (s.port p).controlIn ++
          (controlRecords 31 f.payload).filter (fun c => 1 ≤ c.code && c.code ≤ 5) }))

/-- A port in UP sends the flits of a resend run, then control records, then the packets of its queue as their credits
allow, each numbered flit with the next LSEQ and kept for resending; only IDLE in a soak or while the replay buffer is
full; a port in HANDSHAKE sends its records, one in another state nothing (R323 to R327, R349). Records of the partner
grant credits and name the flit to send again; a receiver that still waits repeats its REPLAY, and a sender without
acknowledgement resends from the oldest; more than 16 runs in 1 ms take the port out of UP (R325 to R328). Where the
rules leave a point open here, it is the model's reading (log 18, log 30). -/
def Obligations.PortsSendFlits : Prop :=
  (∀ (s : State) (p i : Nat) (f : Flit), s.ni.tc0 = [] → (s.port p).state = .up → (s.port p).resend = some i →
    (s.port p).replay[i]? = some f →
    ∃ t, exec (.flitSend p) s = .next t ∧
      portIs s t p { s.port p with resend := if i + 1 < (s.port p).replay.length then some (i + 1) else none } ∧
      t.fab.sent = s.fab.sent ++ [(p, { f with ack := (s.port p).accepted.getD 0xFFF })] ∧ t.ni = s.ni ∧ t.mem = s.mem) ∧
  (∀ (s : State) (p : Nat), s.ni.tc0 = [] → (s.port p).state = .up → (s.port p).resend = none →
    ((s.port p).soaking = true ∨ 1024 ≤ (s.port p).replay.length) →
    ∃ t f, exec (.flitSend p) s = .next t ∧ t = { s with fab := { s.fab with sent := s.fab.sent ++ [(p, f)] } } ∧ f.kind = .idle) ∧
  (∀ (s : State) (p : Nat), s.ni.tc0 = [] → (s.port p).state = .up → (s.port p).resend = none → (s.port p).soaking = false →
    (s.port p).replay.length < 1024 → (s.port p).controlOut ≠ [] →
    ∃ t f, exec (.flitSend p) s = .next t ∧ f.kind = .control ∧ f.lseq = (s.port p).nextLseq ∧ f.ack = (s.port p).accepted.getD 0xFFF ∧
      f.payload = ((s.port p).controlOut.take 30).flatMap (fun c => BitVec.ofNat 8 c.code :: c.body) ∧
      portIs s t p { s.port p with
        controlOut := (s.port p).controlOut.drop 30, nextLseq := ((s.port p).nextLseq + 1) % 4096
        replay := (s.port p).replay ++ [f] } ∧
      t.fab.sent = s.fab.sent ++ [(p, f)] ∧ t.ni = s.ni ∧ t.mem = s.mem) ∧
  (∀ (s : State) (p key : Nat) (q : OutPkt), s.ni.tc0 = [] → (s.port p).state = .up → (s.port p).resend = none →
    (s.port p).soaking = false → (s.port p).replay.length < 1024 → (s.port p).controlOut = [] → (s.port p).queue = [q] →
    (q.pkt.tc = 0 ∨ (q.pkt.tc < 4 ∧ 0 < (s.params (portHub p)).weight q.pkt.tc ∧ 1 ≤ (s.port p).wrrClass ∧ (s.port p).wrrClass ≤ 3)) →
    q.pkt.vl < 16 → q.req = 24 → q.sent = 0 → q.pkt.size ≤ 244 → key = q.pkt.tc * 16 + q.pkt.vl →
    ((0 < FMap.get 0 (s.port p).credits key ∨ (q.pkt.tc ≠ 0 ∧ 0 < (s.port p).shared)) →
      ∃ t f, exec (.flitSend p) s = .next t ∧ f.kind = .data ∧ f.tc = q.pkt.tc ∧ f.vl = q.pkt.vl ∧ f.lseq = (s.port p).nextLseq ∧
        f.payload = q.pkt.encode.map (·.1) ∧ t.fab.sent = s.fab.sent ++ [(p, f)] ∧ (t.port p).queue = [] ∧
        (t.port p).replay = (s.port p).replay ++ [f] ∧ (t.port p).nextLseq = ((s.port p).nextLseq + 1) % 4096 ∧
        (0 < FMap.get 0 (s.port p).credits key → FMap.get 0 (t.port p).credits key = FMap.get 0 (s.port p).credits key - 1 ∧
          (t.port p).shared = (s.port p).shared) ∧
        (FMap.get 0 (s.port p).credits key = 0 → (t.port p).shared = (s.port p).shared - 1) ∧
        (∀ n, n ≠ key → FMap.get 0 (t.port p).credits n = FMap.get 0 (s.port p).credits n) ∧
        (∀ r, r ≠ p → t.port r = s.port r) ∧ t.ni = s.ni ∧ t.mem = s.mem) ∧
    (FMap.get 0 (s.port p).credits key = 0 → (q.pkt.tc = 0 ∨ (s.port p).shared = 0) →
      ∃ t f, exec (.flitSend p) s = .next t ∧ f.kind = .idle ∧ t.fab.sent = s.fab.sent ++ [(p, f)] ∧ (∀ r, t.port r = s.port r) ∧
        t.ni = s.ni ∧ t.mem = s.mem)) ∧
  (∀ (s : State) (p : Nat), s.ni.tc0 = [] →
    ((s.port p).state = .handshake → (s.port p).controlOut = [] → exec (.flitSend p) s = .next s) ∧
    ((s.port p).state = .handshake → (s.port p).controlOut ≠ [] → (s.port p).partner = none →
      ∃ t f, exec (.flitSend p) s = .next t ∧ f.kind = .control ∧ f.ack = 0xFFF ∧
        f.payload = ((s.port p).controlOut.take 30).flatMap (fun c => BitVec.ofNat 8 c.code :: c.body) ∧
        t.fab.sent = s.fab.sent ++ [(p, f)] ∧ portIs s t p { s.port p with controlOut := (s.port p).controlOut.drop 30 } ∧
        t.ni = s.ni ∧ t.mem = s.mem) ∧
    ((s.port p).state ≠ .handshake → (s.port p).state ≠ .up → exec (.flitSend p) s = .next s)) ∧
  (∀ (s : State) (p code : Nat) (i : Instr), (i, code) ∈ [(Instr.credit p, 1), (.replay p, 2), (.linkInfo p, 3), (.notReady p, 4),
      (.readyRecord p, 5)] →
    (∀ c ∈ (s.port p).controlIn, c.code ≠ code) → exec i s = .next s) ∧
  (∀ (s : State) (p k : Nat) (c : Control) (rest : List Control), recordIs s p 1 c rest →
    k = byteAt c.body 0 % 4 * 16 + byteAt c.body 0 / 4 % 16 →
    (bit (byteAt c.body 0) 6 = true → ∃ t, exec (.credit p) s = .next t ∧ t = { s with fab := { s.fab with ports := t.fab.ports } } ∧
      portIs s t p { s.port p with controlIn := rest, shared := (s.port p).shared + fld c.body 1 2 }) ∧
    (bit (byteAt c.body 0) 6 = false → (s.port p).state ≠ .handshake →
      ∃ t, exec (.credit p) s = .next t ∧ t = { s with fab := { s.fab with ports := t.fab.ports } } ∧
        portIs s t p { s.port p with
          controlIn := rest
          credits := FMap.put 0 (s.port p).credits k (FMap.get 0 (s.port p).credits k + fld c.body 1 2) }) ∧
    (bit (byteAt c.body 0) 6 = false → (s.port p).state = .handshake → (s.port p).partner = none →
      ∃ t, exec (.credit p) s = .next t ∧ t = { s with fab := { s.fab with ports := t.fab.ports } } ∧
        portIs s t p { s.port p with controlIn := rest, credits := FMap.put 0 (s.port p).credits k (fld c.body 1 2) })) ∧
  (∀ (s : State) (p : Nat) (c : Control) (rest : List Control), recordIs s p 2 c rest →
    (((s.port p).state ≠ .up ∨ ∀ f ∈ (s.port p).replay, f.lseq ≠ fld c.body 1 2 % 4096) →
      ∃ t, exec (.replay p) s = .next t ∧ t = { s with fab := { s.fab with ports := t.fab.ports } } ∧
        portIs s t p { s.port p with controlIn := rest }) ∧
    (∀ i, (s.port p).state = .up → (s.port p).replay.findIdx? (fun f => f.lseq == fld c.body 1 2 % 4096) = some i →
      let times := (s.port p).resendTimes.filter (fun t => s.time ≤ t + 1000 * usUnits) ++ [s.time]
      ∃ t, exec (.replay p) s = .next t ∧
        (times.length ≤ 16 → portsOnly s t ∧
          portIs s t p { s.port p with controlIn := rest, resend := some i, resendTimes := times, soakBad := true }) ∧
        (16 < times.length → (t.port p).state ≠ .up))) ∧
  (∀ (s : State) (p : Nat),
    ((s.port p).awaiting = true → (s.port p).state = .up →
      ∃ t, exec (.replayRepeat p) s = .next t ∧ t = { s with fab := { s.fab with ports := t.fab.ports } } ∧
        portIs s t p { s.port p with controlOut := (s.port p).controlOut ++
          [{ code := 2, body := [0] ++ natLe 2 (s.port p).expected ++ [0, 0, 0, 0] }] }) ∧
    (((s.port p).awaiting = false ∨ (s.port p).state ≠ .up) → exec (.replayRepeat p) s = .next s)) ∧
  (∀ (s : State) (p : Nat),
    let times := (s.port p).resendTimes.filter (fun t => s.time ≤ t + 1000 * usUnits) ++ [s.time]
    ((s.port p).state = .up → (s.port p).replay ≠ [] → ∃ t, exec (.ackStallResend p) s = .next t ∧
      (times.length ≤ 16 → portsOnly s t ∧ portIs s t p { s.port p with resend := some 0, resendTimes := times, soakBad := true }) ∧
      (16 < times.length → (t.port p).state ≠ .up)) ∧
    (((s.port p).state ≠ .up ∨ (s.port p).replay = []) → exec (.ackStallResend p) s = .next s))

/-- A trained port handshakes; a LINK_INFO of another node at most one level away is accepted at the lower level, that
of the own node or of a level further away keeps the port in HANDSHAKE, which is logged once (R330, R333). Loss of a
link in UP is a flap and trains it again, the eighth in 10 s quarantines it with an event; the soak ends in service or
in a doubled hold up to 960 s (R332, R334). NOT_READY holds a port's routes with a doubling backoff, and READY or the
backoff's end lifts the hold (R356). Where the rules leave a point open here, it is the model's reading (log 30). -/
def Obligations.PortsChangeState : Prop :=
  (∀ (s : State) (p : Nat),
    ((s.port p).state = .training → ∃ t, exec (.portTrainingDone p) s = .next t ∧ t = { s with fab := { s.fab with ports := t.fab.ports } } ∧
      portIs s t p { (s.port p).fresh with state := .handshake, condition := none, controlOut := s.handshakeRecords p }) ∧
    ((s.port p).state ≠ .training → exec (.portTrainingDone p) s = .next s) ∧
    ((s.port p).state = .handshake → ∃ t, exec (.handshakeRetry p) s = .next t ∧ t = { s with fab := { s.fab with ports := t.fab.ports } } ∧
      portIs s t p { s.port p with controlOut := s.handshakeRecords p }) ∧
    ((s.port p).state ≠ .handshake → exec (.handshakeRetry p) s = .next s)) ∧
  (∀ (s : State) (p : Nat) (c : Control) (rest : List Control), recordIs s p 3 c rest →
    ((s.port p).state ≠ .handshake → ∃ t, exec (.linkInfo p) s = .next t ∧ t = { s with fab := { s.fab with ports := t.fab.ports } } ∧
      portIs s t p { s.port p with controlIn := rest }) ∧
    ((s.port p).state = .handshake → fld c.body 1 2 ≠ s.fab.node → byteAt c.body 4 ≤ s.cpl + 1 → s.cpl ≤ byteAt c.body 4 + 1 →
      let y := { s.port p with
        controlIn := rest, partner := some (fld c.body 1 2, byteAt c.body 3, byteAt c.body 4), level := min s.cpl (byteAt c.body 4)
        shared := fld c.body 5 2, condition := none }
      ∃ t, exec (.linkInfo p) s = .next t ∧ t = { s with fab := { s.fab with ports := t.fab.ports } } ∧
        (((s.port p).controlOut ≠ [] ∨ (s.port p).credits.length < 52) → portIs s t p y) ∧
        ((s.port p).controlOut = [] → 52 ≤ (s.port p).credits.length → s.mod.state ≠ .ready →
          portIs s t p { y with state := .up, upSince := s.time }) ∧
        ((s.port p).controlOut = [] → 52 ≤ (s.port p).credits.length → s.mod.state = .ready →
          portIs s t p { y with state := .up, upSince := s.time, controlOut := [{ code := 5, body := List.replicate 7 0 }] })) ∧
    (∀ event, (s.port p).state = .handshake → ((event = 0x0403 ∧ fld c.body 1 2 = s.fab.node) ∨
        (event = 0x0404 ∧ fld c.body 1 2 ≠ s.fab.node ∧ (s.cpl + 1 < byteAt c.body 4 ∨ byteAt c.body 4 + 1 < s.cpl))) →
      let what := some (event, fld c.body 1 2, byteAt c.body 4)
      ((s.port p).condition ≠ what → ∃ t, exec (.linkInfo p) s = .next t ∧ portsOnly s t ∧
        portIs s t p { s.port p with controlIn := rest, partner := none, condition := what }) ∧
      ((s.port p).condition = what → ∃ t, exec (.linkInfo p) s = .next t ∧ t = { s with fab := { s.fab with ports := t.fab.ports } } ∧
        portIs s t p { s.port p with controlIn := rest }))) ∧
  (∀ (s : State) (p : Nat) (c : LossCause),
    let flaps := (s.port p).flaps.filter (fun t => s.time ≤ t + 10 * secondUnits) ++ [s.time]
    let hold := if (s.port p).soaking then min 960 (2 * (s.port p).quarantineHold) else (s.port p).quarantineHold
    let st : PortState := if (s.port p).soaking || decide (8 ≤ flaps.length) then .quarantined else .training
    ((s.port p).state = .up → ∃ t, exec (.portLoss p c) s = .next t ∧ (t.port p).state = st ∧ (t.port p).queue = [] ∧
      (t.port p).flaps = flaps ∧ (t.port p).quarantineHold = hold ∧ (t.port p).soaking = false) ∧
    ((s.port p).state = .up → (s.port p).queue = [] → ∃ t, exec (.portLoss p c) s = .next t ∧ portsOnly s t ∧
      portIs s t p { (s.port p).fresh with
        state := st, flaps := flaps, soaking := false, trainingSince := s.time, quarantineHold := hold
        depthHc := (t.port p).depthHc, depths := (t.port p).depths }) ∧
    ((s.port p).state = .handshake → (s.port p).queue = [] → ∃ t, exec (.portLoss p c) s = .next t ∧ portsOnly s t ∧
      portIs s t p { (s.port p).fresh with
        state := .training, trainingSince := s.time, depthHc := (t.port p).depthHc, depths := (t.port p).depths }) ∧
    ((s.port p).state ≠ .up → (s.port p).state ≠ .handshake → exec (.portLoss p c) s = .next s)) ∧
  (∀ (s : State) (p : Nat),
    ((s.port p).state = .quarantined → ∃ t, exec (.quarantineHoldExpiry p) s = .next t ∧
      t = { s with fab := { s.fab with ports := t.fab.ports } } ∧
      portIs s t p { (s.port p).fresh with state := .training, soaking := true, trainingSince := s.time }) ∧
    ((s.port p).state ≠ .quarantined → exec (.quarantineHoldExpiry p) s = .next s)) ∧
  (∀ (s : State) (p : Nat) (ok : Bool), (s.port p).state = .up → (s.port p).soaking = true →
    ∃ t, exec (.soakEnd p ok) s = .next t ∧
      ((ok && !(s.port p).soakBad) = true → portsOnly s t ∧ portIs s t p { s.port p with soaking := false, flaps := [], quarantineHold := 60 }) ∧
      ((ok && !(s.port p).soakBad) = false → (t.port p).state = .quarantined ∧
        (t.port p).quarantineHold = min 960 (2 * (s.port p).quarantineHold))) ∧
  (∀ (s : State) (p : Nat) (ok : Bool), ((s.port p).soaking = false ∨ (s.port p).state ≠ .up) → exec (.soakEnd p ok) s = .next s) ∧
  (∀ (s : State) (p : Nat) (c : Control) (rest : List Control),
    let y := { s.port p with
      controlIn := rest, held := true
      backoff := if (s.port p).backoff = 0 then 10000 else min 163840000 (2 * (s.port p).backoff) }
    (recordIs s p 4 c rest →
      (fld c.body 1 2 ≠ s.fab.node → ∃ t, exec (.notReady p) s = .next t ∧ portsOnly s t ∧ portIs s t p y) ∧
      (fld c.body 1 2 = s.fab.node → ∀ k x u,
        List.find? (fun (kx : Nat × TxStream) => keyNode kx.1 == fld c.body 3 2 && keyTc kx.1 == byteAt c.body 0 % 4 &&
          kx.2.unacked.any (fun t => t.pkt.seq % 65536 == fld c.body 5 2)) s.ni.tx = some (k, x) →
        x.unacked.find? (fun t => t.pkt.seq % 65536 == fld c.body 5 2) = some u →
        ∃ t, exec (.notReady p) s = .next t ∧ portsOnly s t ∧ portIs s t p { y with refused := (s.port p).refused ++ [(k, u.pkt.seq)] }) ∧
      (fld c.body 1 2 = s.fab.node → (∀ kx ∈ s.ni.tx, ¬ (keyNode kx.1 = fld c.body 3 2 ∧ keyTc kx.1 = byteAt c.body 0 % 4 ∧
          ∃ u ∈ kx.2.unacked, u.pkt.seq % 65536 = fld c.body 5 2)) → ∀ id r,
        List.find? (fun (kr : Nat × Request) => kr.2.dst == fld c.body 3 2 && kr.2.tc == byteAt c.body 0 % 4 &&
          kr.2.seq % 65536 == fld c.body 5 2) s.ni.requests = some (id, r) →
        ∃ t, exec (.notReady p) s = .next t ∧ portIs s t p y ∧ FMap.find? t.ni.requests id = none)) ∧
    (recordIs s p 5 c rest → (s.port p).refused = [] → ∃ t, exec (.readyRecord p) s = .next t ∧
      t = { s with fab := { s.fab with ports := t.fab.ports } } ∧
      portIs s t p { s.port p with controlIn := rest, held := false, backoff := 0 })) ∧
  (∀ (s : State) (p : Nat),
    ((s.port p).held = true → (s.port p).refused = [] → ∃ t, exec (.backoffEnd p) s = .next t ∧
      t = { s with fab := { s.fab with ports := t.fab.ports } } ∧ portIs s t p { s.port p with held := false }) ∧
    ((s.port p).held = false → exec (.backoffEnd p) s = .next s))

/-- After the gap time a stream without RELIABLE goes on at the first packet that it holds, a reliable one keeps
waiting (R376). An E2E_ACK frees the packets up to its TAG but for WRITEs; owed acknowledgements go out when the timer
runs; packets without one are sent again, and after 16 runs their stream is given up and its operations end (R438,
R439, R441, R457). -/
def Obligations.StreamsAcknowledgeAndResend : Prop :=
  (∀ (s : State) (k : Nat) (i : Inbound), (s.rxStream k).early = [i] →
    (i.pkt.reliable = true → exec (.gapExpiry k) s = .next s) ∧
    (i.pkt.reliable = false → ∃ t, exec (.gapExpiry k) s = .next t ∧ (t.rxStream k).next = seqNext i.pkt.seq ∧
      (t.rxStream k).early = [] ∧ (∀ j, j ≠ k → t.rxStream j = s.rxStream j) ∧
      aside { s with ni := { s.ni with rx := t.ni.rx, inbox := s.ni.inbox ++ [i] } } t)) ∧
  (∀ (s : State) (k : Nat), (s.rxStream k).early = [] → exec (.gapExpiry k) s = .next s) ∧
  (∀ (s : State) (i : Nat) (q : Inbound), s.taken i [0x14] = some q →
    let k := q.pkt.rxKey
    ∃ t, exec (.e2eAck i) s = .next t ∧
      t = { s.dropTaken i false with ni := { (s.dropTaken i false).ni with tx := t.ni.tx } } ∧
      (t.txStream k).unacked = (s.txStream k).unacked.filter (fun u => u.pkt.type == 3 ||
        !(u.pkt.seq == q.pkt.tag || seqBefore u.pkt.seq q.pkt.tag)) ∧
      (t.txStream k).next = (s.txStream k).next ∧ ∀ j, j ≠ k → t.txStream j = s.txStream j) ∧
  (∀ (s : State) (k p : Nat) (d : Bool), 0 < (s.rxStream k).reliables → keyNode k ≠ s.fab.node →
    let hub := streamHub (keyNode k) (keyVl k)
    s.chooseRoute (s.routeEntry 24 hub (keyNode k)) 24 hub (mkPacket (keyNode k) 0x14 (keyTc k) (keyVl k) 0 0 []) = some (p, d) →
    ∃ t q, exec (.e2eAckTimer k) s = .next t ∧ (t.rxStream k).reliables = 0 ∧ (t.rxStream k).duplicate = false ∧
      (t.port p).queue = (s.port p).queue ++ [q] ∧ q.pkt.type = 0x14 ∧ q.pkt.dst = keyNode k ∧ q.pkt.tag = s.appliedSeq k ∧
      fld q.pkt.payload 0 4 = (s.rxStream k).reliables % 2 ^ 32 ∧ t.mem = s.mem ∧ t.ni.inbox = s.ni.inbox) ∧
  (∀ (s : State) (k : Nat), (s.rxStream k).reliables = 0 → (s.rxStream k).duplicate = false → exec (.e2eAckTimer k) s = .next s) ∧
  (∀ (s : State) (k : Nat), (s.txStream k).unacked ≠ [] → (s.txStream k).runs < 16 →
    ∃ t, exec (.e2eResend k) s = .next t ∧ t.txStream k = { s.txStream k with runs := (s.txStream k).runs + 1 } ∧
      (∀ j, j ≠ k → t.txStream j = s.txStream j) ∧ t.mem = s.mem ∧ t.ni.requests = s.ni.requests) ∧
  (∀ (s : State) (k : Nat), (s.txStream k).unacked = [] → exec (.e2eResend k) s = .next s) ∧
  (∀ (s : State) (k id : Nat) (u : TxPkt) (r : Request), (s.txStream k).unacked = [u] → 16 ≤ (s.txStream k).runs →
    List.find? (fun (kr : Nat × Request) => kr.2.dst == keyNode k && kr.2.tc == keyTc k && kr.2.vl == keyVl k &&
      kr.2.epoch == keyEpoch k && kr.2.seq == u.pkt.seq) s.ni.requests = some (id, r) →
    ∃ t, exec (.e2eResend k) s = .next t ∧ t.txStream k = { s.txStream k with unacked := [], runs := 0 } ∧
      FMap.find? t.ni.requests id = none) ∧
  (∀ (s : State) (k id : Nat) (u : TxPkt) (a : Action) (p : PermRun), (s.txStream k).unacked = [u] → 16 ≤ (s.txStream k).runs →
    (∀ kr ∈ s.ni.requests, ¬ (kr.2.dst = keyNode k ∧ kr.2.tc = keyTc k ∧ kr.2.vl = keyVl k ∧ kr.2.epoch = keyEpoch k ∧
      kr.2.seq = u.pkt.seq)) →
    u.owner = some (.action id) → FMap.find? s.ni.actions id = some a → a.perm = some p →
    ∃ t, exec (.e2eResend k) s = .next t ∧ t.txStream k = { s.txStream k with unacked := [], runs := 0 } ∧
      (∀ j, j ≠ k → t.txStream j = s.txStream j) ∧
      FMap.find? t.ni.actions id = some { a with perm := some { p with lost := p.lost.orElse (fun _ => some .timeout) } } ∧
      t = { s with ni := { s.ni with tx := t.ni.tx, actions := t.ni.actions } }) ∧
  (∀ (s : State) (i : Nat), s.taken i [0x14] = none → exec (.e2eAck i) s = .next s)

/-! ### Memory requests between nodes -/

/-- A response to a packet starts: it is the next of its stream to the packet's source, in the packet's class, lane and epoch, with TAG its
SEQ; it is delivered where that source is this node, else queued at the port that its route names, or discarded where it has none; and
it is kept for a resend where it is reliable (R344, R352, R359, R366, R373). -/
def responseSent (u t : State) (f : OpFrom) (type : Nat) (payload : Bytes) (bad : List Nat) (charged : Bool) : Prop :=
  let k := streamKey f.src f.tc f.vl f.epoch
  let x : Packet := { mkPacket f.src type f.tc f.vl f.seq f.epoch payload with
    src := u.fab.node, seq := (u.txStream k).next, reliable := f.reliable, adaptive := f.adaptive, empty := false, bad := bad }
  (∃ v : State, v = { u with ni := { u.ni with tx := v.ni.tx } } ∧ (v.txStream k).next = seqNext (u.txStream k).next ∧
    (v.txStream k).runs = (u.txStream k).runs ∧ (∀ j, j ≠ k → v.txStream j = u.txStream j) ∧
    (f.reliable = false → (v.txStream k).unacked = (u.txStream k).unacked) ∧
    (f.reliable = true → ∃ y, (v.txStream k).unacked = (u.txStream k).unacked ++ [y] ∧ y.hub = f.hub ∧ y.pkt.type = type ∧
      y.pkt.seq = x.seq ∧ y.pkt.tag = f.seq) ∧
    (f.src = u.fab.node → t = v.deliver { pkt := x, port := 24, origin := [], at_ := u.time }) ∧
    (f.src ≠ u.fab.node → counted { v with fab := { v.fab with ports := t.fab.ports } } t)) ∧
  (f.src ≠ u.fab.node → u.chooseRoute (u.routeEntry 24 f.hub f.src) 24 f.hub x = none → ∀ q, t.port q = u.port q) ∧
  (∀ p d, f.src ≠ u.fab.node → u.chooseRoute (u.routeEntry 24 f.hub f.src) 24 f.hub x = some (p, d) →
    portIs u t p { (u.markDepth p).port p with
      queue := (u.port p).queue ++ [{
        req := 24, hub := f.hub, seat := if charged then some f.seat else none
        pkt := if d then { x with adaptive := false } else x
        sent := 0, origin := [] }] })

/-- A STATUS packet answers a packet (R366). -/
def statusSent (u t : State) (f : OpFrom) (st : Status) : Prop :=
  responseSent u t f 9 (natLe 2 (statusCode st) ++ List.replicate 14 0) [] false

/-- A line operation has left the queue and its line has been accessed, for a write, for a seat. -/
def lineTaken (s u : State) (i seat line : Nat) : Prop :=
  u = ({ s with ni := { s.ni with lineOps := s.ni.lineOps.eraseIdx i } }).homeAccess seat line 64 true ∧
  aside { s with ni := { s.ni with lineOps := s.ni.lineOps.eraseIdx i } } u ∧ u.mem = s.mem ∧ u.poison = s.poison

/-- An atomic has been answered: ATOMIC_DATA with the old value where FETCH asks for it, or STATUS; a local action keeps the old value
and has one part less to wait for (R366, R370). -/
def atomicAnswered (u t : State) (f : OpFrom) (fetch : Bool) (old : Nat) (st : Option Status) : Prop :=
  t = u.answerAtomic f fetch old st ∧
  (f.owner = none → (∀ x, st = some x → statusSent u t f x) ∧
    (st = none → responseSent u t f 6 (natLe 8 (if fetch then old else 0) ++ List.replicate 8 0) [] true)) ∧
  (∀ id a, f.owner = some (.action id) → FMap.find? u.ni.actions id = some a →
    t = { u with ni := { u.ni with actions := t.ni.actions } } ∧
    (∀ k, k ≠ id → FMap.find? t.ni.actions k = FMap.find? u.ni.actions k) ∧
    FMap.find? t.ni.actions id = some { a with
      old := if fetch then old else 0, outstanding := a.outstanding - 1, first := a.first.orElse (fun _ => st)
      status := if a.outstanding - 1 = 0 then some ((a.first.orElse (fun _ => st)).getD .success) else a.status })

/-- A home checks each request in the order of R364; one that fails answers STATUS and does nothing else (R366). A
READ that nothing is before returns its bytes and their poison; a WRITE and an ATOMIC join their lines' queues where
these have room (R371, R372, R378 to R380), an ADD the open group of its line (R381); the parts of a transaction are
held until the last has come, and a group with a part missing or refused writes nothing (R385, R387). A request that
must wait, or that is none, changes nothing. The home applies a line operation that is next for its line and its
streams: a WRITE writes its 64 bytes and clears the poison of the line, a combined group adds its operands in order,
any other atomic writes the new value of R368, each answering the old value where FETCH asks for it, CAS_64 always; a
poisoned line answers DATA_POISONED unchanged; a transaction group, next on all its lines, writes them as one (R366,
R368, R379 to R383, R385). Applied WRITEs are acknowledged at least every 16, and by a timer (R373). The values that
the atomic operations leave, by AOP: sums modulo the width, the smaller or larger of signed, unsigned and binary32
values, a binary32 sum, compare and swap; the reserved codes 0 and 15 fail the header's check and leave the old value
(R368). What two integer sums, or two minima or maxima of one kind, leave does not depend on their order (R382). Where
the rules leave a point open here, it is the model's reading (log 29, log 32, log 68). -/
def Obligations.HomesServeRequests : Prop :=
  ((∀ (s : State) (i : Nat), (s.taken i [1] = none → exec (.read i) s = .next s) ∧ (s.taken i [3] = none → exec (.write i) s = .next s) ∧
     (s.taken i [5] = none → exec (.atomic i) s = .next s) ∧ (s.taken i [7] = none → exec (.txnPart i) s = .next s)) ∧
   (∀ (s : State) (p : Packet),
     (s.windowAt (p.tag % 4096) = none → s.windowCheck p = .error (.keyDenied, 0x9000)) ∧
     (∀ w, s.windowAt (p.tag % 4096) = some w →
       ((w.v = false ∨ w.key ≠ p.tag) → s.windowCheck p = .error (.keyDenied, 0x9000)) ∧
       (w.v = true → w.key = p.tag →
         ((s.epochOf w.seat ≠ p.epoch ∨ s.seat? w.seat = none) → s.windowCheck p = .error (.epochStale, 0x9001)) ∧
         (s.epochOf w.seat = p.epoch → (s.seat? w.seat).isSome = true →
           let allowed := if p.type = 1 then w.rd else if p.type = 3 then w.wr else if p.type = 5 then w.at_ else w.tx
           let fits := opHeaderOk p.type p.payload && decide (ohOffset p.payload + opBytes p.type p.payload ≤ w.size)
           ((p.src &&& w.srcMask ≠ w.srcMatch ∨ allowed = false) → s.windowCheck p = .error (.keyDenied, 0x9000)) ∧
           (p.src &&& w.srcMask = w.srcMatch → allowed = true → fits = false → s.windowCheck p = .error (.addrInvalid, 0x9002)) ∧
           (p.src &&& w.srcMask = w.srcMatch → allowed = true → fits = true →
             s.windowCheck p = .ok (w, w.base + ohOffset p.payload)))))) ∧
   (∀ (s : State) (w : Nat),
     (∀ h old, FMap.find? s.ni.windowsOld w = some (h, old) → h = s.hcNow → s.windowAt w = old) ∧
     ((∀ h old, FMap.find? s.ni.windowsOld w = some (h, old) → h ≠ s.hcNow) → s.windowAt w = FMap.find? s.ni.windows w)) ∧
   (∀ (s u : State) (i code : Nat) (c : Instr) (ty : Nat) (q : Inbound) (st : Status),
     (c, ty) ∈ [(Instr.read i, 1), (.write i, 3), (.atomic i, 5)] → s.taken i [ty] = some q → s.windowCheck q.pkt = .error (st, code) →
     u = (s.dropTaken i true).count code none (streamHub q.pkt.src q.pkt.vl) 1 →
     ∃ v, exec c s = .next (v.ackIfDue q.pkt.rxKey) ∧ statusSent u v (packetFrom q.pkt 0 true) st) ∧
   (∀ (s : State) (i a n : Nat) (q : Inbound) (w : Window), s.taken i [1] = some q → s.windowCheck q.pkt = .ok (w, a) → n = ohLen q.pkt.payload →
     (((∃ o ∈ s.ni.lineOps, o.line ∈ linesOf a n) ∨ s.streamIdle (packetFrom q.pkt w.seat true) = false) → exec (.read i) s = .next s) ∧
     ((∀ o ∈ s.ni.lineOps, o.line ∉ linesOf a n) → s.streamIdle (packetFrom q.pkt w.seat true) = true →
       ∃ u v, exec (.read i) s = .next (v.ackIfDue q.pkt.rxKey) ∧ aside ((s.dropTaken i true).setHome q.pkt.rxKey (homeHub a)) u ∧
         u.mem = s.mem ∧ u.poison = s.poison ∧
         responseSent u v (packetFrom q.pkt w.seat true) 2 (s.bytes a n)
           ((List.range n).filter (fun j => (s.wordPoison (wordBase (a + j))).isSome)) true)) ∧
   (∀ (s : State) (i a n : Nat) (q : Inbound) (w : Window), s.taken i [3] = some q → s.windowCheck q.pkt = .ok (w, a) → n = ohLen q.pkt.payload →
     ((s.homeFree (packetFrom q.pkt w.seat false) q.pkt.rxKey (homeHub a) = false ∨ s.lineRoom (linesOf a n) = false) →
       exec (.write i) s = .next s) ∧
     (s.homeFree (packetFrom q.pkt w.seat false) q.pkt.rxKey (homeHub a) = true → s.lineRoom (linesOf a n) = true →
       exec (.write i) s = .next (((s.dropTaken i true).setHome q.pkt.rxKey (homeHub a)).queueOps ((linesOf a n).map (fun l =>
         { line := l, from_ := packetFrom q.pkt w.seat (l + 64 == a + n)
           work := .write ((q.pkt.payload.drop (16 + (l - a))).take 64) (badFrom q.pkt.bad (16 + (l - a)) 64)
           hc := s.time / hcUnits }))))) ∧
   (∀ (s : State) (i a : Nat) (q : Inbound) (w : Window), s.taken i [5] = some q → s.windowCheck q.pkt = .ok (w, a) →
     (q.pkt.bad ≠ [] → ∃ v, exec (.atomic i) s = .next (v.ackIfDue q.pkt.rxKey) ∧
       statusSent (s.dropTaken i true) v (packetFrom q.pkt w.seat true) .dataPoisoned) ∧
     (q.pkt.bad = [] → (s.homeFree (packetFrom q.pkt w.seat true) q.pkt.rxKey (homeHub a) = false ∨ s.lineRoom [a / 64 * 64] = false) →
       exec (.atomic i) s = .next s) ∧
     (q.pkt.bad = [] → s.homeFree (packetFrom q.pkt w.seat true) q.pkt.rxKey (homeHub a) = true → s.lineRoom [a / 64 * 64] = true →
       exec (.atomic i) s = .next (((s.dropTaken i true).setHome q.pkt.rxKey (homeHub a)).queueAtomic (packetFrom q.pkt w.seat true) a
         (ohAop q.pkt.payload) (fld q.pkt.payload 16 8) (fld q.pkt.payload 24 8) (ohFetch q.pkt.payload)))) ∧
   (∀ (s : State) (f : OpFrom) (a aop x y : Nat) (fetch : Bool) (m : AddMember),
     m = { from_ := f, offset := a % 64, operand := x, width := aopWidth aop, fetch := fetch, hc := s.time / hcUnits } →
     (aop ≠ 1 → aop ≠ 2 → s.queueAtomic f a aop x y fetch =
       s.queueOps [{ line := a / 64 * 64, from_ := f, work := .atomic aop (a % 64) x y fetch, hc := s.time / hcUnits }]) ∧
     ((aop = 1 ∨ aop = 2) →
       (s.openGroup (a / 64 * 64) m = none → s.queueAtomic f a aop x y fetch =
         s.queueOps [{ line := a / 64 * 64, from_ := f, work := .adds [m], hc := s.time / hcUnits }]) ∧
       (∀ j o ms, s.openGroup (a / 64 * 64) m = some (j, o, ms) → s.queueAtomic f a aop x y fetch = { s with
         ni := { s.ni with lineOps := s.ni.lineOps.set j { o with work := .adds (insertMember ms m) } } }))) ∧
   (∀ (s : State) (line j : Nat) (m : AddMember) (o : LineOp) (ms : List AddMember), s.openGroup line m = some (j, o, ms) ↔
     s.ni.lineOps[j]? = some o ∧ o.line = line ∧ o.work = .adds ms ∧ ms.length < 64 ∧
       ∀ i p, j < i → s.ni.lineOps[i]? = some p → p.line ≠ line ∧ ∀ f ∈ p.froms, sameStream f m.from_ = false) ∧
   (∀ (ms : List AddMember) (m : AddMember), ∃ l1 l2, ms = l1 ++ l2 ∧ insertMember ms m = l1 ++ m :: l2 ∧
     let after (q : AddMember) : Prop := q.hc = m.hc ∧ sameStream q.from_ m.from_ = false ∧
       (m.from_.src < q.from_.src ∨ (m.from_.src = q.from_.src ∧ m.from_.seq < q.from_.seq))
     (∀ q ∈ l2, after q) ∧ ∀ q, l1.getLast? = some q → ¬ after q) ∧
   (∀ (s : State) (ops : List LineOp), s.queueOps ops = { s with ni := { s.ni with lineOps := ops.foldl insertOp s.ni.lineOps } }) ∧
   (∀ (ops : List LineOp) (o : LineOp), ∃ l1 l2, ops = l1 ++ l2 ∧ insertOp ops o = l1 ++ o :: l2 ∧
     (∀ q ∈ l2, q.line = o.line → opBefore o q = true) ∧ (∀ q ∈ l2, ∀ f ∈ q.froms, sameStream f o.from_ = false) ∧
     (∀ a q b, l1 = a ++ q :: b → q.line = o.line → opBefore o q = true →
       ∃ z ∈ q :: b, (∃ f ∈ z.froms, sameStream f o.from_ = true) ∨ (z.line = o.line ∧ opBefore o z = false))) ∧
   (∀ (s u : State) (i code : Nat) (q : Inbound) (f : OpFrom) (one : TxnPart) (held : List TxnPart), s.taken i [7] = some q →
     held = (FMap.get [] s.ni.txnParts q.pkt.rxKey).filter (fun h =>
       (q.pkt.seq + 2 ^ 32 - h.seq) % 2 ^ 32 == ohPart q.pkt.payload - h.part && h.part < ohPart q.pkt.payload) →
     ((∃ st, s.windowCheck q.pkt = .error (st, code) ∧ f = packetFrom q.pkt 0 true ∧
         u = (s.dropTaken i true).count code none (streamHub q.pkt.src q.pkt.vl) 1 ∧
         one = { part := ohPart q.pkt.payload, line := 0, data := [], bad := [], seq := q.pkt.seq, status := some st }) ∨
       (∃ w a, s.windowCheck q.pkt = .ok (w, a) ∧ f = packetFrom q.pkt w.seat true ∧ u = s.dropTaken i true ∧
         one = { part := ohPart q.pkt.payload, line := a, data := (q.pkt.payload.drop 16).take 64
                 bad := (badFrom q.pkt.bad 16 64).map (fun b => (b, 3)), seq := q.pkt.seq, status := none })) →
     let all := held ++ [one]
     let parts := ohParts q.pkt.payload
     let rid := { u with ni := { u.ni with txnParts := FMap.put [] u.ni.txnParts q.pkt.rxKey [] } }
     (ohPart q.pkt.payload < parts →
       exec (.txnPart i) s = .next { u with ni := { u.ni with txnParts := FMap.put [] u.ni.txnParts q.pkt.rxKey all } }) ∧
     (parts ≤ ohPart q.pkt.payload →
       (∀ st, all.findSome? (fun h => h.status) = some st → ∃ t, exec (.txnPart i) s = .next t ∧ statusSent rid t f st) ∧
       ((∀ h ∈ all, h.status = none) →
         (all.length ≠ parts + 1 → exec (.txnPart i) s = .next rid) ∧
         (all.length = parts + 1 → s.lineRoom (all.map (·.line)) = false → exec (.txnPart i) s = .next s) ∧
         (all.length = parts + 1 → s.lineRoom (all.map (·.line)) = true → ∃ lines : List Nat,
           lines.Pairwise (· < ·) ∧ (∀ l, l ∈ lines ↔ ∃ h ∈ all, h.line = l) ∧
           exec (.txnPart i) s = .next (({ rid with
             ni := { rid.ni with
               txns := FMap.insert s.ni.txns s.ni.nextTxn { from_ := f, parts := parts, have_ := all }
               nextTxn := s.ni.nextTxn + 1 } }).queueOps (lines.map (fun l =>
                 { line := l, from_ := f, work := .txn s.ni.nextTxn, hc := s.time / hcUnits })))))))) ∧
  ((∀ (s : State) (i : Nat), (s.ni.lineOps[i]? = none → exec (.lineApply i) s = .next s) ∧
     (∀ o, s.ni.lineOps[i]? = some o → s.opNext i o = false → exec (.lineApply i) s = .next s)) ∧
   (∀ (s : State) (i : Nat) (o : LineOp), s.opNext i o = true ↔
     ∀ q ∈ s.ni.lineOps.take i, q.line ≠ o.line ∧ ∀ f ∈ q.froms, ∀ g ∈ o.froms, sameStream f g = true →
       f.seq = g.seq ∧ f.src = g.src ∧ q.work = o.work) ∧
   (∀ (s : State) (i : Nat) (o : LineOp) (data : Bytes) (bad : List Nat), s.ni.lineOps[i]? = some o → s.opNext i o = true →
     o.work = .write data bad →
     ∃ u, lineTaken s u i o.from_.seat o.line ∧ exec (.lineApply i) s = .next ((u.land o.line data bad).writeApplied o.from_) ∧
       (o.line % 64 = 0 → o.line + 64 ≤ hbmEnd → data.length = 64 → (s.stack (stackOf o.line)).withdrawn = false →
         let v := u.land o.line data bad
         v = { u with mem := v.mem, poison := v.poison } ∧ (∀ p, (p < o.line ∨ o.line + 64 ≤ p) → v.byte p = s.byte p) ∧
         (∀ k, k ≠ o.line → v.wordPoison k = s.wordPoison k) ∧
         ((∀ j ∈ bad, 64 ≤ j) → v.bytes o.line 64 = data ∧ v.wordPoison o.line = none) ∧
         ((∃ j ∈ bad, j < 64) → v.wordPoison o.line = some 3))) ∧
   (∀ (s : State) (i : Nat) (o : LineOp) (ms : List AddMember), s.ni.lineOps[i]? = some o → s.opNext i o = true → o.work = .adds ms →
     ∃ u, lineTaken s u i o.from_.seat o.line ∧
       let v := if 1 < ms.length then u.count 0x5004 none (homeHub o.line) 1 else u
       (s.rangePoison o.line 64 ≠ none → exec (.lineApply i) s =
         .next (ms.foldl (fun s m => s.answerAtomic m.from_ m.fetch 0 (some .dataPoisoned)) v)) ∧
       (s.rangePoison o.line 64 = none → exec (.lineApply i) s =
         .next ((ms.zip (applyAdds (s.bytes o.line 64) ms).2).foldl (fun s mo => s.answerAtomic mo.1.from_ mo.1.fetch mo.2 none)
           (v.store o.line (applyAdds (s.bytes o.line 64) ms).1))) ∧
       (∀ m, ms = [m] → m.from_.owner = none → o.line % 64 = 0 → o.line + 64 ≤ hbmEnd → (s.stack (stackOf o.line)).withdrawn = false →
         m.offset + m.width ≤ 64 → s.rangePoison o.line 64 = none →
         let old := leNat (s.bytes (o.line + m.offset) m.width)
         ∃ w t, exec (.lineApply i) s = .next t ∧ w = { u with mem := w.mem } ∧
           w.bytes (o.line + m.offset) m.width = natLe m.width ((old + m.operand) % 2 ^ (8 * m.width)) ∧
           (∀ p, (p < o.line + m.offset ∨ o.line + m.offset + m.width ≤ p) → w.byte p = s.byte p) ∧
           atomicAnswered w t m.from_ m.fetch old none)) ∧
   (∀ (line : Bytes) (ms : List AddMember) (m : AddMember), applyAdds line [] = (line, []) ∧
     applyAdds line (ms ++ [m]) =
       let r := applyAdds line ms
       let old := fld r.1 m.offset m.width
       (splice r.1 m.offset (natLe m.width ((old + m.operand) % 2 ^ (8 * m.width))), r.2 ++ [old])) ∧
   (∀ (s : State) (i aop off x y : Nat) (fetch : Bool) (o : LineOp), s.ni.lineOps[i]? = some o → s.opNext i o = true →
     o.work = .atomic aop off x y fetch →
     ∃ u, lineTaken s u i o.from_.seat o.line ∧
       (s.rangePoison o.line 64 ≠ none → ∃ t, exec (.lineApply i) s = .next t ∧ atomicAnswered u t o.from_ fetch 0 (some .dataPoisoned)) ∧
       (s.rangePoison o.line 64 = none →
         let w := aopWidth aop
         let old := leNat (s.bytes (o.line + off) w)
         let new := natLe w (aopNew aop old (x % 2 ^ (8 * w)) y)
         ∃ t, exec (.lineApply i) s = .next t ∧ atomicAnswered (u.store (o.line + off) new) t o.from_ (fetch || aop == 14) old none ∧
           (o.line % 64 = 0 → o.line + 64 ≤ hbmEnd → off + w ≤ 64 → (s.stack (stackOf o.line)).withdrawn = false →
             t.bytes (o.line + off) w = new ∧ (∀ p, (p < o.line + off ∨ o.line + off + w ≤ p) → t.byte p = s.byte p) ∧
             t.poison = s.poison))) ∧
   (∀ (s : State) (i id : Nat) (o : LineOp), s.ni.lineOps[i]? = some o → s.opNext i o = true → o.work = .txn id →
     (FMap.find? s.ni.txns id = none → exec (.lineApply i) s =
       .next { s with ni := { s.ni with lineOps := s.ni.lineOps.eraseIdx i } }) ∧
     (∀ g, FMap.find? s.ni.txns id = some g →
       ((∃ h ∈ g.have_, ∀ p, s.ni.lineOps.find? (fun p => p.line == h.line) = some p → p.work ≠ .txn id) →
         exec (.lineApply i) s = .next s) ∧
       ((∀ h ∈ g.have_, ∃ p, s.ni.lineOps.find? (fun p => p.line == h.line) = some p ∧ p.work = .txn id) →
         ∃ u : State, aside { s with
             mem := u.mem, poison := u.poison
             ni := { s.ni with txns := FMap.erase s.ni.txns id, lineOps := s.ni.lineOps.filter (fun p => decide (p.work ≠ .txn id)) } } u ∧
           (∀ w, g.from_.owner = some w → exec (.lineApply i) s = .next (u.ownerDone w none 0)) ∧
           (g.from_.owner = none → ∃ t, exec (.lineApply i) s = .next t ∧
             responseSent u t g.from_ 8 ([BitVec.ofNat 8 g.parts] ++ List.replicate 15 0) [] true) ∧
           ((∀ h ∈ g.have_, h.line % 64 = 0 ∧ h.line + 64 ≤ hbmEnd ∧ h.data.length = 64 ∧ ∀ b ∈ h.bad, b.1 < 64) →
             (∀ p, (∀ h ∈ g.have_, p < h.line ∨ h.line + 64 ≤ p) → u.byte p = s.byte p) ∧
             ((g.have_.map (·.line)).Nodup → ∀ h ∈ g.have_, (s.stack (stackOf h.line)).withdrawn = false →
               (h.bad = [] → u.bytes h.line 64 = h.data ∧ u.wordPoison h.line = none) ∧
               (∀ c < 4, h.bad ≠ [] → (∀ b ∈ h.bad, b.2 = c) → u.wordPoison h.line = some c)))))) ∧
   (∀ (u : State) (f : OpFrom), f.owner = none →
     let k := streamKey f.src f.tc f.vl f.epoch
     let r := u.rxStream k
     (f.last = false → u.writeApplied f = u) ∧
     (f.last = true → r.writes < 15 → u.writeApplied f = u.setRx k { r with writes := r.writes + 1, lastWrite := f.seq }) ∧
     (f.last = true → 15 ≤ r.writes → responseSent (u.setRx k { r with writes := 0, lastWrite := f.seq }) (u.writeApplied f) f 4
       (natLe 4 (r.writes + 1) ++ List.replicate 12 0) [] true)) ∧
   (∀ (u : State) (f : OpFrom) (w : Owner), f.owner = some w →
     u.writeApplied f = (if f.last then u.ownerDone w none 0 else u)) ∧
   (∀ (s : State) (k : Nat), ((s.rxStream k).writes = 0 → exec (.writeAckTimer k) s = .next s) ∧
     (0 < (s.rxStream k).writes → ∃ t f, exec (.writeAckTimer k) s = .next t ∧
       f.src = keyNode k ∧ f.tc = keyTc k ∧ f.vl = keyVl k ∧ f.epoch = keyEpoch k ∧ f.seq = (s.rxStream k).lastWrite ∧
       f.hub = streamHub (keyNode k) (keyVl k) ∧ f.reliable = (keyTc k == 3) ∧ f.adaptive = (keyTc k == 3) ∧
       (∀ n z, List.find? (fun (ks : Nat × Seat) => ks.2.epoch.toNat == keyEpoch k) s.seats = some (n, z) → f.seat = n) ∧
       responseSent (s.setRx k { s.rxStream k with writes := 0 }) t f 4 (natLe 4 (s.rxStream k).writes ++ List.replicate 12 0) [] true))) ∧
  ((∀ old x y : Nat, aopNew 0 old x y = old ∧ (∀ n, 15 ≤ n → aopNew n old x y = old) ∧
     aopNew 1 old x y = (old + x) % 2 ^ 32 ∧ aopNew 2 old x y = (old + x) % 2 ^ 64 ∧
     aopNew 3 old x y = (convert 1 .rne false ((decodeElem 1 old).add (decodeElem 1 x)).1).1 ∧
     (old < 2 ^ 32 → x < 2 ^ 32 → aopNew 4 old x y = (if (BitVec.ofNat 32 x).slt (BitVec.ofNat 32 old) then x else old)) ∧
     (old < 2 ^ 32 → x < 2 ^ 32 → aopNew 5 old x y = (if (BitVec.ofNat 32 old).slt (BitVec.ofNat 32 x) then x else old)) ∧
     aopNew 6 old x y = min old x ∧ aopNew 7 old x y = max old x ∧
     (old < 2 ^ 64 → x < 2 ^ 64 → aopNew 8 old x y = (if (BitVec.ofNat 64 x).slt (BitVec.ofNat 64 old) then x else old)) ∧
     (old < 2 ^ 64 → x < 2 ^ 64 → aopNew 9 old x y = (if (BitVec.ofNat 64 old).slt (BitVec.ofNat 64 x) then x else old)) ∧
     aopNew 10 old x y = min old x ∧ aopNew 11 old x y = max old x ∧
     aopNew 12 old x y = (convert 1 .rne false ((decodeElem 1 old).min (decodeElem 1 x))).1 ∧
     aopNew 13 old x y = (convert 1 .rne false ((decodeElem 1 old).max (decodeElem 1 x))).1 ∧
     aopNew 14 old x y = (if old = y then x else old)) ∧
   (∀ n old x y, (n ∈ [1, 2, 6, 7, 10, 11] ∨ (n ∈ [4, 5, 12, 13] ∧ old < 2 ^ 32 ∧ x < 2 ^ 32 ∧ y < 2 ^ 32) ∨
       (n ∈ [8, 9] ∧ old < 2 ^ 64 ∧ x < 2 ^ 64 ∧ y < 2 ^ 64)) →
     aopNew n (aopNew n old x 0) y 0 = aopNew n (aopNew n old y 0) x 0) ∧
   (∀ b : Bytes, (ohAop b = 0 ∨ ohAop b = 15) → opHeaderOk 5 b = false))

/-- A request of an owner has ended: an action has one part less to wait for and keeps its first failure, a COPY faults at a failure and goes on when its
last request has completed, a mirror fetch keeps its failure; nothing else changes (R114, R302, R369, R370). -/
def ownerTold (u t : State) (o : Owner) (st : Option Status) (addr : Nat) : Prop :=
  (∀ id, o = .action id → t = { u with ni := { u.ni with actions := t.ni.actions } } ∧
    (∀ k, k ≠ id → FMap.find? t.ni.actions k = FMap.find? u.ni.actions k) ∧
    ∀ a, FMap.find? u.ni.actions id = some a → FMap.find? t.ni.actions id = some { a with
      outstanding := a.outstanding - 1, first := a.first.orElse (fun _ => st)
      status := if a.outstanding - 1 = 0 then some ((a.first.orElse (fun _ => st)).getD .success) else a.status }) ∧
  (∀ m, o = .mirror m → (st = none → t = u) ∧
    ∀ x, st = some x → t = { u with flash := { u.flash with mirrorFailed := FMap.insert u.flash.mirrorFailed m x } }) ∧
  (∀ n c, o = .ctx n c →
    (∀ x, st = some x → ∃ v : State, v = { u with ni := { u.ni with requests := v.ni.requests } } ∧
      (∀ kr, kr ∈ v.ni.requests ↔ (kr ∈ u.ni.requests ∧ kr.2.owner ≠ o)) ∧
      ((u.ctx n c).state ≠ .parked → t = v) ∧
      ((u.ctx n c).state = .parked → t = v.faultCtx n c x (if x = .addrInvalid then addr else 0))) ∧
    (st = none → (u.owned o = true ∨ (u.ctx n c).state ≠ .parked) → t = u) ∧
    (st = none → u.owned o = false → (u.ctx n c).state = .parked → t = u.markDone n c))

/-- The request of a number has ended, and with it what its owner waited for. -/
def requestEnded (u t : State) (rid : Nat) (r : Request) (st : Option Status) : Prop :=
  ∃ v : State, v = { u with ni := { u.ni with requests := FMap.erase u.ni.requests rid } } ∧ ownerTold v t r.owner st r.addr

/-- A response is a request's by its stream and its TAG, and ends it: READ_DATA lands with its poison, ATOMIC_DATA
brings the old value, TXN_DONE and WRITE_ACK end it with success, STATUS with the status that it carries, and silence
in TC2 with TIMEOUT (R366, R369, R370, R373, R377, R385). A response of an epoch that the seat has left is stale, one
with no request late, and each is counted (R377, R396); data for a COPY waits for what its tile issued before (R103).
Where the rules leave a point open here, it is the model's reading (log 31, log 32). -/
def Obligations.ResponsesEndRequests : Prop :=
  (∀ (s : State) (i ty : Nat) (c : Instr),
    (c, ty) ∈ [(Instr.readData i, 2), (.writeAck i, 4), (.atomicData i, 6), (.txnDone i, 8), (.status i, 9)] →
    s.taken i [ty] = none → exec c s = .next s) ∧
  (∀ (s : State) (i ty : Nat) (c : Instr) (q : Inbound), (c, ty) ∈ [(Instr.readData i, 2), (.atomicData i, 6), (.txnDone i, 8), (.status i, 9)] →
    s.taken i [ty] = some q →
    (s.requestOf q.pkt = none → exec c s = .next (((s.dropTaken i true).count (if s.epochCurrent q.pkt.epoch then 0x9006 else 0x9007) none
      (streamHub q.pkt.src q.pkt.vl) 1).ackIfDue q.pkt.rxKey)) ∧
    (∀ rid r, s.requestOf q.pkt = some (rid, r) → (s.epochOf r.seat ≠ q.pkt.epoch ∨ s.seat? r.seat = none) →
      (ty = 2 → s.landHeld r.owner = false) →
      exec c s = .next (((s.dropTaken i true).dropRequest rid).count 0x9007 none (streamHub q.pkt.src q.pkt.vl) 1))) ∧
  (∀ (s : State) (p : Packet) (rid : Nat) (r : Request), s.requestOf p = some (rid, r) →
    (rid, r) ∈ s.ni.requests ∧ r.dst = p.src ∧ r.tc = p.tc ∧ r.vl = p.vl ∧ r.epoch = p.epoch ∧ r.seq = p.tag) ∧
  (∀ (s : State) (i rid : Nat) (q : Inbound) (r : Request), s.taken i [2] = some q → s.requestOf q.pkt = some (rid, r) →
    FMap.find? s.ni.requests rid = some r →
    (s.landHeld r.owner = true → exec (.readData i) s = .next s) ∧
    (s.landHeld r.owner = false → s.epochOf r.seat = q.pkt.epoch → (s.seat? r.seat).isSome = true →
      (∀ land, r.kind = .read land → ∃ t, exec (.readData i) s = .next (t.ackIfDue q.pkt.rxKey) ∧
        requestEnded ((s.dropTaken i true).landRead q.pkt r land) t rid r none) ∧
      ((∀ land, r.kind ≠ .read land) → exec (.readData i) s = .next ((s.dropTaken i true).ackIfDue q.pkt.rxKey)))) ∧
  (∀ (u : State) (p : Packet) (r : Request) (l : Nat), (∀ m, r.owner ≠ .mirror m) →
    let n := p.payload.length
    let t := u.landRead p r [(l, n)]
    aside { u with mem := t.mem, poison := t.poison } t ∧ (∀ b, (b < l ∨ l + n ≤ b) → wordBase b ≠ wordBase l →
        wordBase b ≠ wordBase (l + n - 1) → t.byte b = u.byte b) ∧
      (p.bad = [] → u.rangePoison l n = none → t.poison = u.poison ∧ (∀ b, (b < l ∨ l + n ≤ b) → t.byte b = u.byte b) ∧
        ((∀ b, l ≤ b → b < l + n → u.lostByte b = false) → t.bytes l n = p.payload)) ∧
      (∀ j ∈ p.bad, j < n → u.lostByte (wordBase (l + j)) = false → t.wordPoison (wordBase (l + j)) = some 3)) ∧
  (∀ (s : State) (i rid : Nat) (q : Inbound) (r : Request), s.taken i [6] = some q → s.requestOf q.pkt = some (rid, r) →
    FMap.find? s.ni.requests rid = some r → s.epochOf r.seat = q.pkt.epoch → (s.seat? r.seat).isSome = true →
    ∃ u t : State, exec (.atomicData i) s = .next (t.ackIfDue q.pkt.rxKey) ∧ requestEnded u t rid r none ∧
      ((∀ id, r.owner ≠ .action id) → u = s.dropTaken i true) ∧
      (∀ id, r.owner = .action id → u = { s.dropTaken i true with
        ni := { (s.dropTaken i true).ni with actions := FMap.upd s.ni.actions id (fun a => { a with old := fld q.pkt.payload 0 8 }) } })) ∧
  (∀ (s : State) (i rid : Nat) (q : Inbound) (r : Request), s.taken i [8] = some q → s.requestOf q.pkt = some (rid, r) →
    FMap.find? s.ni.requests rid = some r → s.epochOf r.seat = q.pkt.epoch → (s.seat? r.seat).isSome = true →
    ∃ t, exec (.txnDone i) s = .next (t.ackIfDue q.pkt.rxKey) ∧ requestEnded (s.dropTaken i true) t rid r none) ∧
  (∀ (s : State) (i rid : Nat) (q : Inbound) (r : Request), s.taken i [9] = some q → s.requestOf q.pkt = some (rid, r) →
    FMap.find? s.ni.requests rid = some r → s.epochOf r.seat = q.pkt.epoch → (s.seat? r.seat).isSome = true →
    ∃ t, exec (.status i) s = .next (t.ackIfDue q.pkt.rxKey) ∧
      requestEnded (s.dropTaken i true) t rid r (some (statusOf (fld q.pkt.payload 0 2))) ∧
      ∀ st : Status, fld q.pkt.payload 0 2 = statusCode st → st ∈ [Status.keyDenied, .epochStale, .addrInvalid, .dataPoisoned, .notReady, .timeout] →
        statusOf (fld q.pkt.payload 0 2) = st) ∧
  (∀ (s u : State) (i : Nat) (q : Inbound) (mine : List (Nat × Request)), s.taken i [4] = some q →
    mine = s.ni.requests.filter (fun kr => decide (kr.2.kind = .write) && kr.2.dst == q.pkt.src && kr.2.tc == q.pkt.tc && kr.2.vl == q.pkt.vl &&
      kr.2.epoch == q.pkt.epoch && (kr.2.seq == q.pkt.tag || seqBefore kr.2.seq q.pkt.tag)) →
    let k := q.pkt.rxKey
    let x := (s.dropTaken i true).txStream k
    let left := x.unacked.filter (fun y => !(y.pkt.type == 3 && (y.pkt.seq == q.pkt.tag || seqBefore y.pkt.seq q.pkt.tag)))
    u = (s.dropTaken i true).setTx k { x with unacked := left, runs := if left.length = x.unacked.length then x.runs else 0 } →
    (mine = [] → exec (.writeAck i) s = .next ((u.count (if s.epochCurrent q.pkt.epoch then 0x9006 else 0x9007) none
      (streamHub q.pkt.src q.pkt.vl) 1).ackIfDue k)) ∧
    (∀ rid r, mine = [(rid, r)] → FMap.find? s.ni.requests rid = some r →
      (s.epochOf r.seat ≠ q.pkt.epoch →
        exec (.writeAck i) s = .next (((u.dropRequest rid).count 0x9007 none (streamHub q.pkt.src q.pkt.vl) 1).ackIfDue k)) ∧
      (s.epochOf r.seat = q.pkt.epoch → ∃ t, exec (.writeAck i) s = .next (t.ackIfDue k) ∧ requestEnded u t rid r none)) ∧
    (mine ≠ [] → exec (.writeAck i) s = .next ((mine.foldl (fun v kr =>
      if v.epochOf kr.2.seat ≠ q.pkt.epoch then (v.dropRequest kr.1).count 0x9007 none (streamHub q.pkt.src q.pkt.vl) 1
      else v.endRequest kr.1 none) u).ackIfDue k))) ∧
  (∀ (s : State) (rid : Nat), (FMap.find? s.ni.requests rid = none → exec (.tc2Timeout rid) s = .next s) ∧
    (∀ r, FMap.find? s.ni.requests rid = some r → (r.tc ≠ 2 → exec (.tc2Timeout rid) s = .next s) ∧
      (r.tc = 2 → ∃ t, exec (.tc2Timeout rid) s = .next t ∧ requestEnded s t rid r (some .timeout)))) ∧
  (∀ (u : State) (k : Nat), let r := u.rxStream k
    (r.reliables < 16 → r.duplicate = false → u.ackIfDue k = u) ∧
    ((16 ≤ r.reliables ∨ r.duplicate = true) →
      ∀ p d, keyNode k ≠ u.fab.node →
        let x : Packet := { mkPacket (keyNode k) 0x14 (keyTc k) (keyVl k) (u.appliedSeq k) (keyEpoch k)
            (natLe 4 r.reliables ++ List.replicate 12 0) with src := u.fab.node }
        u.chooseRoute (u.routeEntry 24 (streamHub (keyNode k) (keyVl k)) (keyNode k)) 24 (streamHub (keyNode k) (keyVl k)) x = some (p, d) →
        let t := u.ackIfDue k
        aside { u with fab := { u.fab with ports := t.fab.ports }, ni := { u.ni with rx := t.ni.rx, tx := t.ni.tx } } t ∧
        t.rxStream k = { r with reliables := 0, duplicate := false } ∧ (∀ j, j ≠ k → t.rxStream j = u.rxStream j) ∧
        (∀ j, t.txStream j = u.txStream j) ∧
        portIs u t p { (u.markDepth p).port p with
          queue := (u.port p).queue ++ [{
            req := 24, hub := streamHub (keyNode k) (keyVl k), seat := none, pkt := x, sent := 0, origin := [] }] }))

/-! ### HBM, counters and flash -/

/-- What a decoder finds in a word: a corrected error leaves memory as it is, an uncorrectable one makes poison of a cause of its word,
and no other word or byte changes (R262 to R265). -/
def decoderFound (s t : State) (w size cause : Nat) (o : EccOutcome) : Prop :=
  aside { s with mem := t.mem, poison := t.poison } t ∧ (o ≠ .uncorrectable → t.mem = s.mem ∧ t.poison = s.poison) ∧
  (o = .uncorrectable → s.lostByte w = false → t.wordPoison w = some cause ∧ (∀ v, v ≠ w → t.wordPoison v = s.wordPoison v) ∧
    ∀ p, (p < w ∨ w + size ≤ p) → t.byte p = s.byte p)

/-- The slots that an access on one channel takes: it waits for what is before it, and for 2 mc more at a change of direction that the
guard does not absorb; one that does not fit in its frame starts in the next, and one that fits no frame in the first data slot of a
frame; each boundary that it waits for or spans is counted (R254). -/
def accessServed (z y : Slots) (arrival c n : Nat) (write : Bool) (over_ : Nat) : Prop :=
  let turned : Bool := FMap.find? z.direction c == some (!write)
  let changes := FMap.get 0 z.changes c + (if turned then 1 else 0)
  let free := max arrival (FMap.get 0 z.used c + (if turned ∧ 9 < changes then 2 else 0))
  let next := (free + 940) / 941 * 941
  FMap.find? y.direction c = some write ∧ FMap.get 0 y.changes c = changes ∧
  (free % 941 + n ≤ 941 → FMap.find? y.used c = some (free + n) ∧ over_ = 0) ∧
  (941 < free % 941 + n → FMap.find? y.used c = some (next + n) ∧ over_ = if n ≤ 941 then 1 else (n - 1) / 941) ∧
  ∀ k, k ≠ c → FMap.find? y.direction k = FMap.find? z.direction k ∧ FMap.get 0 y.changes k = FMap.get 0 z.changes k ∧
    FMap.find? y.used k = FMap.find? z.used k

/-- A scheduled stack's frames begin at HBM_FRAME, and accesses that have gone on keep their slots (R253, R254). An
access takes slots of every stack of its range that is scheduled, those of one mc in the order of R105, and a foreign
one takes the exact time of the kernels on the stack (R251, R254, R258). What the decoder finds has its effect: poison
of cause 0 of a word in HBM, of cause 1 in a tile or cluster store, and nothing else (R262 to R265); the scrubbers go
on from burst to burst (R267). At the end of a bandwidth window LAST and PEAK take it (R595), and a timed snapshot is
taken when its time comes (R602, R603). Where the rules leave a point open here, it is the model's reading (log 29,
log 56, log 60, log 61). -/
def Obligations.MemoryControllersKeepData : Prop :=
  (∀ (s : State) (st : Nat), ((32 ≤ st ∨ (s.stack st).demand = true ∨ (s.stack st).withdrawn = true ∨ s.mod.dawnDone = false) →
      exec (.hbmFrame st) s = .next s) ∧
    (st < 32 → (s.stack st).demand = false → (s.stack st).withdrawn = false → s.mod.dawnDone = true →
      ∃ z : Slots, exec (.hbmFrame st) s = .next (s.setStack st { (s.stack st).newMc (s.time / mcUnits) with
          frameStart := s.time, refreshOdd := !(s.stack st).refreshOdd, slots := z, mcSlots := z }) ∧
        z.direction = [] ∧ z.changes = [] ∧ (FMap.risingFrom (s.stack st).slots.used 0 = true →
          ∀ c, FMap.get 0 z.used c = FMap.get 0 (s.stack st).slots.used c - 941))) ∧
  (∀ (x : Stack) (mc : Nat), x.newMc mc = { x with
    arbPtr := if anyRefused x.arrived then (x.arbPtr + 1) % 11 else x.arbPtr
    arrivedMc := mc, arrived := [], mcSlots := x.slots }) ∧
  (∀ (x : Stack) (now : Nat) (w : HbmWant),
    (x.arrivedMc ≠ now / mcUnits → x.arrive now w = (x.newMc (now / mcUnits)).arrive now w) ∧
    (x.arrivedMc = now / mcUnits → (x.arrive now w).1 = { x with
      arrived := x.arrived ++ [w]
      slots := (arbOrder 11 x.arbPtr HbmWant.req (x.arrived ++ [w])).foldl (fun z v =>
        (z.serve (dataSlotAt (x.arrivedMc - x.frameStart / mcUnits)) v).1) x.mcSlots })) ∧
  (∀ (z : Slots) (arrival c n : Nat) (w : HbmWant), w.need = [(c, n)] →
    accessServed z (z.serve arrival w).1 arrival c n w.write (z.serve arrival w).2) ∧
  (∀ mc, mc < 1024 → dataSlotAt mc = min 941 (mc - 65)) ∧
  (∀ (s : State) (a n : Nat) (kind : AccessKind) (src : AccessSource) (o : EccOutcome),
    ((n = 0 ∨ hbmEnd < a + n ∨ regionOf a ≠ regionOf (a + n - 1)) → exec (.hbmAccess a n kind src o) s = .next s) ∧
    (0 < n → a + n ≤ hbmEnd → regionOf a = regionOf (a + n - 1) →
      ∃ u t, exec (.hbmAccess a n kind src o) s = .next t ∧ decoderFound u t (a / 64 * 64) 64 0 (if kind = .read then o else .clean) ∧
        aside { s with units := { s.units with hbmStacks := u.units.hbmStacks } } u ∧
        (∀ k, (burstsOn k a n = [] ∨ (s.stack k).withdrawn = true ∨ (s.stack k).demand = true) → u.stack k = s.stack k) ∧
        (∀ k, burstsOn k a n ≠ [] → (s.stack k).withdrawn = false → (s.stack k).demand = false →
          u.stack k = ((s.stack k).arrive s.time { req := src.requester, need := burstsOn k a n, write := decide (kind = .write) }).1 ∧
          (src.foreign = true → ∀ m z, (m, z) ∈ s.stackUsers k → ∀ y, (m, y) ∈ u.seats → ∀ r, y.running = some r → r.exact = false)) ∧
        (src.foreign = false → ∀ m z, (m, z) ∈ s.seats → ∃ y, (m, y) ∈ u.seats ∧ y.running = z.running))) ∧
  (∀ (s : State) (st : Nat) (o : EccOutcome),
    ((32 ≤ st ∨ (s.stack st).withdrawn = true ∨ (s.stack st).trained = false) → exec (.hbmScrub st o) s = .next s) ∧
    (st < 32 → (s.stack st).withdrawn = false → (s.stack st).trained = true → (s.stack st).scrubAt < regionBytes / 128 →
      ∃ t, exec (.hbmScrub st o) s = .next t ∧
        decoderFound (s.setStack st { s.stack st with scrubAt := ((s.stack st).scrubAt + 1) % (regionBytes / 128) }) t
          (burstAt st (s.stack st).scrubAt) 64 0 o)) ∧
  (∀ (s : State) (region : Nat) (errors : List (Nat × EccOutcome)) (e : Nat × EccOutcome),
    (16 ≤ region → exec (.sramScrub region errors) s = .next s) ∧ exec (.sramScrub region []) s = .next s ∧
    (∀ u, exec (.sramScrub region errors) s = .next u → exec (.sramScrub region (errors ++ [e])) s = exec (.sramScrub region [e]) u)) ∧
  (∀ (s : State) (region a : Nat) (o : EccOutcome), region < 16 → ∃ t, exec (.sramScrub region [(a, o)]) s = .next t ∧
    (a < clusterBase → aside s t) ∧
    (clusterBase ≤ a → a < tileBase → (a - clusterBase) / clusterBytes / 8 ≠ region → t = s) ∧
    (clusterBase ≤ a → a < tileBase → (a - clusterBase) / clusterBytes / 8 = region → decoderFound s t (a / 8 * 8) 8 1 o) ∧
    (tileBase ≤ a → ((a - tileBase) / tileSlot / 64 ≠ region ∨ tileBytes ≤ (a - tileBase) % tileSlot) → t = s) ∧
    (tileBase ≤ a → (a - tileBase) / tileSlot / 64 = region → (a - tileBase) % tileSlot < tileBytes → decoderFound s t (a / 8 * 8) 8 1 o)) ∧
  (∀ s : State, FMap.risingFrom s.ctrs.bw 0 = true →
    ∃ t, exec .bandwidthWindowEnd s = .next t ∧
      t = { s with ctrs := { s.ctrs with bw := t.ctrs.bw, window := t.ctrs.window, nextWindow := t.ctrs.nextWindow } } ∧
      (∀ k, (FMap.get {} t.ctrs.bw k).cur = 0 ∧ (FMap.get {} t.ctrs.bw k).last = (FMap.get {} s.ctrs.bw k).cur) ∧
      ((s.ctrs.nextWindow = none ∨ ∃ w, s.ctrs.nextWindow = some w ∧ s.ctrs.window < w ∧ s.beat % 2 ^ w ≠ 0) →
        t.ctrs.window = s.ctrs.window ∧ t.ctrs.nextWindow = s.ctrs.nextWindow ∧
        ∀ k, (FMap.get {} t.ctrs.bw k).peak = max (FMap.get {} s.ctrs.bw k).peak (FMap.get {} s.ctrs.bw k).cur) ∧
      (∀ w, s.ctrs.nextWindow = some w → (w ≤ s.ctrs.window ∨ s.beat % 2 ^ w = 0) → t.ctrs.window = w ∧ t.ctrs.nextWindow = none ∧
        ∀ k, (FMap.get {} t.ctrs.bw k).peak = 0)) ∧
  (∀ (s : State) (n : Nat) (x y : Seat) (b : Bytes), s.seat? n = some x → x.snap.time ≠ 0 → s.tk.held = true → x.snap.time ≤ s.sysTime →
    FMap.risingFrom s.seats 0 = true →
    y = { x with pmc := x.pmc.latch s.time s.beat x.snap.late, snap := { x.snap with time := 0, late := false } } →
    b = (s.setSeat n y).snapBytes y ((s.setSeat n y).sections n y none) y.pmc.snapSeq.toNat false true x.snap.late →
    let kept := s.setSeat n { y with snap := { y.snap with last := b } }
    ∃ t, exec (.timedSnapshot n) s = .next t ∧ aside { kept with mem := t.mem, poison := t.poison } t ∧
      (∃ z, t.seat? n = some z ∧ z.pmc.shadow = (x.pmc.settle s.time).ctr ∧ z.pmc.snapSeq = x.pmc.snapSeq + 1) ∧
      b.take 5 = natLe 4 (x.pmc.snapSeq + 1).toNat ++ [BitVec.ofNat 8 (2 + (if x.snap.late then 4 else 0) + (if y.pmc.freeze then 8 else 0))] ∧
      ((x.snap.area = 0 ∨ s.quotaAddr x x.snap.area (min x.snap.len b.length) = none) → t.mem = s.mem ∧ t.poison = s.poison) ∧
      (∀ a, x.snap.area ≠ 0 → s.quotaAddr x x.snap.area (min x.snap.len b.length) = some a →
        t.mem = (s.store a (b.take x.snap.len)).mem ∧ t.poison = (s.store a (b.take x.snap.len)).poison)) ∧
  (∀ (s : State) (n : Nat), (∀ x, s.seat? n = some x → x.snap.time = 0 ∨ s.tk.held = false ∨ s.sysTime < x.snap.time) →
    exec (.timedSnapshot n) s = .next s)

/-- A place where a unit of a fill can land: aligned, in HBM or beyond it, and in no withdrawn stack. -/
def landsAt (s : State) (a : Nat) : Prop :=
  a % 64 = 0 ∧ (a + 4096 ≤ hbmEnd ∨ hbmEnd ≤ a) ∧ ∀ i, i < 4096 → s.lostByte (a + i) = false

/-- A unit's 4,096 bytes have landed at a place, and no other byte is changed. -/
def unitLands (s t : State) (a : Nat) (b : Bytes) : Prop :=
  t.bytes a 4096 = padTo 4096 b ∧ t.rangePoison a 4096 = none ∧ ∀ p, (p < a ∨ a + 4096 ≤ p) → t.byte p = s.byte p

/-- A unit is poison of cause 0b10 at its place, and no other byte is changed. -/
def unitPoisoned (s t : State) (a : Nat) : Prop :=
  (∀ w ∈ wordsOf a 4096, t.wordPoison w = some 2) ∧ ∀ p, (p < a ∨ a + 4096 ≤ p) → t.byte p = s.byte p

/-- The page of a unit of a fill cannot be read: its channel or package has failed, or the position was left empty (R312). -/
def pageLost (s : State) (x : Fill) (i : Nat) : Bool :=
  let key := unitKey x.ns (x.unit i)
  let ch := dataChannel (x.unit i % 56 / 4)
  s.flash.pageGone (FMap.get 0 s.flash.live.map key) ch || (match s.stripe? key with | some z => z.absent.contains ch | none => false)

/-- A unit of a fill is in quarantine (R301). -/
def inQuarantine (s : State) (x : Fill) (i : Nat) : Bool :=
  bit (FMap.get 0 s.flash.live.lost (unitKey x.ns (x.unit i))) (x.unit i % 56)

/-- Where a unit of a fill stands once its stripe has been read: 0, its bytes land; 2 and 4, that step of the recovery; 5, the
mirror; 6, poison at once (R291, R298, R301, R302, R312). -/
def firstStep (s : State) (x : Fill) (failed : List Nat) (i : Nat) : Nat :=
  if unitOf s x.ns (x.unit i) = none then 0
  else if inQuarantine s x i then (if smMirror x.desc then 5 else 6)
  else if pageLost s x i then 4
  else if failed.contains (x.unit i % 56) then 2
  else 0

/-- Of the flash tier only what a fill's reading changes has changed: fills and units in recovery, whose turn it is, the share of background
work, the page reads and their journal records, scheduled moves, and mirror fetches that no route can take. -/
def readOnlyFlash (s t : State) : Prop :=
  t.flash = { s.flash with
    fills := t.flash.fills, units := t.flash.units, nextUnit := t.flash.nextUnit, share := t.flash.share, lastSeat := t.flash.lastSeat
    lastFill := t.flash.lastFill, live := { s.flash.live with reads := t.flash.live.reads }, journal := t.flash.journal
    jseq := t.flash.jseq, moves := t.flash.moves, mirrorFailed := t.flash.mirrorFailed }

/-- A unit of a fill has ended: it is out of recovery, its fill has one unit more done, with an outcome where it was not read, and the
rest of the tier is as said. -/
def unitEnded (s t : State) (k : Nat) (w : UnitWork) (x : Fill) (repairs : List (Nat × Bytes)) (outcome : Option (Nat × Nat)) : Prop :=
  FMap.find? t.flash.units k = none ∧ FMap.find? t.flash.mirrorBytes k = none ∧ FMap.find? t.flash.mirrorFailed k = none ∧
  (∀ j, j ≠ k → FMap.find? t.flash.units j = FMap.find? s.flash.units j) ∧
  (∃ y, FMap.find? t.flash.fills w.fill = some y ∧ y = { x with
    done := x.done + 1, repairs := repairs
    outcomes := match outcome with | some o => FMap.insert x.outcomes w.index o | none => x.outcomes }) ∧
  ∀ j, j ≠ w.fill → FMap.find? t.flash.fills j = FMap.find? s.flash.fills j

/-- A STREAM that reaches its hub is accepted while there is room, or faults (R157, R294, R295). The fills of a hub
take turns, seat by seat, each for one logical stripe. Each unit of the stripe lands as the namespace holds it, an
unmapped one as zeros; one whose page fails goes to step 2, one whose page is gone to step 4, one in quarantine to the
mirror or to poison of cause 0b10 (R291, R296 to R298, R301, R302, R312). A unit in recovery goes from step to step
until it is recovered: it lands as its fill found it, and its block is to be moved; one that a rebuild does not give,
with more than two of its 16 pages missing, goes into quarantine where its stripe is still mapped there, its block is
to be retired, and it goes to the mirror or is poison (R293, R298, R299, R301, R306, R309). A unit taken from the
mirror lands, and is written back where the namespace may be written; a fetch that fails or takes 100 ms leaves poison
(R302, R303). The fill ends when all of its units are done: its event records are appended, its completion signal is
made unless it was stopped, and the repairs wait (R297, R300, R303, R305). Where the rules leave a point open here, it
is the model's reading (log 20). -/
def Obligations.FlashFillsRun : Prop :=
  ((∀ (s : State) (T c : Nat), ((T, c) ∉ s.flash.asks → exec (.fillAccept T c) s = .next s) ∧
     ((T, c) ∈ s.flash.asks → s.inExec T c 6 = none → exec (.fillAccept T c) s =
       .next { s with flash := { s.flash with asks := s.flash.asks.erase (T, c) } })) ∧
   (∀ (s u : State) (T c : Nat) (v : DescEnv) (e : Exec) (here : FMap Fill), (T, c) ∈ s.flash.asks → s.inExec T c 6 = some (v, e) →
     here = s.fillsOf (s.tileHub T) → u = { s with flash := { s.flash with asks := s.flash.asks.erase (T, c) } } →
     (∀ st, s.fillCheck v.seat e.desc = some st → ∃ t, exec (.fillAccept T c) s = .next t ∧
       ctxFaulted u t T c st (if st = .addrInvalid then smDst e.desc else 0)) ∧
     (s.fillCheck v.seat e.desc = none →
       ((256 ≤ here.length ∨ 64 ≤ (here.filter (fun (kf : Nat × Fill) => kf.2.seat == v.seatNo)).length) →
         exec (.fillAccept T c) s = .next s) ∧
       (here.length < 256 → (here.filter (fun (kf : Nat × Fill) => kf.2.seat == v.seatNo)).length < 64 →
         ∃ (t : State) (places : List Nat), exec (.fillAccept T c) s = .next t ∧
           s.fillUnits v.seat (smToSlot e.desc) (smDst e.desc) (smLen e.desc) = some places ∧
           t.flash = { u.flash with
             fills := FMap.insert s.flash.fills s.flash.nextFill {
               seat := v.seatNo, hub := s.tileHub T, desc := e.desc, places := places, ns := (v.seat.ns.getD (0, false)).1
               rw := (v.seat.ns.getD (0, false)).2, turn := v.seat.turn.toNat, next := 0, done := 0, outcomes := [], repairs := []
               view := v.view, ctx := c, stopped := false }
             nextFill := s.flash.nextFill + 1 } ∧
           ctxMade s t T c e ∧
           (∀ n q, s.seat? n = some q → ∃ (y : Seat), t.seat? n = some y ∧ y = { q with fillCtrs := y.fillCtrs } ∧
             (n ≠ v.seatNo → y = q) ∧ (n = v.seatNo → ∀ g, g ∈ y.fillCtrs ↔
               (g ∈ q.fillCtrs ∨ (dSig e.desc = true ∧ crefTarget v.seat v.view (dSigRef e.desc) = some g)))) ∧
           t = { s with flash := t.flash, seats := t.seats, tiles := t.tiles }))) ∧
   (∀ (s : State) (x : Seat) (d : Bytes),
     (s.flash.available = false → s.fillCheck x d = some .flashUnavailable) ∧
     (s.flash.available = true → x.ns = none → s.fillCheck x d = some .namespaceAbsent) ∧
     (∀ ns rw, s.flash.available = true → x.ns = some (ns, rw) →
       ((s.nsBytes ns < smSrc d + smLen d ∨ s.fillUnits x (smToSlot d) (smDst d) (smLen d) = none) → s.fillCheck x d = some .addrInvalid) ∧
       (smSrc d + smLen d ≤ s.nsBytes ns → (s.fillUnits x (smToSlot d) (smDst d) (smLen d)).isSome = true →
         s.fillCheck x d = if smMirror d = true ∧ (smNode d = 0xFFFF ∨ smNode d = s.fab.node) then some .descInvalid else none))) ∧
   (∀ (s : State) (hub : Nat) (failed : List Nat), s.nextFillOf hub = none → exec (.fillStripe hub failed) s = .next s) ∧
   (∀ (s : State) (hub id : Nat) (x : Fill), s.nextFillOf hub = some (id, x) →
     (id, x) ∈ s.flash.fills ∧ x.hub = hub ∧ x.next < x.places.length ∧
     (∀ k z, (k, z) ∈ s.flash.fills → z.hub = hub → z.next < z.places.length → z.seat < 64 →
       (x.seat + 63 - FMap.get 63 s.flash.lastSeat hub % 64) % 64 ≤ (z.seat + 63 - FMap.get 63 s.flash.lastSeat hub % 64) % 64)) ∧
   (∀ (s : State) (hub id n : Nat) (x : Fill) (failed : List Nat), s.nextFillOf hub = some (id, x) → FMap.find? s.flash.fills id = some x →
     n = min (x.places.length - x.next) (56 - x.unit x.next % 56) →
     (∀ i, x.next ≤ i → i < x.next + n → landsAt s (x.places.getD i 0)) →
     (∀ i j, x.next ≤ i → i < j → j < x.next + n →
       x.places.getD i 0 + 4096 ≤ x.places.getD j 0 ∨ x.places.getD j 0 + 4096 ≤ x.places.getD i 0) →
     ∃ (t : State) (y : Fill), exec (.fillStripe hub failed) s = .next t ∧ readOnlyFlash s t ∧
       aside { s with
         mem := t.mem, poison := t.poison, flash := t.flash, fab := { s.fab with ports := t.fab.ports }
         ni := { s.ni with requests := t.ni.requests, nextRequest := t.ni.nextRequest, tx := t.ni.tx, rx := t.ni.rx, inbox := t.ni.inbox } } t ∧
       ((∀ i, x.next ≤ i → i < x.next + n → firstStep s x failed i ≠ 5) →
         aside { s with mem := t.mem, poison := t.poison, flash := t.flash } t ∧ t.flash.mirrorFailed = s.flash.mirrorFailed) ∧
       t.flash.lastSeat = FMap.insert s.flash.lastSeat hub x.seat ∧
       t.flash.lastFill = FMap.insert s.flash.lastFill (hub * 64 + x.seat) id ∧
       FMap.find? t.flash.fills id = some y ∧ (∀ k, k ≠ id → FMap.find? t.flash.fills k = FMap.find? s.flash.fills k) ∧
       y = { x with
         next := x.next + n, outcomes := y.outcomes
         done := x.done + ((List.range n).filter (fun j => [0, 6].contains (firstStep s x failed (x.next + j)))).length } ∧
       (∀ u, u < s.flash.nextUnit → FMap.find? t.flash.units u = FMap.find? s.flash.units u) ∧
       t.flash.nextUnit = s.flash.nextUnit + ((List.range n).filter (fun j => !([0, 6].contains (firstStep s x failed (x.next + j))))).length ∧
       (∀ i, (i < x.next ∨ x.next + n ≤ i ∨ firstStep s x failed i ≠ 6) → FMap.find? y.outcomes i = FMap.find? x.outcomes i) ∧
       (∀ p, (∀ i, x.next ≤ i → i < x.next + n → firstStep s x failed i ∈ [0, 6] →
         p < x.places.getD i 0 ∨ x.places.getD i 0 + 4096 ≤ p) → t.byte p = s.byte p) ∧
       ∀ i, x.next ≤ i → i < x.next + n →
         let k := firstStep s x failed i
         let b := (unitOf s x.ns (x.unit i)).getD []
         (k = 0 → t.bytes (x.places.getD i 0) 4096 = padTo 4096 b ∧ t.rangePoison (x.places.getD i 0) 4096 = none) ∧
         (k = 6 → (∀ w ∈ wordsOf (x.places.getD i 0) 4096, t.wordPoison w = some 2) ∧ FMap.find? y.outcomes i = some (3, 0)) ∧
         (k ≠ 0 → k ≠ 6 → ∃ u, s.flash.nextUnit ≤ u ∧ u < t.flash.nextUnit ∧
           FMap.find? t.flash.units u = some {
             fill := id, index := i, step := k, quarantined := inQuarantine s x i
             place := FMap.get 0 s.flash.live.map (unitKey x.ns (x.unit i)), data := b } ∧
           (k = 5 → t.owned (.mirror u) = true ∨ FMap.find? t.flash.mirrorFailed u = some .noRoute)))) ∧
  ((∀ (s : State) (k : Nat) (r : Recovery), FMap.find? s.flash.units k = none →
     exec (.unitRecovery k r) s = .next s ∧ exec (.mirrorFetchDone k) s = .next s ∧ exec (.mirrorFetchTimeout k) s = .next s) ∧
   (∀ (s : State) (k : Nat) (w : UnitWork) (r : Recovery), FMap.find? s.flash.units k = some w → FMap.find? s.flash.fills w.fill = none →
     let gone := { s with flash := { s.flash with
       units := FMap.erase s.flash.units k, mirrorBytes := FMap.erase s.flash.mirrorBytes k
       mirrorFailed := FMap.erase s.flash.mirrorFailed k } }
     exec (.unitRecovery k r) s = .next gone ∧ exec (.mirrorFetchDone k) s = .next gone) ∧
   (∀ (s : State) (k : Nat) (w : UnitWork) (x : Fill) (r : Recovery), FMap.find? s.flash.units k = some w →
     FMap.find? s.flash.fills w.fill = some x →
     let a := x.places.getD w.index 0
     let n := x.unit w.index
     let key := unitKey x.ns n
     let ch := dataChannel (n % 56 / 4)
     let block := blockKey ch (s.flash.live.block (w.place / sbPages) ch)
     let absent := match FMap.find? s.flash.nand w.place with | some z => z.absent | none => []
     let missing := (List.range 16).filter (fun c => c == ch || r.bad.contains c || absent.contains c || s.flash.pageGone w.place c)
     let reads (t : State) : Prop := t.flash.live.reads = (s.placeReads w.place [ch] (if w.step = 3 then 2 else r.reads)).flash.live.reads
     (5 ≤ w.step → exec (.unitRecovery k r) s = .next s) ∧
     (w.step < 4 → r.recovered = true → landsAt s a → ∃ t, exec (.unitRecovery k r) s = .next t ∧ unitLands s t a w.data ∧
       unitEnded s t k w x x.repairs none ∧ reads t ∧ block ∈ t.flash.moves ∧ t.flash.retire = s.flash.retire ∧
       t.flash.live = { s.flash.live with reads := t.flash.live.reads } ∧
       aside { s with mem := t.mem, poison := t.poison, flash := t.flash } t) ∧
     (w.step < 4 → r.recovered = false → ∃ t, exec (.unitRecovery k r) s = .next t ∧
       t.flash.units = FMap.insert s.flash.units k { w with step := w.step + 1 } ∧ reads t ∧
       t.flash = { s.flash with
         units := t.flash.units, live := { s.flash.live with reads := t.flash.live.reads }, journal := t.flash.journal, jseq := t.flash.jseq
         moves := t.flash.moves } ∧ t = { s with flash := t.flash }) ∧
     (w.step = 4 → missing.length ≤ 2 → landsAt s a → ∃ t, exec (.unitRecovery k r) s = .next t ∧ unitLands s t a w.data ∧
       unitEnded s t k w x x.repairs none ∧ t.flash.retire = s.flash.retire ∧
       t.flash.live = { s.flash.live with reads := t.flash.live.reads } ∧
       t.flash.live.reads = (s.placeReads w.place ((List.range 16).filter (fun c => c != ch && !s.flash.pageGone w.place c)) 1).flash.live.reads ∧
       aside { s with mem := t.mem, poison := t.poison, flash := t.flash } t) ∧
     (w.step = 4 → 2 < missing.length → ∃ t, exec (.unitRecovery k r) s = .next t ∧ block ∈ t.flash.moves ∧ block ∈ t.flash.retire ∧
       (FMap.find? s.flash.live.map key = some w.place → bit (FMap.get 0 t.flash.live.lost key) (n % 56) = true) ∧
       (FMap.find? s.flash.live.map key ≠ some w.place → t.flash.live.lost = s.flash.live.lost) ∧
       t.flash.live = { s.flash.live with reads := t.flash.live.reads, lost := t.flash.live.lost } ∧
       (smMirror x.desc = false → landsAt s a → unitPoisoned s t a ∧ unitEnded s t k w x x.repairs (some (if w.quarantined then 3 else 1, 0)) ∧
         aside { s with mem := t.mem, poison := t.poison, flash := t.flash } t) ∧
       (smMirror x.desc = true → t.mem = s.mem ∧ t.poison = s.poison ∧ t.flash.fills = s.flash.fills ∧
         t.flash.nextUnit = s.flash.nextUnit + 1 ∧ FMap.find? t.flash.units s.flash.nextUnit = some { w with step := 5 } ∧
         (k ≠ s.flash.nextUnit → FMap.find? t.flash.units k = none) ∧
         (t.owned (.mirror s.flash.nextUnit) = true ∨ FMap.find? t.flash.mirrorFailed s.flash.nextUnit = some .noRoute)))) ∧
   (∀ (s : State) (k : Nat) (w : UnitWork) (x : Fill), FMap.find? s.flash.units k = some w → FMap.find? s.flash.fills w.fill = some x →
     let a := x.places.getD w.index 0
     ((w.step ≠ 5 ∨ s.owned (.mirror k) = true) → exec (.mirrorFetchDone k) s = .next s) ∧
     (w.step ≠ 5 → exec (.mirrorFetchTimeout k) s = .next s) ∧
     (∀ b, w.step = 5 → s.owned (.mirror k) = false → FMap.find? s.flash.mirrorFailed k = none → FMap.get [] s.flash.mirrorBytes k = b →
       landsAt s a → ∃ t, exec (.mirrorFetchDone k) s = .next t ∧ unitLands s t a b ∧ unitEnded s t k w x (if x.rw then x.repairs ++ [(x.unit w.index, b)] else x.repairs) (some (2, 0)) ∧
         t.flash.live = s.flash.live ∧ aside { s with mem := t.mem, poison := t.poison, flash := t.flash } t) ∧
     (∀ st, w.step = 5 → s.owned (.mirror k) = false → FMap.find? s.flash.mirrorFailed k = some st → landsAt s a →
       ∃ t, exec (.mirrorFetchDone k) s = .next t ∧ unitPoisoned s t a ∧
         unitEnded s t k w x x.repairs (some (if w.quarantined then 3 else 1, statusCode st)) ∧
         t.flash.live = s.flash.live ∧
         aside { s with mem := t.mem, poison := t.poison, flash := t.flash } t) ∧
     (w.step = 5 → landsAt s a →
       ∃ t, exec (.mirrorFetchTimeout k) s = .next t ∧ unitPoisoned s t a ∧
         unitEnded s t k w x x.repairs (some (if w.quarantined then 3 else 1, statusCode .timeout)) ∧
         t.flash.live = s.flash.live ∧
         t.ni.requests = s.ni.requests.filter (fun (kr : Nat × Request) => !decide (kr.2.owner = .mirror k)) ∧
         aside { s with mem := t.mem, poison := t.poison, flash := t.flash, ni := { s.ni with requests := t.ni.requests } } t)) ∧
   (∀ (s : State) (id : Nat), (FMap.find? s.flash.fills id = none → exec (.fillEnd id) s = .next s) ∧
     (∀ x, FMap.find? s.flash.fills id = some x → x.done < x.places.length → exec (.fillEnd id) s = .next s)) ∧
   (∀ (s u : State) (id : Nat) (x : Fill), FMap.find? s.flash.fills id = some x → x.places.length ≤ x.done →
     u = (outcomeRuns x.outcomes).foldl (fun v r => v.flashEvent x r) s →
     ∃ t, exec (.fillEnd id) s = .next t ∧
       t = { u with
         flash := { s.flash with fills := FMap.erase s.flash.fills id, repairs := t.flash.repairs, nextRepair := s.flash.nextRepair + x.repairs.length }
         sync := { u.sync with signals := t.sync.signals } } ∧
       (∀ j ub, x.repairs[j]? = some ub → FMap.find? t.flash.repairs (s.flash.nextRepair + j) =
         some { hub := x.hub, ns := x.ns, unit := ub.1, data := ub.2 }) ∧
       (∀ k, (k < s.flash.nextRepair ∨ s.flash.nextRepair + x.repairs.length ≤ k) → FMap.find? t.flash.repairs k = FMap.find? s.flash.repairs k) ∧
       (∀ q g, dSig x.desc = true → x.stopped = false → s.seat? x.seat = some q → crefTarget q x.view (dSigRef x.desc) = some g →
         t.sync.signals = s.sync.signals ++ [{ seat := x.seat, target := g, isSet := false, value := BitVec.ofNat 32 (dSigVal x.desc)
                                               tile := x.view, ctx := x.ctx, parks := false }]) ∧
       ((dSig x.desc = false ∨ x.stopped = true ∨ s.seat? x.seat = none ∨
         ∃ q, s.seat? x.seat = some q ∧ crefTarget q x.view (dSigRef x.desc) = none) → t.sync.signals = s.sync.signals)) ∧
   (∀ (m : FMap (Nat × Nat)), (∀ r ∈ outcomeRuns m, 1 ≤ r.2.1) ∧
     (outcomeRuns m).flatMap (fun r => (List.range r.2.1).map (fun i => (r.1 + i, r.2.2))) = m ∧
     ∀ (a b : Nat × Nat × Nat × Nat) l1 l2, outcomeRuns m = l1 ++ a :: b :: l2 → ¬ (a.1 + a.2.1 = b.1 ∧ a.2.2 = b.2.2)) ∧
   (∀ (s : State) (x : Fill) (r : Nat × Nat × Nat × Nat),
     let ev := [BitVec.ofNat 8 r.2.2.1, (0 : Byte)] ++ natLe 2 r.2.2.2 ++ natLe 4 r.2.1 ++ natLe 8 (smSrc x.desc + 4096 * r.1) ++
       natLe 8 (smDst x.desc + 4096 * r.1) ++ natLe 8 x.turn
     (s.seat? x.seat = none → s.flashEvent x r = s) ∧
     (∀ q, s.seat? x.seat = some q →
       (s.ringAppend x.seat q q.areas.event ev = none → s.flashEvent x r = s.count 0x7003 (some x.seat) 0 1) ∧
       (∀ v, s.ringAppend x.seat q q.areas.event ev = some v → aside v (s.flashEvent x r) ∧
         ((s.flashEvent x r).fn x.seat).evtStatus.getLsbD 2 = true))))

/-- The places of the tier's stripes are in order: each place holds one logical stripe at most, and writes and relocations go on behind
the stripes of their own superblock. -/
def placesInOrder (s : State) : Prop :=
  let sbs := s.ident.superblocks
  FMap.risingFrom s.flash.live.map 0 = true ∧
  (∀ k p, FMap.find? s.flash.live.map k = some p → p / 1152 < sbs) ∧
  (∀ k l p, FMap.find? s.flash.live.map k = some p → FMap.find? s.flash.live.map l = some p → k = l) ∧
  (∀ p, (s.flash.openWrite = some p ∨ s.flash.openMove = some p) → p / 1152 < sbs ∧
    ∀ k q, FMap.find? s.flash.live.map k = some q → q / 1152 = p / 1152 → q < p) ∧
  (∀ p q, s.flash.openWrite = some p → s.flash.openMove = some q → p / 1152 ≠ q / 1152)

/-- Nothing that a namespace holds is lost: each unit reads as before and the quarantine of mapped stripes is as before; beside places,
counts of erases and reads, and the journal, the tier is as it was. -/
def nothingLost (s t : State) : Prop :=
  (∀ key u, (t.stripe? key).bind (fun z => FMap.find? z.units u) = (s.stripe? key).bind (fun z => FMap.find? z.units u)) ∧
  (∀ key u, ((s.stripe? key).bind (fun z => FMap.find? z.units u)).isSome = true →
    FMap.get 0 t.flash.live.lost key = FMap.get 0 s.flash.live.lost key) ∧
  t.flash.live.nss = s.flash.live.nss ∧ aside { s with flash := t.flash } t ∧
  t.flash.fills = s.flash.fills ∧ t.flash.units = s.flash.units ∧ t.flash.repairs = s.flash.repairs ∧ t.flash.banks = s.flash.banks

/-- The translation layer's own moves, a relocation after many reads, and the retirement of a block that fails a
program write the stripes of the block's superblock elsewhere, and nothing that a namespace holds is lost; with no
fill outstanding all of them move, and with fills as many as the share of background work allows; a block that is to
be retired is retired once its data has moved (R306 to R309, R311). A unit taken from a mirror is written back, beside
the others of its stripe (R303, R304). With the tier unavailable, or for no channel of it, none of them does anything.
Where the rules leave a point open here, it is the model's reading (log 20). -/
def Obligations.FlashMovesLoseNothing : Prop :=
  (∀ (s : State) (ch b : Nat), (s.flash.available = false ∨ 16 ≤ ch) → exec (.backgroundWork ch b) s = .next s ∧
    exec (.readDisturbRelocate ch b) s = .next s ∧ exec (.blockProgramFail ch b) s = .next s) ∧
  (∀ (s : State) (ch b : Nat), FMap.get 0 s.flash.live.reads (blockKey ch b) < 8000000 → blockKey ch b ∉ s.flash.moves →
    exec (.readDisturbRelocate ch b) s = .next s) ∧
  (∀ (s : State) (ch b sb n : Nat), s.flash.available = true → ch < 16 → placesInOrder s → sb = s.flash.live.sbOf ch b →
    (∀ key p, FMap.find? s.flash.live.map key = some p → (FMap.find? s.flash.nand p).isSome = true) →
    n = s.shareStripes (s.sbStripes sb) →
    (∃ t, exec (.backgroundWork ch b) s = .next t ∧ nothingLost s t ∧
      (n = s.sbStripes sb → ∀ key p, FMap.find? t.flash.live.map key = some p → p / 1152 ≠ sb) ∧
      (n = s.sbStripes sb → blockKey ch b ∈ s.flash.retire → blockKey ch b ∈ t.flash.live.bad) ∧
      (n = s.sbStripes sb → blockKey ch b ∉ s.flash.retire → s.flash.moves.Nodup → blockKey ch b ∉ t.flash.moves) ∧
      (∀ k, k ∈ s.flash.moves → k ≠ blockKey ch b → k ∈ t.flash.moves) ∧
      (n ≠ s.sbStripes sb → t.flash.live.bad = s.flash.live.bad)) ∧
    ((8000000 ≤ FMap.get 0 s.flash.live.reads (blockKey ch b) ∨ blockKey ch b ∈ s.flash.moves) →
      ∃ t, exec (.readDisturbRelocate ch b) s = .next t ∧ nothingLost s t ∧
        (n = s.sbStripes sb → ∀ key p, FMap.find? t.flash.live.map key = some p → p / 1152 ≠ sb)) ∧
    (∃ t, exec (.blockProgramFail ch b) s = .next t ∧ nothingLost s t ∧ blockKey ch b ∈ t.flash.live.bad ∧
      (∀ key p, FMap.find? t.flash.live.map key = some p → p / 1152 ≠ sb))) ∧
  (∀ (s : State) (n : Nat), (s.flash.fills = [] → s.shareStripes n = n) ∧ s.shareStripes n ≤ n ∧
    (s.flash.fills ≠ [] → ∀ ch, ch < 16 → ch ≠ 7 → ch ≠ 15 →
      s.shareStripes n ≤ FMap.get 0 s.flash.share ch / (if s.flash.pressure.isSome then 6 else 62))) ∧
  (∀ (s : State) (r : Nat), FMap.find? s.flash.repairs r = none → exec (.mirrorRepairWrite r) s = .next s) ∧
  (∀ (s : State) (r : Nat) (p : Repair), FMap.find? s.flash.repairs r = some p →
    ((s.stripe? (unitKey p.ns p.unit) = none ∨ s.flashReadOnly = true) → exec (.mirrorRepairWrite r) s =
      .next { s with flash := { s.flash with repairs := FMap.erase s.flash.repairs r } }) ∧
    ((s.stripe? (unitKey p.ns p.unit)).isSome = true → s.flashReadOnly = false →
      ∃ t, exec (.mirrorRepairWrite r) s = .next t ∧ t.flash.repairs = FMap.erase s.flash.repairs r ∧
        unitOf t p.ns p.unit = some (padTo 4096 p.data) ∧
        (∀ j, j / 56 = p.unit / 56 → j ≠ p.unit → unitOf t p.ns j = unitOf s p.ns j) ∧
        (placeOpen s → ∀ key, key ≠ unitKey p.ns p.unit → t.stripe? key = s.stripe? key) ∧
        bit (FMap.get 0 t.flash.live.lost (unitKey p.ns p.unit)) (p.unit % 56) = false ∧
        t.flash.written = s.flash.written + 4096 ∧ t.flash.live.nss = s.flash.live.nss ∧ t.flash.fills = s.flash.fills ∧
        aside { s with flash := t.flash } t))

/-- A patrol read counts the pages it reads at the block, and schedules a move where a page is weak; while fills are
outstanding it takes its share or does nothing (R307, R309, R310). A channel or package that fails is lost from then
on (R312); a new bank takes the map whole, becomes current, and releases the journal (R316). At another time none of
them does anything. Where the rules leave a point open here, it is the model's reading (log 20). -/
def Obligations.FlashIsMaintained : Prop :=
  (∀ (s : State) (ch b : Nat) (weak : Bool), (s.flash.available = false ∨ 16 ≤ ch) → exec (.patrolRead ch b weak) s = .next s) ∧
  (∀ (s : State) (ch b n each : Nat) (weak free : Bool), s.flash.available = true → ch < 16 →
    n = (s.flash.nand.filter (fun (ps : Nat × NandStripe) => ps.1 / 1152 == s.flash.live.sbOf ch b)).length →
    each = (if s.flash.pressure.isSome then 3 else 31) → free = (s.flash.fills.isEmpty || ch == 7 || ch == 15) →
    (free = false → FMap.get 0 s.flash.share ch < each * n → exec (.patrolRead ch b weak) s = .next s) ∧
    ((free = true ∨ each * n ≤ FMap.get 0 s.flash.share ch) → ∃ t, exec (.patrolRead ch b weak) s = .next t ∧
      (∀ k, FMap.get 0 t.flash.live.reads k = FMap.get 0 s.flash.live.reads k + if k = blockKey ch b then n else 0) ∧
      t.flash.share = (if free then s.flash.share else FMap.insert s.flash.share ch (FMap.get 0 s.flash.share ch - each * n)) ∧
      (∀ k, k ∈ t.flash.moves ↔ (k ∈ s.flash.moves ∨ (k = blockKey ch b ∧ 0 < n ∧
        (weak = true ∨ 8000000 ≤ FMap.get 0 s.flash.live.reads (blockKey ch b) + n)))) ∧
      aside { s with flash := { s.flash with
        live := { s.flash.live with reads := t.flash.live.reads }, share := t.flash.share, moves := t.flash.moves
        journal := t.flash.journal, jseq := t.flash.jseq } } t)) ∧
  (∀ (s : State) (ch : Nat) (o : Option Nat),
    (16 ≤ ch → exec (.channelFailure ch o) s = .next s) ∧
    (ch < 16 → o = none → ch ∉ s.flash.failedChannels → ∃ t, exec (.channelFailure ch o) s = .next t ∧
      aside { s with flash := { s.flash with failedChannels := s.flash.failedChannels ++ [ch] } } t) ∧
    (ch < 16 → o = none → ch ∈ s.flash.failedChannels → exec (.channelFailure ch o) s = .next s) ∧
    (∀ p, ch < 16 → o = some p → 2 * ch + p % 2 ∉ s.flash.failedPackages → ∃ t, exec (.channelFailure ch o) s = .next t ∧
      aside { s with flash := { s.flash with failedPackages := s.flash.failedPackages ++ [2 * ch + p % 2] } } t) ∧
    (∀ p, ch < 16 → o = some p → 2 * ch + p % 2 ∈ s.flash.failedPackages → exec (.channelFailure ch o) s = .next s)) ∧
  (∀ (f : FlashSide) (place ch : Nat), f.pageGone place ch = true ↔
    (ch ∈ f.failedChannels ∨ 2 * ch + f.live.block (place / 1152) ch % 2 ∈ f.failedPackages)) ∧
  (∀ s : State, (s.flash.available = false ∨ s.flash.journal = []) → exec .bankWrite s = .next s) ∧
  (∀ s : State, s.flash.available = true → s.flash.journal ≠ [] →
    let b := bankOf ((FMap.get {} s.flash.banks s.flash.current).seq + 1) s.flash.jseq s.flash.live
    exec .bankWrite s = .next { s with flash := { s.flash with
      banks := FMap.insert s.flash.banks (1 - s.flash.current) b, current := 1 - s.flash.current, journal := [], bankAt := s.time } } ∧
    b.good = true ∧ b.seq = (FMap.get {} s.flash.banks s.flash.current).seq + 1 ∧ b.jnext = s.flash.jseq ∧ b.body = s.flash.live ∧ b.format = 1)

/-! ### Numbers and poisoned memory -/

/-- Rounding is as R57 defines it. The grid at 2^E has spacing 2^(E − p + 1), that of the subnormals below the
smallest normal, 1 for INT8 and INT4 and 2^−6 for MXINT8. RTZ gives the largest grid value lo that is not above m; RNE
the nearer of lo and lo + u and on a tie the even one; SR gives lo + u where the draw is below floor((m − lo) / u ×
2^32), else lo; an exact value stays. A conversion gives the rounded value the sign of v; what is then in range is
written exactly, and a finite overflow is the largest finite value, an infinity or a NaN as R64 says, in an integer
format the end of its range. -/
def Obligations.RoundingIsAsDefined : Prop :=
  (∀ (code p m : Nat) (emin e : Int), (code, p, emin) ∈ [(0, 53, (-1022 : Int)), (1, 24, -126), (2, 11, -14), (3, 8, -126), (4, 4, -6), (5, 3, -14),
      (6, 3, -2), (7, 4, 0), (8, 2, 0)] → 0 < m → gridExp code m e = max ((Nat.log2 m : Int) + e) emin - p + 1) ∧
  (∀ (mode : Rounding) (m : Nat) (e q : Int), q ≤ e → roundGrid mode m e q = m * 2 ^ (e - q).toNat) ∧
  (∀ (m : Nat) (e q : Int), e < q →
    let u := 2 ^ (q - e).toNat
    let lo := m / u
    roundGrid .rtz m e q = lo ∧
    (u ∣ m → ∀ mode, roundGrid mode m e q * u = m) ∧
    2 * m ≤ (2 * roundGrid .rne m e q + 1) * u ∧ 2 * roundGrid .rne m e q * u ≤ 2 * m + u ∧
    (2 * m = (2 * lo + 1) * u → roundGrid .rne m e q % 2 = 0) ∧
    ∀ r, r < 2 ^ 32 → ¬ u ∣ m → roundGrid (.sr r) m e q = if r < (m - lo * u) * 2 ^ 32 / u then lo + 1 else lo) ∧
  (∀ (code m : Nat) (mode : Rounding) (sat neg : Bool) (e : Int), (code ≤ 8 ∨ (20 ≤ code ∧ code ≤ 24 ∧ sat = true)) →
    let k := roundGrid mode m e (gridExp code m e)
    let sign := if neg then 2 ^ (fmtBits code - 1) else 0
    let x := (convert code mode sat (.num neg m e)).1
    (m = 0 → x = sign) ∧
    (0 < m → beyondMax code k (gridExp code m e) = false →
      ∃ k' e', decodeElem code x = .num neg k' e' ∧ Val.cmp (.num false k' e') (.num false k (gridExp code m e)) = 0) ∧
    (0 < m → beyondMax code k (gridExp code m e) = true →
      ((sat = true ∨ mode = .rtz ∨ 6 ≤ code % 16) → x = sign + fmtMaxBits code) ∧
      (sat = false → mode ≠ .rtz → code = 4 → x = 0x7F) ∧
      (sat = false → mode ≠ .rtz → code < 6 → code ≠ 4 → decodeElem code x = .inf neg))) ∧
  (∀ (code m : Nat) (mode : Rounding) (sat neg : Bool) (e q : Int), (code, q) ∈ [(9, (0 : Int)), (10, 0), (25, -6)] →
    let k := roundGrid mode m e q
    let most := 2 ^ (fmtBits code - 1) - (if neg then 0 else 1)
    decodeElem code (convert code mode sat (.num neg m e)).1 = Val.ofInt (if neg then -(min k most : Int) else min k most) q)

/-- Every element of every plain format of R46 that is no NaN converts to its own format unchanged and raises no
event, whatever MODE and SAT are, and a NaN becomes the canonical one: nothing is flushed, and the sign of a zero is
kept (R46, R48, R49, R64). -/
def Obligations.ElementsConvertToThemselves : Prop :=
  ∀ (code b : Nat) (mode : Rounding) (sat : Bool), code ≤ 10 → b < 2 ^ fmtBits code →
    (decodeElem code b ≠ .nan → convert code mode sat (decodeElem code b) = (b, {})) ∧
    (decodeElem code b = .nan → convert code mode sat (decodeElem code b) = (fmtNan code, {}))

/-- A store writes its bytes, and no others. A word or burst of poison that it covers whole is cleared; one that it
covers in part stays poisoned with its cause, and the bytes written to it are discarded; whole aligned lines of a tile
or cluster store are made of whole words. Poison marks the whole words of a range: the cause stands in the low bits of
a word's first byte and its other bytes are 0. -/
def Obligations.StoresMeetPoisonWordByWord : Prop :=
  (∀ (s : State) (a : Nat) (b : Bytes), (a + b.length ≤ hbmEnd ∨ hbmEnd ≤ a) →
    let t := s.store a b
    t = { s with mem := t.mem, poison := t.poison } ∧
    (∀ i, i < b.length → s.lostByte (a + i) = false → (s.wordPoison (wordBase (a + i)) = none ∨
      (a ≤ wordBase (a + i) ∧ wordBase (a + i) + wordSize (a + i) ≤ a + b.length)) → t.byte (a + i) = b.getD i 0) ∧
    (∀ p, (p < a ∨ a + b.length ≤ p) → t.byte p = s.byte p) ∧
    (∀ w, w % wordSize w = 0 → a ≤ w → w + wordSize w ≤ a + b.length → s.lostByte w = false → t.wordPoison w = none) ∧
    (∀ w c, w % wordSize w = 0 → s.wordPoison w = some c → ¬ (a ≤ w ∧ w + wordSize w ≤ a + b.length) →
      t.wordPoison w = some c ∧ ∀ i, i < wordSize w → t.byte (w + i) = s.byte (w + i)) ∧
    (hbmEnd ≤ a → a % 16 = 0 → b.length % 16 = 0 → ∀ w ∈ wordsOf a b.length, a ≤ w ∧ w + wordSize w ≤ a + b.length)) ∧
  (∀ (s : State) (a n c : Nat), (a + n ≤ hbmEnd ∨ hbmEnd ≤ a) → c < 4 →
    let t := s.poisonRange a n c
    t = { s with mem := t.mem, poison := t.poison } ∧
    (∀ w ∈ wordsOf a n, s.lostByte w = false → t.wordPoison w = some c ∧ t.byte w = BitVec.ofNat 8 c ∧
      ∀ i, 0 < i → i < wordSize w → t.byte (w + i) = 0) ∧
    (∀ w, w ∉ wordsOf a n → t.wordPoison w = s.wordPoison w) ∧
    ∀ p, wordBase p ∉ wordsOf a n → t.byte p = s.byte p)
end

