-- ==== Sys2Proof/Laws/FMap.lean ====
section
/-!
SUPPORT. Laws of the sparse maps: what a read after a write gives, and that every operation keeps the canonical form. They
hold of every list, in canonical form or not, unless a lemma says otherwise.
-/

namespace Sys2Proof.FMap

variable {α : Type}

/-! ### Read after write -/

@[simp] theorem find?_insert_self (m : FMap α) (i : Nat) (v : α) : find? (insert m i v) i = some v := by
  induction m with
  | nil => simp [insert, find?]
  | cons p t ih =>
    obtain ⟨k, w⟩ := p
    simp only [insert]
    split
    · simp [find?]
    · split
      · simp [find?]
      · simp [find?, *]

theorem find?_insert_ne (m : FMap α) {i j : Nat} (v : α) (h : j ≠ i) : find? (insert m i v) j = find? m j := by
  have h' : ¬ i = j := fun e => h e.symm
  induction m with
  | nil => simp [insert, find?, h']
  | cons p t ih =>
    obtain ⟨k, w⟩ := p
    simp only [insert]
    split
    · simp [find?, h']
    · split
      · next hk => subst hk; simp [find?, h']
      · simp [find?, ih]

@[simp] theorem find?_erase_self (m : FMap α) (i : Nat) : find? (erase m i) i = none := by
  induction m with
  | nil => rfl
  | cons p t ih =>
    obtain ⟨k, w⟩ := p
    simp only [erase]
    split
    · exact ih
    · simp [find?, *]

theorem find?_erase_ne (m : FMap α) {i j : Nat} (h : j ≠ i) : find? (erase m i) j = find? m j := by
  induction m with
  | nil => rfl
  | cons p t ih =>
    obtain ⟨k, w⟩ := p
    simp only [erase]
    split
    · next hk => subst hk; simp [find?, ih, Ne.symm h]
    · simp [find?, ih]

@[simp] theorem find?_upd_self (m : FMap α) (i : Nat) (f : α → α) : find? (upd m i f) i = (find? m i).map f := by
  induction m with
  | nil => rfl
  | cons p t ih =>
    obtain ⟨k, w⟩ := p
    simp only [upd, List.map_cons, find?]
    by_cases h : k = i
    · simp [h]
    · simpa [h, upd] using ih

theorem find?_upd_ne (m : FMap α) {i j : Nat} (f : α → α) (h : j ≠ i) : find? (upd m i f) j = find? m j := by
  induction m with
  | nil => rfl
  | cons p t ih =>
    obtain ⟨k, w⟩ := p
    simp only [upd, List.map_cons, find?]
    by_cases hk : k = i
    · subst hk
      simpa [Ne.symm h, upd] using ih
    · by_cases hj : k = j
      · simp [hj, h]
      · simpa [hk, hj, upd] using ih

@[simp] theorem get_put_self [DecidableEq α] (d : α) (m : FMap α) (i : Nat) (v : α) : get d (put d m i v) i = v := by
  unfold get put
  split
  · simp [*]
  · simp

theorem get_put_ne [DecidableEq α] (d : α) (m : FMap α) {i j : Nat} (v : α) (h : j ≠ i) :
    get d (put d m i v) j = get d m j := by
  unfold get put
  split
  · rw [find?_erase_ne m h]
  · rw [find?_insert_ne m v h]

theorem get_put [DecidableEq α] (d : α) (m : FMap α) (i j : Nat) (v : α) :
    get d (put d m i v) j = if j = i then v else get d m j := by
  split
  · next h => subst h; simp
  · next h => exact get_put_ne d m v h

/-! ### The canonical form -/

theorem risingFrom_mono {m : FMap α} {a b : Nat} (h : risingFrom m b = true) (hab : a ≤ b) : risingFrom m a = true := by
  cases m with
  | nil => rfl
  | cons p t =>
    simp only [risingFrom, Bool.and_eq_true, decide_eq_true_eq] at h ⊢
    exact ⟨by omega, h.2⟩

theorem risingFrom_insert {m : FMap α} {b i : Nat} (v : α) (h : risingFrom m b = true) (hi : b ≤ i) :
    risingFrom (insert m i v) b = true := by
  induction m generalizing b with
  | nil => simp [insert, risingFrom, hi]
  | cons p t ih =>
    obtain ⟨k, w⟩ := p
    simp only [risingFrom, Bool.and_eq_true, decide_eq_true_eq] at h
    simp only [insert]
    split
    · simp only [risingFrom, Bool.and_eq_true, decide_eq_true_eq]
      exact ⟨hi, by omega, h.2⟩
    · split
      · next hk => subst hk; simp [risingFrom, hi, h.2]
      · simp only [risingFrom, Bool.and_eq_true, decide_eq_true_eq]
        exact ⟨h.1, ih h.2 (by omega)⟩

theorem risingFrom_filter {m : FMap α} {b : Nat} (q : Nat × α → Bool) (h : risingFrom m b = true) :
    risingFrom (m.filter q) b = true := by
  induction m generalizing b with
  | nil => rfl
  | cons p t ih =>
    obtain ⟨k, w⟩ := p
    simp only [risingFrom, Bool.and_eq_true, decide_eq_true_eq] at h
    simp only [List.filter_cons]
    split
    · simp only [risingFrom, Bool.and_eq_true, decide_eq_true_eq]
      exact ⟨h.1, ih h.2⟩
    · exact risingFrom_mono (ih h.2) (by omega)

theorem erase_eq_filter (m : FMap α) (i : Nat) : erase m i = m.filter (fun p => p.1 ≠ i) := by
  induction m with
  | nil => rfl
  | cons p t ih =>
    obtain ⟨k, w⟩ := p
    by_cases h : k = i <;> simp [erase, h, ih]

theorem risingFrom_erase {m : FMap α} {b : Nat} (i : Nat) (h : risingFrom m b = true) : risingFrom (erase m i) b = true := by
  rw [erase_eq_filter]
  exact risingFrom_filter _ h

theorem mem_insert {m : FMap α} {i : Nat} {v : α} {p : Nat × α} (h : p ∈ insert m i v) : p = (i, v) ∨ p ∈ m := by
  induction m with
  | nil => simpa [insert] using h
  | cons q t ih =>
    obtain ⟨k, w⟩ := q
    simp only [insert] at h
    split at h
    · simpa using h
    · split at h
      · rcases List.mem_cons.1 h with h | h
        · exact .inl h
        · exact .inr (List.mem_cons_of_mem _ h)
      · rcases List.mem_cons.1 h with h | h
        · exact .inr (h ▸ List.mem_cons_self)
        · exact (ih h).imp_right (List.mem_cons_of_mem _)

theorem wf_filter [DecidableEq α] {d : α} {m : FMap α} (q : Nat × α → Bool) (h : wf d m = true) : wf d (m.filter q) = true := by
  simp only [wf, Bool.and_eq_true, List.all_eq_true, decide_eq_true_eq] at h ⊢
  exact ⟨risingFrom_filter q h.1, fun p hp => h.2 p (List.mem_filter.1 hp).1⟩

theorem wf_put [DecidableEq α] {d : α} {m : FMap α} (i : Nat) (v : α) (h : wf d m = true) : wf d (put d m i v) = true := by
  unfold put
  split
  · rw [erase_eq_filter]; exact wf_filter _ h
  · next hv =>
    simp only [wf, Bool.and_eq_true, List.all_eq_true, decide_eq_true_eq] at h ⊢
    refine ⟨risingFrom_insert v h.1 (Nat.zero_le _), fun p hp => ?_⟩
    rcases mem_insert hp with rfl | hp
    · exact hv
    · exact h.2 p hp

/-- A chain of operations that each keep a property keeps it. -/
theorem foldl_keeps {β σ : Type} {P : σ → Prop} (f : σ → β → σ) (hf : ∀ s b, P s → P (f s b)) (l : List β) (s : σ) (h : P s) :
    P (l.foldl f s) := by
  induction l generalizing s with
  | nil => exact h
  | cons b t ih => exact ih _ (hf s b h)

end Sys2Proof.FMap
end

