-- ==== Sys2Proof/Laws/Aside.lean ====
section
/-!
SUPPORT. What the operations that count, charge, tell and cache can do, said once: each leaves the state alike aside from
that (Safety's relation), and what that leaves in every other field.
-/

namespace Sys2Proof.Machine

variable {s t u : State}

theorem aside.refl (s : State) : aside s s := ⟨rfl, fun _ => rfl, fun _ => rfl⟩

theorem aside.trans (h : aside s t) (k : aside t u) : aside s u := ⟨k.1.trans h.1, fun n => (k.2.1 n).trans (h.2.1 n), fun n => (k.2.2 n).trans (h.2.2 n)⟩

/-- A chain of operations over a list, each of which leaves the state alike aside. -/
theorem aside.foldl {β : Type} (f : State → β → State) (hf : ∀ s b, aside s (f s b)) (l : List β) (s : State) :
    aside s (l.foldl f s) := by
  induction l generalizing s with
  | nil => exact aside.refl s
  | cons b l ih => exact (hf s b).trans (ih _)

/-! ### What it leaves in every other field, and that it goes through the writing of a field -/

theorem aside.time (h : aside s t) : t.time = s.time :=
  show t.quiet.time = s.quiet.time from congrArg State.time h.1
theorem aside.free (h : aside s t) : t.free = s.free :=
  show t.quiet.free = s.quiet.free from congrArg State.free h.1
theorem aside.pending (h : aside s t) : t.pending = s.pending :=
  show t.quiet.pending = s.quiet.pending from congrArg State.pending h.1
theorem aside.ident (h : aside s t) : t.ident = s.ident :=
  show t.quiet.ident = s.quiet.ident from congrArg State.ident h.1
theorem aside.mod (h : aside s t) : t.mod = s.mod :=
  show t.quiet.mod = s.quiet.mod from congrArg State.mod h.1
theorem aside.clk (h : aside s t) : t.clk = s.clk :=
  show t.quiet.clk = s.quiet.clk from congrArg State.clk h.1
theorem aside.pwr (h : aside s t) : t.pwr = s.pwr :=
  show t.quiet.pwr = s.quiet.pwr from congrArg State.pwr h.1
theorem aside.mem (h : aside s t) : t.mem = s.mem :=
  show t.quiet.mem = s.quiet.mem from congrArg State.mem h.1
theorem aside.poison (h : aside s t) : t.poison = s.poison :=
  show t.quiet.poison = s.quiet.poison from congrArg State.poison h.1
theorem aside.units (h : aside s t) : t.units = s.units :=
  show t.quiet.units = s.quiet.units from congrArg State.units h.1
theorem aside.sync (h : aside s t) : t.sync = s.sync :=
  show t.quiet.sync = s.quiet.sync from congrArg State.sync h.1
theorem aside.sec (h : aside s t) : t.sec = s.sec :=
  show t.quiet.sec = s.quiet.sec from congrArg State.sec h.1
theorem aside.mons (h : aside s t) : t.mons = s.mons :=
  show t.quiet.mons = s.quiet.mons from congrArg State.mons h.1
theorem aside.fw (h : aside s t) : t.fw = s.fw :=
  show t.quiet.fw = s.quiet.fw from congrArg State.fw h.1
theorem aside.druind (h : aside s t) : t.druind = s.druind :=
  show t.quiet.druind = s.quiet.druind from congrArg State.druind h.1
theorem aside.fab (h : aside s t) : t.fab = s.fab :=
  show t.quiet.fab = s.quiet.fab from congrArg State.fab h.1
theorem aside.flash (h : aside s t) : t.flash = s.flash :=
  show t.quiet.flash = s.quiet.flash from congrArg State.flash h.1
theorem aside.tk (h : aside s t) : t.tk = s.tk :=
  show t.quiet.tk = s.quiet.tk from congrArg State.tk h.1
theorem aside.set_time (h : aside s t) (x) : aside { s with time := x } { t with time := x } :=
  ⟨congrArg (fun q : State => { q with time := x }) h.1, h.2⟩
theorem aside.set_free (h : aside s t) (x) : aside { s with free := x } { t with free := x } :=
  ⟨congrArg (fun q : State => { q with free := x }) h.1, h.2⟩
theorem aside.set_pending (h : aside s t) (x) : aside { s with pending := x } { t with pending := x } :=
  ⟨congrArg (fun q : State => { q with pending := x }) h.1, h.2⟩
theorem aside.set_ident (h : aside s t) (x) : aside { s with ident := x } { t with ident := x } :=
  ⟨congrArg (fun q : State => { q with ident := x }) h.1, h.2⟩
theorem aside.set_mod (h : aside s t) (x) : aside { s with mod := x } { t with mod := x } :=
  ⟨congrArg (fun q : State => { q with mod := x }) h.1, h.2⟩
theorem aside.set_clk (h : aside s t) (x) : aside { s with clk := x } { t with clk := x } :=
  ⟨congrArg (fun q : State => { q with clk := x }) h.1, h.2⟩
theorem aside.set_pwr (h : aside s t) (x) : aside { s with pwr := x } { t with pwr := x } :=
  ⟨congrArg (fun q : State => { q with pwr := x }) h.1, h.2⟩
theorem aside.set_mem (h : aside s t) (x) : aside { s with mem := x } { t with mem := x } :=
  ⟨congrArg (fun q : State => { q with mem := x }) h.1, h.2⟩
theorem aside.set_poison (h : aside s t) (x) : aside { s with poison := x } { t with poison := x } :=
  ⟨congrArg (fun q : State => { q with poison := x }) h.1, h.2⟩
theorem aside.set_units (h : aside s t) (x) : aside { s with units := x } { t with units := x } :=
  ⟨congrArg (fun q : State => { q with units := x }) h.1, h.2⟩
theorem aside.set_tiles (h : aside s t) (x) : aside { s with tiles := x } { t with tiles := x } :=
  ⟨h.1, h.2.1, fun _ => rfl⟩
theorem aside.set_clusters (h : aside s t) (x) : aside { s with clusters := x } { t with clusters := x } := ⟨h.1, h.2⟩
theorem aside.set_sync (h : aside s t) (x) : aside { s with sync := x } { t with sync := x } :=
  ⟨congrArg (fun q : State => { q with sync := x }) h.1, h.2⟩
theorem aside.set_sec (h : aside s t) (x) : aside { s with sec := x } { t with sec := x } :=
  ⟨congrArg (fun q : State => { q with sec := x }) h.1, h.2⟩
theorem aside.set_mons (h : aside s t) (x) : aside { s with mons := x } { t with mons := x } :=
  ⟨congrArg (fun q : State => { q with mons := x }) h.1, h.2⟩
theorem aside.set_fw (h : aside s t) (x) : aside { s with fw := x } { t with fw := x } :=
  ⟨congrArg (fun q : State => { q with fw := x }) h.1, h.2⟩
theorem aside.set_druind (h : aside s t) (x) : aside { s with druind := x } { t with druind := x } :=
  ⟨congrArg (fun q : State => { q with druind := x }) h.1, h.2⟩
theorem aside.set_fab (h : aside s t) (x) : aside { s with fab := x } { t with fab := x } :=
  ⟨congrArg (fun q : State => { q with fab := x }) h.1, h.2⟩
theorem aside.set_flash (h : aside s t) (x) : aside { s with flash := x } { t with flash := x } :=
  ⟨congrArg (fun q : State => { q with flash := x }) h.1, h.2⟩
theorem aside.set_tk (h : aside s t) (x) : aside { s with tk := x } { t with tk := x } :=
  ⟨congrArg (fun q : State => { q with tk := x }) h.1, h.2⟩

theorem aside.fn (h : aside s t) (n : Nat) : (t.fn n).quiet = (s.fn n).quiet := h.2.1 n
theorem aside.tile (h : aside s t) (n : Nat) : (t.tile n).quiet = (s.tile n).quiet := h.2.2 n

theorem aside.memWf (h : aside s t) : t.memWf = s.memWf := by unfold State.memWf; rw [h.mem]
theorem aside.poisonWf (h : aside s t) : t.poisonWf = s.poisonWf := by unfold State.poisonWf; rw [h.poison]
theorem aside.hostMem (h : aside s t) : t.host.hostMem = s.host.hostMem :=
  show t.quiet.host.hostMem = s.quiet.host.hostMem from congrArg (fun q : State => q.host.hostMem) h.1
theorem aside.wf (h : aside s t) : t.wf = s.wf := by
  unfold State.wf State.hostMemWf; rw [h.memWf, h.poisonWf, h.hostMem]

/-! ### Counting and charging -/

theorem quiet_take (p : Pmc) (now code inst cls v : Nat) :
    { p.take now code inst cls v with ctr := [], runs := [] } = { p with ctr := ([] : List W64), runs := ([] : FMap PmcRun) } := by
  unfold Pmc.take
  refine FMap.foldl_keeps (P := fun q : Pmc => { q with ctr := [], runs := [] } = { p with ctr := [], runs := [] }) _ ?_ _ _ rfl
  intro q i hq
  dsimp only
  split
  · exact hq
  · exact hq

theorem State.countCls_aside (s : State) (code : Nat) (seat : Option Nat) (inst cls v : Nat) :
    aside s (s.countCls code seat inst cls v) := by
  unfold State.countCls
  dsimp only
  split
  · exact aside.refl s
  · refine ⟨?_, fun _ => rfl, fun _ => rfl⟩
    have h : (takeAll s code seat inst cls v).map (fun ks => (ks.1, ks.2.quiet)) = s.seats.map (fun ks => (ks.1, ks.2.quiet)) := by
      unfold takeAll
      rw [List.map_map]
      refine List.map_congr_left fun ks _ => ?_
      have hb (b : Bool) : (fun ks : Nat × Seat => (ks.1, ks.2.quiet))
          (if b then (ks.1, { ks.2 with pmc := ks.2.pmc.take s.time code inst cls v }) else ks) = (ks.1, ks.2.quiet) := by
        cases b
        · rfl
        · simp only [if_true, Seat.quiet, quiet_take]
      exact hb _
    simp only [State.quiet, h]

theorem State.count_aside (s : State) (code : Nat) (seat : Option Nat) (inst v : Nat) : aside s (s.count code seat inst v) :=
  s.countCls_aside code seat inst 4 v

theorem State.gauge_aside (s : State) (code : Nat) (seat : Option Nat) (inst v : Nat) : aside s (s.gauge code seat inst v) :=
  ⟨rfl, fun _ => rfl, fun _ => rfl⟩

theorem State.moved_aside (s : State) (r : Nat) (rx : Bool) (n : Nat) : aside s (s.moved r rx n) := ⟨rfl, fun _ => rfl, fun _ => rfl⟩

/-- A change of one seat that leaves its quiet part is an aside. -/
theorem State.onSeat_aside (s : State) (n : Nat) (f : Seat → Seat) (h : ∀ x, (f x).quiet = x.quiet) : aside s (s.onSeat n f) := by
  refine ⟨?_, fun _ => rfl, fun _ => rfl⟩
  have h : (FMap.upd s.seats n f).map (fun ks => (ks.1, ks.2.quiet)) = s.seats.map (fun ks => (ks.1, ks.2.quiet)) := by
    unfold FMap.upd
    rw [List.map_map]
    refine List.map_congr_left fun ks _ => ?_
    simp only [Function.comp_apply]
    split <;> simp [h]
  simp only [State.quiet, State.onSeat, h]

theorem State.charge_aside (s : State) (seat field v : Nat) : aside s (s.charge seat field v) :=
  s.onSeat_aside seat _ fun _ => rfl

/-! ### Telling -/

theorem State.fn_setFn (s : State) (n m : Nat) (f : Func) : (s.setFn n f).fn m = if m = n then f else s.fn m := by
  unfold State.fn State.setFn
  exact FMap.get_put {} _ n m f

theorem State.setFn_aside (s : State) (n : Nat) (f : Func) (h : f.quiet = (s.fn n).quiet) : aside s (s.setFn n f) := by
  refine ⟨rfl, fun m => ?_, fun _ => rfl⟩
  rw [State.fn_setFn]
  split
  · next e => rw [e, h]
  · rfl

theorem State.raiseVector_aside (s : State) (n v : Nat) : aside s (s.raiseVector n v) := by
  unfold State.raiseVector
  dsimp only
  split
  · split
    · exact aside.refl s
    · exact s.setFn_aside n _ rfl
  · exact ⟨rfl, fun _ => rfl, fun _ => rfl⟩

theorem State.event_aside (s : State) (n bit : Nat) : aside s (s.event n bit) := by
  unfold State.event
  dsimp only
  split
  · exact s.setFn_aside n _ rfl
  · split
    · refine aside.trans (t := s.setFn n _) ?_ (State.raiseVector_aside _ n 0)
      exact s.setFn_aside n _ rfl
    · exact s.setFn_aside n _ rfl

theorem State.seatChanged_aside (s : State) (n : Nat) : aside s (s.seatChanged n) := s.event_aside n evtSeatChange

theorem State.notify_aside (s : State) (kind : Nat) (rest : Bytes) : aside s (s.notify kind rest) := by
  unfold State.notify
  split
  · exact aside.refl s
  · dsimp only
    split
    · exact ⟨rfl, fun _ => rfl, fun _ => rfl⟩
    · exact aside.refl s

theorem State.log_aside (s : State) (l : LogSide) : aside s { s with log := l } := ⟨rfl, fun _ => rfl, fun _ => rfl⟩

theorem State.faultN_aside (s : State) (b : Bool) : aside s { s with pins := { s.pins with faultN := b } } :=
  ⟨rfl, fun _ => rfl, fun _ => rfl⟩

theorem State.faultPin_aside (s : State) : aside s s.faultPin := s.faultN_aside _

theorem State.logNew_aside (s : State) (r : LogRec) : aside s (s.logNew r) := by
  unfold State.logNew
  extract_lets r a src s1 s2 s3 psrc sp s4
  have h1 : aside s s1 := s.log_aside _
  have h2 : aside s s2 := h1.trans (s1.count_aside _ _ _ _)
  have h3 : aside s s3 := by
    refine h2.trans ?_
    simp only [s3]
    split
    · split
      · exact State.raiseVector_aside _ _ _
      · exact aside.refl _
    · exact aside.refl _
  have h4 : aside s s4 := by
    refine h3.trans ?_
    simp only [s4]
    split
    · exact aside.trans (t := sp) (s3.faultN_aside false) (aside.foldl _ (fun s ks => State.raiseVector_aside _ _ _) _ _)
    · exact aside.refl _
  split
  · exact h4.trans (State.notify_aside _ _ _)
  · exact h4

theorem State.logEvent_aside (s : State) (event : Nat) (seat : Option Nat) (kind index sub detail : Nat) :
    aside s (s.logEvent event seat kind index sub detail) := by
  unfold State.logEvent
  dsimp only
  split
  · exact s.log_aside _
  · exact s.logNew_aside _

/-! ### The line caches -/

theorem State.uncache_aside (s : State) (hub line : Nat) : aside s (s.uncache hub line) := ⟨rfl, fun _ => rfl, fun _ => rfl⟩

theorem State.setDir_aside (s : State) (st : Nat) (d : List (Nat × Nat)) : aside s (s.setDir st d) := ⟨rfl, fun _ => rfl, fun _ => rfl⟩

theorem State.dirSet_aside (s : State) (line code : Nat) : aside s (s.dirSet line code) := by
  unfold State.dirSet
  dsimp only
  split
  · exact s.setDir_aside _ _
  · split
    · exact s.setDir_aside _ _
    · split
      · split
        · exact aside.refl s
        · exact (((s.uncache_aside 0 _).trans (State.uncache_aside _ 1 _)).trans (State.setDir_aside _ _ _)).trans
            (State.count_aside _ _ _ _ _)
      · exact s.setDir_aside _ _

theorem State.inexact_aside (s : State) (seat : Nat) : aside s (s.inexact seat) := by
  refine s.onSeat_aside seat _ fun x => ?_
  simp only [Seat.quiet, Option.map_map, Function.comp_def]

theorem State.stackInexact_aside (s : State) (st : Nat) : aside s (s.stackInexact st) :=
  aside.foldl _ (fun s (ks : Nat × Seat) => s.inexact_aside ks.1) _ _

theorem State.snooped_aside (s : State) (line : Nat) : aside s (s.snooped line) :=
  (s.count_aside _ _ _ _).trans (State.stackInexact_aside _ _)

theorem State.snoop_aside (s : State) (a n : Nat) (write : Bool) : aside s (s.snoop a n write) := by
  unfold State.snoop
  refine aside.foldl _ (fun s e => ?_) _ _
  dsimp only
  refine (s.snooped_aside e.1).trans ?_
  split
  · exact ((State.uncache_aside _ 0 _).trans (State.uncache_aside _ 1 _)).trans (State.dirSet_aside _ _ _)
  · exact State.dirSet_aside _ _ _

theorem State.hbmCount_aside (s : State) (seat a n : Nat) (write : Bool) : aside s (s.hbmCount seat a n write) := by
  unfold State.hbmCount
  dsimp only
  refine aside.trans (aside.foldl _ (fun s st => ?_) _ _) (State.charge_aside _ _ _ _)
  split
  · exact (State.count_aside _ _ _ _ _).trans (State.count_aside _ _ _ _ _)
  · exact ((State.count_aside _ _ _ _ _).trans (State.count_aside _ _ _ _ _)).trans (State.moved_aside _ _ _ _)

theorem State.hbmMoved_aside (s : State) (seat a n : Nat) (write : Bool) : aside s (s.hbmMoved seat a n write) := by
  unfold State.hbmMoved
  split
  · exact (s.snoop_aside a n write).trans (State.hbmCount_aside _ _ _ _ _)
  · exact aside.refl s

theorem State.cacheLine_aside (s : State) (hub line : Nat) (write : Bool) : aside s (s.cacheLine hub line write) := by
  unfold State.cacheLine
  extract_lets k l src s1 s2 c other s3
  have h1 : aside s s1 := ⟨rfl, fun _ => rfl, fun _ => rfl⟩
  have h2 : aside s s2 := by
    refine h1.trans ?_
    simp only [s2]
    split
    · cases l with
      | nil => exact aside.refl _
      | cons old rest => exact State.dirSet_aside _ _ _
    · exact aside.refl _
  have h3 : aside s s3 := by
    refine h2.trans ?_
    simp only [s3]
    split
    · exact (State.uncache_aside _ _ _).trans (State.snooped_aside _ _)
    · exact aside.refl _
  split
  · exact h3.trans (State.dirSet_aside _ _ _)
  · split
    · exact (h2.trans (State.dirSet_aside _ _ _)).trans (State.snooped_aside _ _)
    · split
      · exact h2
      · exact h2.trans (State.dirSet_aside _ _ _)

theorem State.hbmCached_aside (s : State) (seat hub a n : Nat) (write : Bool) : aside s (s.hbmCached seat hub a n write) := by
  unfold State.hbmCached
  split
  · exact (aside.foldl _ (fun s l => s.cacheLine_aside hub l write) _ _).trans (State.hbmCount_aside _ _ _ _ _)
  · exact aside.refl s

/-! ### The arbiters and the links between dies -/

theorem State.tile_setTile (s : State) (n m : Nat) (x : Tile) : (s.setTile n x).tile m = if m = n then x else s.tile m := by
  unfold State.tile State.setTile
  exact FMap.get_put {} _ n m x

theorem State.setTile_aside (s : State) (n : Nat) (x : Tile) (h : x.quiet = (s.tile n).quiet) : aside s (s.setTile n x) := by
  refine ⟨rfl, fun _ => rfl, fun m => ?_⟩
  rw [State.tile_setTile]
  split
  · next e => rw [e, h]
  · rfl

theorem State.setCluster_aside (s : State) (n : Nat) (x : Cluster) : aside s (s.setCluster n x) :=
  ⟨rfl, fun _ => rfl, fun _ => rfl⟩

theorem State.tileArb_aside (s : State) (lt : Nat) : aside s (s.tileArb lt) := by
  unfold State.tileArb
  extract_lets x now a s1
  have h : aside s s1 := s.setTile_aside lt _ rfl
  split
  · exact h.trans (State.count_aside _ _ _ _ _)
  · exact h

theorem State.clusterArb_aside (s : State) (lc : Nat) : aside s (s.clusterArb lc) := by
  unfold State.clusterArb
  extract_lets x tc nc a b s1
  have h : aside s s1 := s.setCluster_aside lc _
  split
  · exact ((h.trans (State.count_aside _ _ _ _ _)).trans (State.count_aside _ _ _ _ _)).trans (State.count_aside _ _ _ _ _)
  · exact h

theorem State.tileWant_aside (s : State) (lt req o n width : Nat) : aside s (s.tileWant lt req o n width) := by
  unfold State.tileWant
  split
  · exact aside.refl s
  · exact (s.tileArb_aside lt).trans (State.setTile_aside _ _ _ rfl)

theorem State.clusterWant_aside (s : State) (lc req o n : Nat) : aside s (s.clusterWant lc req o n) := by
  unfold State.clusterWant
  split
  · exact aside.refl s
  · exact (s.clusterArb_aside lc).trans (State.setCluster_aside _ _ _)

theorem State.portWant_aside (s : State) (lc req n : Nat) : aside s (s.portWant lc req n) := by
  unfold State.portWant
  split
  · exact aside.refl s
  · extract_lets s1 x s2
    have h : aside s s2 := (s.clusterArb_aside lc).trans (State.setCluster_aside _ _ _)
    split
    · exact h.trans (State.count_aside _ _ _ _ _)
    · exact h

theorem State.overLinks_aside (s : State) (links : List Nat) (n : Nat) : aside s (s.overLinks links n) :=
  aside.foldl _ (fun s _ => s.count_aside _ _ _ _) _ _

theorem State.atStore_aside (s : State) (a n : Nat) (write : Bool) (req : Nat) : aside s (s.atStore a n write req) := by
  unfold State.atStore
  split
  · exact aside.refl s
  · split
    · exact s.clusterWant_aside _ _ _ _
    · exact aside.refl s
  · split
    · exact s.tileWant_aside _ _ _ _ _
    · exact aside.refl s

theorem State.throughPort_aside (s : State) (p : Place) (n : Nat) : aside s (s.throughPort p n) := by
  unfold State.throughPort
  split
  · exact aside.refl s
  · split
    · exact s.portWant_aside _ _ _
    · exact aside.refl s
  · split
    · exact s.portWant_aside _ _ _
    · exact aside.refl s

theorem State.carry_aside (s : State) (src dst n : Nat) : aside s (s.carry src dst n) := by
  unfold State.carry
  extract_lets a b same side s1 s2
  have h1 : aside s s1 := (s.atStore_aside _ _ _ _).trans (State.atStore_aside _ _ _ _ _)
  refine aside.trans (t := s2) ?_ (State.overLinks_aside _ _ _)
  simp only [s2]
  split
  · exact h1
  · exact (h1.trans (State.throughPort_aside _ _ _)).trans (State.throughPort_aside _ _ _)

theorem State.carryHub_aside (s : State) (hub a n : Nat) (write : Bool) : aside s (s.carryHub hub a n write) :=
  ((s.atStore_aside _ _ _ _).trans (State.throughPort_aside _ _ _)).trans (State.overLinks_aside _ _ _)

theorem State.hubTraffic_aside (s : State) (seat hub : Nat) (ps : List (Nat × Nat)) (write : Bool) :
    aside s (s.hubTraffic seat hub ps write) :=
  aside.foldl _ (fun s (p : Nat × Nat) => (s.hbmCached_aside seat hub p.1 p.2 write).trans (State.carryHub_aside _ _ _ _ _)) _ _

theorem State.homeAccess_aside (s : State) (seat a n : Nat) (write : Bool) : aside s (s.homeAccess seat a n write) :=
  (aside.foldl _ (fun s l => s.cacheLine_aside (homeHub l) l write) _ s).trans
    ((State.hbmCount_aside _ _ _ _ _).trans (State.carryHub_aside _ _ _ _ _))

/-- A device write for a seat is the byte store, aside. -/
theorem State.seatStore_aside (s : State) (seat a : Nat) (b : Bytes) : aside (s.store a b) (s.seatStore seat a b) :=
  State.hbmMoved_aside _ _ _ _ _

end Sys2Proof.Machine
end

