-- ==== Sys2Proof/Laws/Memory.lean ====
section
/-!
SUPPORT. Laws of memory: every operation that writes bytes keeps the canonical form, the memory at reset has it, and what
a byte store leaves at every address.
-/

namespace Sys2Proof.Machine

/-- Both halves of the canonical form of device memory. -/
def State.deviceWf (s : State) : Prop := s.memWf = true ∧ s.poisonWf = true

theorem reset_wf : State.reset.wf = true := by decide

theorem State.wf_iff (s : State) : s.wf = true ↔ s.deviceWf ∧ s.hostMemWf = true := by
  simp [State.wf, State.deviceWf, and_assoc]

/-! ### The folds that the operations are made of -/

/-- Bytes written one by one keep the canonical form. -/
theorem wf_foldl_put {β : Type} (k : β → Nat) (v : β → Byte) (l : List β) (m : FMap Byte) (h : FMap.wf 0 m = true) :
    FMap.wf 0 (l.foldl (fun m b => FMap.put 0 m (k b) (v b)) m) = true :=
  FMap.foldl_keeps (P := fun m => FMap.wf (0 : Byte) m = true) _ (fun _ _ hm => FMap.wf_put _ _ hm) l m h

/-- So do bytes of which some are discarded. -/
theorem wf_foldl_put_if {β : Type} (c : β → Bool) (k : β → Nat) (v : β → Byte) (l : List β) (m : FMap Byte)
    (h : FMap.wf 0 m = true) :
    FMap.wf 0 (l.foldl (fun m b => if c b then FMap.put 0 m (k b) (v b) else m) m) = true :=
  FMap.foldl_keeps (P := fun m => FMap.wf (0 : Byte) m = true) _
    (fun _ b hm => by
      split
      · exact FMap.wf_put _ _ hm
      · exact hm) l m h

theorem rising_foldl_erase_if (c : Nat → Bool) (l : List Nat) (p : FMap Nat) (h : FMap.risingFrom p 0 = true) :
    FMap.risingFrom (l.foldl (fun p w => if c w then FMap.erase p w else p) p) 0 = true :=
  FMap.foldl_keeps (P := fun p => FMap.risingFrom p 0 = true) _
    (fun _ w hp => by
      split
      · exact FMap.risingFrom_erase w hp
      · exact hp) l p h

theorem rising_foldl_insert {β : Type} (k v : β → Nat) (l : List β) (p : FMap Nat) (h : FMap.risingFrom p 0 = true) :
    FMap.risingFrom (l.foldl (fun p b => FMap.insert p (k b) (v b)) p) 0 = true :=
  FMap.foldl_keeps (P := fun p => FMap.risingFrom p 0 = true) _
    (fun _ _ hp => FMap.risingFrom_insert _ hp (Nat.zero_le _)) l p h

/-! ### The operations keep the canonical form -/

theorem State.store_wf {s : State} (a : Nat) (b : Bytes) (h : s.deviceWf) : (s.store a b).deviceWf :=
  ⟨wf_foldl_put_if _ _ _ _ _ h.1, rising_foldl_erase_if _ _ _ h.2⟩

theorem State.zero_wf {s : State} (a n : Nat) (h : s.deviceWf) : (s.zero a n).deviceWf :=
  ⟨FMap.wf_filter _ h.1, FMap.risingFrom_filter _ h.2⟩

theorem State.poisonRange_wf {s : State} (a n c : Nat) (h : s.deviceWf) : (s.poisonRange a n c).deviceWf :=
  FMap.foldl_keeps (P := State.deviceWf) _ (fun s w hs => by
    dsimp only
    split
    · exact hs
    · exact ⟨FMap.wf_put _ _ (wf_foldl_put _ _ _ _ hs.1), FMap.risingFrom_insert _ hs.2 (Nat.zero_le _)⟩) _ s h

theorem State.storeDep_wf {s : State} (a : Nat) (b : Bytes) (d : Option Nat) (h : s.deviceWf) :
    (s.storeDep a b d).deviceWf := by
  cases d
  · exact State.store_wf a b h
  · exact State.poisonRange_wf _ _ _ h

theorem State.move_wf {s : State} (src dst n : Nat) (h : s.deviceWf) : (s.move src dst n).deviceWf :=
  FMap.foldl_keeps (P := State.deviceWf) _ (fun _ w ht => by
    dsimp only
    split
    · exact ht
    · exact State.poisonRange_wf _ _ _ ht) _ _ (State.store_wf _ _ h)

theorem State.zeroStores_wf (s : State) : s.zeroStores.deviceWf := ⟨rfl, rfl⟩

/-- An image put back keeps the canonical form, whatever the image lists. -/
theorem State.putImage_wf {s : State} (x : Seat) (m : SaveImage) (h : s.deviceWf) : (s.putImage x m).deviceWf := by
  unfold State.putImage
  refine FMap.foldl_keeps (P := State.deviceWf) _ (fun s c hs => ?_) _ _ ?_
  · dsimp only; split <;> exact hs
  refine FMap.foldl_keeps (P := State.deviceWf) _ (fun s tl hs => ?_) _ _ ?_
  · dsimp only; split <;> exact hs
  refine FMap.foldl_keeps (P := State.deviceWf) _ (fun s st hs => ?_) _ _ h
  dsimp only
  split
  · exact hs
  · next b _ =>
    have hz := State.zero_wf b st.2.2 hs
    have hp := And.intro (wf_foldl_put (fun ab : Nat × Byte => b + (ab.1 - st.1)) (·.2)
        (m.bytes.filter (fun ab => st.1 ≤ ab.1 && ab.1 < st.1 + st.2.2)) _ hz.1)
      (rising_foldl_insert (fun ab : Nat × Nat => b + (ab.1 - st.1)) (·.2)
        (m.poison.filter (fun ab => st.1 ≤ ab.1 && ab.1 < st.1 + st.2.2)) _ hz.2)
    split
    · exact State.poisonRange_wf _ _ _ hp
    · exact hp

/-! ### What a byte store leaves at an address -/

/-- Writes to a list of addresses leave every other address. -/
theorem get_foldl_put_if_ne {β : Type} (c : β → Bool) (k : β → Nat) (v : β → Byte) (l : List β) (m : FMap Byte) (x : Nat)
    (h : ∀ b ∈ l, k b ≠ x) :
    FMap.get 0 (l.foldl (fun m b => if c b then FMap.put 0 m (k b) (v b) else m) m) x = FMap.get 0 m x := by
  induction l generalizing m with
  | nil => rfl
  | cons b t ih =>
    rw [List.foldl_cons, ih _ (fun b hb => h b (List.mem_cons_of_mem _ hb))]
    split
    · exact FMap.get_put_ne _ _ _ (h b List.mem_cons_self).symm
    · rfl

/-- The stacks stay as they are, so a byte is lost after a store where it was lost before. -/
@[simp] theorem State.store_lostByte (s : State) (a : Nat) (b : Bytes) (x : Nat) :
    (s.store a b).lostByte x = s.lostByte x := rfl

/-- A byte outside a store's range reads as before. -/
theorem State.store_frame (s : State) (a : Nat) (b : Bytes) (x : Nat) (h : x < a ∨ a + b.length ≤ x) :
    (s.store a b).byte x = s.byte x := by
  unfold State.byte
  rw [State.store_lostByte]
  congr 1
  refine get_foldl_put_if_ne _ (fun ib : Nat × Byte => a + ib.1) (·.2) _ s.mem x (fun ib hib => ?_)
  have := List.mem_range.1 (List.of_mem_zip hib).1
  omega

/-- The bytes that are kept are written; later pairs of a list of distinct keys do not disturb them. -/
theorem get_foldl_put_range (c : Nat → Bool) (a n : Nat) (b : Bytes) (m : FMap Byte) (i : Nat) (hi : i < n)
    (hb : i < b.length) (hc : c (a + i) = true) :
    FMap.get 0 (((List.range n).zip b).foldl (fun m ib => if c (a + ib.1) then FMap.put 0 m (a + ib.1) ib.2 else m) m) (a + i)
      = b[i] := by
  have hz : i < ((List.range n).zip b).length := by simp; omega
  have hs : (List.range n).zip b = ((List.range n).zip b).take i ++ (i, b[i]) :: ((List.range n).zip b).drop (i + 1) := by
    have h := (List.take_append_drop i ((List.range n).zip b)).symm
    rw [List.drop_eq_getElem_cons hz] at h
    simpa using h
  rw [hs, List.foldl_append, List.foldl_cons]
  refine (get_foldl_put_if_ne (fun ib : Nat × Byte => c (a + ib.1)) (fun ib => a + ib.1) (·.2) _ _ (a + i)
    (fun ib hib => ?_)).trans ?_
  · obtain ⟨j, hj, rfl⟩ := List.mem_iff_getElem.1 hib
    simp
    omega
  · simp only [hc, if_true]
    exact FMap.get_put_self _ _ _ _

/-- A byte of a store reads back as written where its word holds no poison and its stack is not withdrawn. -/
theorem State.store_read (s : State) (a : Nat) (b : Bytes) (i : Nat) (hi : i < b.length) (hl : s.lostByte (a + i) = false)
    (hp : FMap.find? s.poison (wordBase (a + i)) = none) : (s.store a b).byte (a + i) = b[i] := by
  unfold State.byte
  rw [State.store_lostByte, hl]
  refine get_foldl_put_range (fun x => !s.lostByte x && ((FMap.find? s.poison (wordBase x)).isNone ||
    (a ≤ wordBase x && wordBase x + wordSize (wordBase x) ≤ a + b.length))) a b.length b s.mem i hi hi ?_
  simp [hl, hp]

end Sys2Proof.Machine
end

