-- ==== Sys2Proof/Laws/State.lean ====
section
/-!
SUPPORT. What each named update of one piece of the state leaves in every other field: one lemma per field per update, each
true by unfolding, so that no later proof opens a record update; then what a piece reads after it is written.
-/

namespace Sys2Proof.Machine

variable (s : State)


/-! ### setStack writes only units -/

@[simp] theorem State.setStack_time (n : Nat) (x : Stack) : (s.setStack n x).time = s.time := rfl
@[simp] theorem State.setStack_free (n : Nat) (x : Stack) : (s.setStack n x).free = s.free := rfl
@[simp] theorem State.setStack_pending (n : Nat) (x : Stack) : (s.setStack n x).pending = s.pending := rfl
@[simp] theorem State.setStack_ident (n : Nat) (x : Stack) : (s.setStack n x).ident = s.ident := rfl
@[simp] theorem State.setStack_mod (n : Nat) (x : Stack) : (s.setStack n x).mod = s.mod := rfl
@[simp] theorem State.setStack_pins (n : Nat) (x : Stack) : (s.setStack n x).pins = s.pins := rfl
@[simp] theorem State.setStack_jtag (n : Nat) (x : Stack) : (s.setStack n x).jtag = s.jtag := rfl
@[simp] theorem State.setStack_clk (n : Nat) (x : Stack) : (s.setStack n x).clk = s.clk := rfl
@[simp] theorem State.setStack_pwr (n : Nat) (x : Stack) : (s.setStack n x).pwr = s.pwr := rfl
@[simp] theorem State.setStack_mem (n : Nat) (x : Stack) : (s.setStack n x).mem = s.mem := rfl
@[simp] theorem State.setStack_poison (n : Nat) (x : Stack) : (s.setStack n x).poison = s.poison := rfl
@[simp] theorem State.setStack_tiles (n : Nat) (x : Stack) : (s.setStack n x).tiles = s.tiles := rfl
@[simp] theorem State.setStack_clusters (n : Nat) (x : Stack) : (s.setStack n x).clusters = s.clusters := rfl
@[simp] theorem State.setStack_sync (n : Nat) (x : Stack) : (s.setStack n x).sync = s.sync := rfl
@[simp] theorem State.setStack_seats (n : Nat) (x : Stack) : (s.setStack n x).seats = s.seats := rfl
@[simp] theorem State.setStack_host (n : Nat) (x : Stack) : (s.setStack n x).host = s.host := rfl
@[simp] theorem State.setStack_mgmt (n : Nat) (x : Stack) : (s.setStack n x).mgmt = s.mgmt := rfl
@[simp] theorem State.setStack_sec (n : Nat) (x : Stack) : (s.setStack n x).sec = s.sec := rfl
@[simp] theorem State.setStack_log (n : Nat) (x : Stack) : (s.setStack n x).log = s.log := rfl
@[simp] theorem State.setStack_mons (n : Nat) (x : Stack) : (s.setStack n x).mons = s.mons := rfl
@[simp] theorem State.setStack_fw (n : Nat) (x : Stack) : (s.setStack n x).fw = s.fw := rfl
@[simp] theorem State.setStack_ctrs (n : Nat) (x : Stack) : (s.setStack n x).ctrs = s.ctrs := rfl
@[simp] theorem State.setStack_druind (n : Nat) (x : Stack) : (s.setStack n x).druind = s.druind := rfl
@[simp] theorem State.setStack_ni (n : Nat) (x : Stack) : (s.setStack n x).ni = s.ni := rfl
@[simp] theorem State.setStack_fab (n : Nat) (x : Stack) : (s.setStack n x).fab = s.fab := rfl
@[simp] theorem State.setStack_flash (n : Nat) (x : Stack) : (s.setStack n x).flash = s.flash := rfl
@[simp] theorem State.setStack_tk (n : Nat) (x : Stack) : (s.setStack n x).tk = s.tk := rfl


/-! ### setPtile writes only units -/

@[simp] theorem State.setPtile_time (n : Nat) (x : PTile) : (s.setPtile n x).time = s.time := rfl
@[simp] theorem State.setPtile_free (n : Nat) (x : PTile) : (s.setPtile n x).free = s.free := rfl
@[simp] theorem State.setPtile_pending (n : Nat) (x : PTile) : (s.setPtile n x).pending = s.pending := rfl
@[simp] theorem State.setPtile_ident (n : Nat) (x : PTile) : (s.setPtile n x).ident = s.ident := rfl
@[simp] theorem State.setPtile_mod (n : Nat) (x : PTile) : (s.setPtile n x).mod = s.mod := rfl
@[simp] theorem State.setPtile_pins (n : Nat) (x : PTile) : (s.setPtile n x).pins = s.pins := rfl
@[simp] theorem State.setPtile_jtag (n : Nat) (x : PTile) : (s.setPtile n x).jtag = s.jtag := rfl
@[simp] theorem State.setPtile_clk (n : Nat) (x : PTile) : (s.setPtile n x).clk = s.clk := rfl
@[simp] theorem State.setPtile_pwr (n : Nat) (x : PTile) : (s.setPtile n x).pwr = s.pwr := rfl
@[simp] theorem State.setPtile_mem (n : Nat) (x : PTile) : (s.setPtile n x).mem = s.mem := rfl
@[simp] theorem State.setPtile_poison (n : Nat) (x : PTile) : (s.setPtile n x).poison = s.poison := rfl
@[simp] theorem State.setPtile_tiles (n : Nat) (x : PTile) : (s.setPtile n x).tiles = s.tiles := rfl
@[simp] theorem State.setPtile_clusters (n : Nat) (x : PTile) : (s.setPtile n x).clusters = s.clusters := rfl
@[simp] theorem State.setPtile_sync (n : Nat) (x : PTile) : (s.setPtile n x).sync = s.sync := rfl
@[simp] theorem State.setPtile_seats (n : Nat) (x : PTile) : (s.setPtile n x).seats = s.seats := rfl
@[simp] theorem State.setPtile_host (n : Nat) (x : PTile) : (s.setPtile n x).host = s.host := rfl
@[simp] theorem State.setPtile_mgmt (n : Nat) (x : PTile) : (s.setPtile n x).mgmt = s.mgmt := rfl
@[simp] theorem State.setPtile_sec (n : Nat) (x : PTile) : (s.setPtile n x).sec = s.sec := rfl
@[simp] theorem State.setPtile_log (n : Nat) (x : PTile) : (s.setPtile n x).log = s.log := rfl
@[simp] theorem State.setPtile_mons (n : Nat) (x : PTile) : (s.setPtile n x).mons = s.mons := rfl
@[simp] theorem State.setPtile_fw (n : Nat) (x : PTile) : (s.setPtile n x).fw = s.fw := rfl
@[simp] theorem State.setPtile_ctrs (n : Nat) (x : PTile) : (s.setPtile n x).ctrs = s.ctrs := rfl
@[simp] theorem State.setPtile_druind (n : Nat) (x : PTile) : (s.setPtile n x).druind = s.druind := rfl
@[simp] theorem State.setPtile_ni (n : Nat) (x : PTile) : (s.setPtile n x).ni = s.ni := rfl
@[simp] theorem State.setPtile_fab (n : Nat) (x : PTile) : (s.setPtile n x).fab = s.fab := rfl
@[simp] theorem State.setPtile_flash (n : Nat) (x : PTile) : (s.setPtile n x).flash = s.flash := rfl
@[simp] theorem State.setPtile_tk (n : Nat) (x : PTile) : (s.setPtile n x).tk = s.tk := rfl


/-! ### setPcluster writes only units -/

@[simp] theorem State.setPcluster_time (n : Nat) (x : PCluster) : (s.setPcluster n x).time = s.time := rfl
@[simp] theorem State.setPcluster_free (n : Nat) (x : PCluster) : (s.setPcluster n x).free = s.free := rfl
@[simp] theorem State.setPcluster_pending (n : Nat) (x : PCluster) : (s.setPcluster n x).pending = s.pending := rfl
@[simp] theorem State.setPcluster_ident (n : Nat) (x : PCluster) : (s.setPcluster n x).ident = s.ident := rfl
@[simp] theorem State.setPcluster_mod (n : Nat) (x : PCluster) : (s.setPcluster n x).mod = s.mod := rfl
@[simp] theorem State.setPcluster_pins (n : Nat) (x : PCluster) : (s.setPcluster n x).pins = s.pins := rfl
@[simp] theorem State.setPcluster_jtag (n : Nat) (x : PCluster) : (s.setPcluster n x).jtag = s.jtag := rfl
@[simp] theorem State.setPcluster_clk (n : Nat) (x : PCluster) : (s.setPcluster n x).clk = s.clk := rfl
@[simp] theorem State.setPcluster_pwr (n : Nat) (x : PCluster) : (s.setPcluster n x).pwr = s.pwr := rfl
@[simp] theorem State.setPcluster_mem (n : Nat) (x : PCluster) : (s.setPcluster n x).mem = s.mem := rfl
@[simp] theorem State.setPcluster_poison (n : Nat) (x : PCluster) : (s.setPcluster n x).poison = s.poison := rfl
@[simp] theorem State.setPcluster_tiles (n : Nat) (x : PCluster) : (s.setPcluster n x).tiles = s.tiles := rfl
@[simp] theorem State.setPcluster_clusters (n : Nat) (x : PCluster) : (s.setPcluster n x).clusters = s.clusters := rfl
@[simp] theorem State.setPcluster_sync (n : Nat) (x : PCluster) : (s.setPcluster n x).sync = s.sync := rfl
@[simp] theorem State.setPcluster_seats (n : Nat) (x : PCluster) : (s.setPcluster n x).seats = s.seats := rfl
@[simp] theorem State.setPcluster_host (n : Nat) (x : PCluster) : (s.setPcluster n x).host = s.host := rfl
@[simp] theorem State.setPcluster_mgmt (n : Nat) (x : PCluster) : (s.setPcluster n x).mgmt = s.mgmt := rfl
@[simp] theorem State.setPcluster_sec (n : Nat) (x : PCluster) : (s.setPcluster n x).sec = s.sec := rfl
@[simp] theorem State.setPcluster_log (n : Nat) (x : PCluster) : (s.setPcluster n x).log = s.log := rfl
@[simp] theorem State.setPcluster_mons (n : Nat) (x : PCluster) : (s.setPcluster n x).mons = s.mons := rfl
@[simp] theorem State.setPcluster_fw (n : Nat) (x : PCluster) : (s.setPcluster n x).fw = s.fw := rfl
@[simp] theorem State.setPcluster_ctrs (n : Nat) (x : PCluster) : (s.setPcluster n x).ctrs = s.ctrs := rfl
@[simp] theorem State.setPcluster_druind (n : Nat) (x : PCluster) : (s.setPcluster n x).druind = s.druind := rfl
@[simp] theorem State.setPcluster_ni (n : Nat) (x : PCluster) : (s.setPcluster n x).ni = s.ni := rfl
@[simp] theorem State.setPcluster_fab (n : Nat) (x : PCluster) : (s.setPcluster n x).fab = s.fab := rfl
@[simp] theorem State.setPcluster_flash (n : Nat) (x : PCluster) : (s.setPcluster n x).flash = s.flash := rfl
@[simp] theorem State.setPcluster_tk (n : Nat) (x : PCluster) : (s.setPcluster n x).tk = s.tk := rfl


/-! ### setSeat writes only seats -/

@[simp] theorem State.setSeat_time (n : Nat) (x : Seat) : (s.setSeat n x).time = s.time := rfl
@[simp] theorem State.setSeat_free (n : Nat) (x : Seat) : (s.setSeat n x).free = s.free := rfl
@[simp] theorem State.setSeat_pending (n : Nat) (x : Seat) : (s.setSeat n x).pending = s.pending := rfl
@[simp] theorem State.setSeat_ident (n : Nat) (x : Seat) : (s.setSeat n x).ident = s.ident := rfl
@[simp] theorem State.setSeat_mod (n : Nat) (x : Seat) : (s.setSeat n x).mod = s.mod := rfl
@[simp] theorem State.setSeat_pins (n : Nat) (x : Seat) : (s.setSeat n x).pins = s.pins := rfl
@[simp] theorem State.setSeat_jtag (n : Nat) (x : Seat) : (s.setSeat n x).jtag = s.jtag := rfl
@[simp] theorem State.setSeat_clk (n : Nat) (x : Seat) : (s.setSeat n x).clk = s.clk := rfl
@[simp] theorem State.setSeat_pwr (n : Nat) (x : Seat) : (s.setSeat n x).pwr = s.pwr := rfl
@[simp] theorem State.setSeat_mem (n : Nat) (x : Seat) : (s.setSeat n x).mem = s.mem := rfl
@[simp] theorem State.setSeat_poison (n : Nat) (x : Seat) : (s.setSeat n x).poison = s.poison := rfl
@[simp] theorem State.setSeat_units (n : Nat) (x : Seat) : (s.setSeat n x).units = s.units := rfl
@[simp] theorem State.setSeat_tiles (n : Nat) (x : Seat) : (s.setSeat n x).tiles = s.tiles := rfl
@[simp] theorem State.setSeat_clusters (n : Nat) (x : Seat) : (s.setSeat n x).clusters = s.clusters := rfl
@[simp] theorem State.setSeat_sync (n : Nat) (x : Seat) : (s.setSeat n x).sync = s.sync := rfl
@[simp] theorem State.setSeat_host (n : Nat) (x : Seat) : (s.setSeat n x).host = s.host := rfl
@[simp] theorem State.setSeat_mgmt (n : Nat) (x : Seat) : (s.setSeat n x).mgmt = s.mgmt := rfl
@[simp] theorem State.setSeat_sec (n : Nat) (x : Seat) : (s.setSeat n x).sec = s.sec := rfl
@[simp] theorem State.setSeat_log (n : Nat) (x : Seat) : (s.setSeat n x).log = s.log := rfl
@[simp] theorem State.setSeat_mons (n : Nat) (x : Seat) : (s.setSeat n x).mons = s.mons := rfl
@[simp] theorem State.setSeat_fw (n : Nat) (x : Seat) : (s.setSeat n x).fw = s.fw := rfl
@[simp] theorem State.setSeat_ctrs (n : Nat) (x : Seat) : (s.setSeat n x).ctrs = s.ctrs := rfl
@[simp] theorem State.setSeat_druind (n : Nat) (x : Seat) : (s.setSeat n x).druind = s.druind := rfl
@[simp] theorem State.setSeat_ni (n : Nat) (x : Seat) : (s.setSeat n x).ni = s.ni := rfl
@[simp] theorem State.setSeat_fab (n : Nat) (x : Seat) : (s.setSeat n x).fab = s.fab := rfl
@[simp] theorem State.setSeat_flash (n : Nat) (x : Seat) : (s.setSeat n x).flash = s.flash := rfl
@[simp] theorem State.setSeat_tk (n : Nat) (x : Seat) : (s.setSeat n x).tk = s.tk := rfl


/-! ### setTile writes only tiles -/

@[simp] theorem State.setTile_time (n : Nat) (x : Tile) : (s.setTile n x).time = s.time := rfl
@[simp] theorem State.setTile_free (n : Nat) (x : Tile) : (s.setTile n x).free = s.free := rfl
@[simp] theorem State.setTile_pending (n : Nat) (x : Tile) : (s.setTile n x).pending = s.pending := rfl
@[simp] theorem State.setTile_ident (n : Nat) (x : Tile) : (s.setTile n x).ident = s.ident := rfl
@[simp] theorem State.setTile_mod (n : Nat) (x : Tile) : (s.setTile n x).mod = s.mod := rfl
@[simp] theorem State.setTile_pins (n : Nat) (x : Tile) : (s.setTile n x).pins = s.pins := rfl
@[simp] theorem State.setTile_jtag (n : Nat) (x : Tile) : (s.setTile n x).jtag = s.jtag := rfl
@[simp] theorem State.setTile_clk (n : Nat) (x : Tile) : (s.setTile n x).clk = s.clk := rfl
@[simp] theorem State.setTile_pwr (n : Nat) (x : Tile) : (s.setTile n x).pwr = s.pwr := rfl
@[simp] theorem State.setTile_mem (n : Nat) (x : Tile) : (s.setTile n x).mem = s.mem := rfl
@[simp] theorem State.setTile_poison (n : Nat) (x : Tile) : (s.setTile n x).poison = s.poison := rfl
@[simp] theorem State.setTile_units (n : Nat) (x : Tile) : (s.setTile n x).units = s.units := rfl
@[simp] theorem State.setTile_clusters (n : Nat) (x : Tile) : (s.setTile n x).clusters = s.clusters := rfl
@[simp] theorem State.setTile_sync (n : Nat) (x : Tile) : (s.setTile n x).sync = s.sync := rfl
@[simp] theorem State.setTile_seats (n : Nat) (x : Tile) : (s.setTile n x).seats = s.seats := rfl
@[simp] theorem State.setTile_host (n : Nat) (x : Tile) : (s.setTile n x).host = s.host := rfl
@[simp] theorem State.setTile_mgmt (n : Nat) (x : Tile) : (s.setTile n x).mgmt = s.mgmt := rfl
@[simp] theorem State.setTile_sec (n : Nat) (x : Tile) : (s.setTile n x).sec = s.sec := rfl
@[simp] theorem State.setTile_log (n : Nat) (x : Tile) : (s.setTile n x).log = s.log := rfl
@[simp] theorem State.setTile_mons (n : Nat) (x : Tile) : (s.setTile n x).mons = s.mons := rfl
@[simp] theorem State.setTile_fw (n : Nat) (x : Tile) : (s.setTile n x).fw = s.fw := rfl
@[simp] theorem State.setTile_ctrs (n : Nat) (x : Tile) : (s.setTile n x).ctrs = s.ctrs := rfl
@[simp] theorem State.setTile_druind (n : Nat) (x : Tile) : (s.setTile n x).druind = s.druind := rfl
@[simp] theorem State.setTile_ni (n : Nat) (x : Tile) : (s.setTile n x).ni = s.ni := rfl
@[simp] theorem State.setTile_fab (n : Nat) (x : Tile) : (s.setTile n x).fab = s.fab := rfl
@[simp] theorem State.setTile_flash (n : Nat) (x : Tile) : (s.setTile n x).flash = s.flash := rfl
@[simp] theorem State.setTile_tk (n : Nat) (x : Tile) : (s.setTile n x).tk = s.tk := rfl


/-! ### setCtx writes only tiles -/

@[simp] theorem State.setCtx_time (n c : Nat) (x : Ctx) : (s.setCtx n c x).time = s.time := rfl
@[simp] theorem State.setCtx_free (n c : Nat) (x : Ctx) : (s.setCtx n c x).free = s.free := rfl
@[simp] theorem State.setCtx_pending (n c : Nat) (x : Ctx) : (s.setCtx n c x).pending = s.pending := rfl
@[simp] theorem State.setCtx_ident (n c : Nat) (x : Ctx) : (s.setCtx n c x).ident = s.ident := rfl
@[simp] theorem State.setCtx_mod (n c : Nat) (x : Ctx) : (s.setCtx n c x).mod = s.mod := rfl
@[simp] theorem State.setCtx_pins (n c : Nat) (x : Ctx) : (s.setCtx n c x).pins = s.pins := rfl
@[simp] theorem State.setCtx_jtag (n c : Nat) (x : Ctx) : (s.setCtx n c x).jtag = s.jtag := rfl
@[simp] theorem State.setCtx_clk (n c : Nat) (x : Ctx) : (s.setCtx n c x).clk = s.clk := rfl
@[simp] theorem State.setCtx_pwr (n c : Nat) (x : Ctx) : (s.setCtx n c x).pwr = s.pwr := rfl
@[simp] theorem State.setCtx_mem (n c : Nat) (x : Ctx) : (s.setCtx n c x).mem = s.mem := rfl
@[simp] theorem State.setCtx_poison (n c : Nat) (x : Ctx) : (s.setCtx n c x).poison = s.poison := rfl
@[simp] theorem State.setCtx_units (n c : Nat) (x : Ctx) : (s.setCtx n c x).units = s.units := rfl
@[simp] theorem State.setCtx_clusters (n c : Nat) (x : Ctx) : (s.setCtx n c x).clusters = s.clusters := rfl
@[simp] theorem State.setCtx_sync (n c : Nat) (x : Ctx) : (s.setCtx n c x).sync = s.sync := rfl
@[simp] theorem State.setCtx_seats (n c : Nat) (x : Ctx) : (s.setCtx n c x).seats = s.seats := rfl
@[simp] theorem State.setCtx_host (n c : Nat) (x : Ctx) : (s.setCtx n c x).host = s.host := rfl
@[simp] theorem State.setCtx_mgmt (n c : Nat) (x : Ctx) : (s.setCtx n c x).mgmt = s.mgmt := rfl
@[simp] theorem State.setCtx_sec (n c : Nat) (x : Ctx) : (s.setCtx n c x).sec = s.sec := rfl
@[simp] theorem State.setCtx_log (n c : Nat) (x : Ctx) : (s.setCtx n c x).log = s.log := rfl
@[simp] theorem State.setCtx_mons (n c : Nat) (x : Ctx) : (s.setCtx n c x).mons = s.mons := rfl
@[simp] theorem State.setCtx_fw (n c : Nat) (x : Ctx) : (s.setCtx n c x).fw = s.fw := rfl
@[simp] theorem State.setCtx_ctrs (n c : Nat) (x : Ctx) : (s.setCtx n c x).ctrs = s.ctrs := rfl
@[simp] theorem State.setCtx_druind (n c : Nat) (x : Ctx) : (s.setCtx n c x).druind = s.druind := rfl
@[simp] theorem State.setCtx_ni (n c : Nat) (x : Ctx) : (s.setCtx n c x).ni = s.ni := rfl
@[simp] theorem State.setCtx_fab (n c : Nat) (x : Ctx) : (s.setCtx n c x).fab = s.fab := rfl
@[simp] theorem State.setCtx_flash (n c : Nat) (x : Ctx) : (s.setCtx n c x).flash = s.flash := rfl
@[simp] theorem State.setCtx_tk (n c : Nat) (x : Ctx) : (s.setCtx n c x).tk = s.tk := rfl


/-! ### setGmm writes only tiles -/

@[simp] theorem State.setGmm_time (n c : Nat) (g : GmmRun) : (s.setGmm n c g).time = s.time := rfl
@[simp] theorem State.setGmm_free (n c : Nat) (g : GmmRun) : (s.setGmm n c g).free = s.free := rfl
@[simp] theorem State.setGmm_pending (n c : Nat) (g : GmmRun) : (s.setGmm n c g).pending = s.pending := rfl
@[simp] theorem State.setGmm_ident (n c : Nat) (g : GmmRun) : (s.setGmm n c g).ident = s.ident := rfl
@[simp] theorem State.setGmm_mod (n c : Nat) (g : GmmRun) : (s.setGmm n c g).mod = s.mod := rfl
@[simp] theorem State.setGmm_pins (n c : Nat) (g : GmmRun) : (s.setGmm n c g).pins = s.pins := rfl
@[simp] theorem State.setGmm_jtag (n c : Nat) (g : GmmRun) : (s.setGmm n c g).jtag = s.jtag := rfl
@[simp] theorem State.setGmm_clk (n c : Nat) (g : GmmRun) : (s.setGmm n c g).clk = s.clk := rfl
@[simp] theorem State.setGmm_pwr (n c : Nat) (g : GmmRun) : (s.setGmm n c g).pwr = s.pwr := rfl
@[simp] theorem State.setGmm_mem (n c : Nat) (g : GmmRun) : (s.setGmm n c g).mem = s.mem := rfl
@[simp] theorem State.setGmm_poison (n c : Nat) (g : GmmRun) : (s.setGmm n c g).poison = s.poison := rfl
@[simp] theorem State.setGmm_units (n c : Nat) (g : GmmRun) : (s.setGmm n c g).units = s.units := rfl
@[simp] theorem State.setGmm_clusters (n c : Nat) (g : GmmRun) : (s.setGmm n c g).clusters = s.clusters := rfl
@[simp] theorem State.setGmm_sync (n c : Nat) (g : GmmRun) : (s.setGmm n c g).sync = s.sync := rfl
@[simp] theorem State.setGmm_seats (n c : Nat) (g : GmmRun) : (s.setGmm n c g).seats = s.seats := rfl
@[simp] theorem State.setGmm_host (n c : Nat) (g : GmmRun) : (s.setGmm n c g).host = s.host := rfl
@[simp] theorem State.setGmm_mgmt (n c : Nat) (g : GmmRun) : (s.setGmm n c g).mgmt = s.mgmt := rfl
@[simp] theorem State.setGmm_sec (n c : Nat) (g : GmmRun) : (s.setGmm n c g).sec = s.sec := rfl
@[simp] theorem State.setGmm_log (n c : Nat) (g : GmmRun) : (s.setGmm n c g).log = s.log := rfl
@[simp] theorem State.setGmm_mons (n c : Nat) (g : GmmRun) : (s.setGmm n c g).mons = s.mons := rfl
@[simp] theorem State.setGmm_fw (n c : Nat) (g : GmmRun) : (s.setGmm n c g).fw = s.fw := rfl
@[simp] theorem State.setGmm_ctrs (n c : Nat) (g : GmmRun) : (s.setGmm n c g).ctrs = s.ctrs := rfl
@[simp] theorem State.setGmm_druind (n c : Nat) (g : GmmRun) : (s.setGmm n c g).druind = s.druind := rfl
@[simp] theorem State.setGmm_ni (n c : Nat) (g : GmmRun) : (s.setGmm n c g).ni = s.ni := rfl
@[simp] theorem State.setGmm_fab (n c : Nat) (g : GmmRun) : (s.setGmm n c g).fab = s.fab := rfl
@[simp] theorem State.setGmm_flash (n c : Nat) (g : GmmRun) : (s.setGmm n c g).flash = s.flash := rfl
@[simp] theorem State.setGmm_tk (n c : Nat) (g : GmmRun) : (s.setGmm n c g).tk = s.tk := rfl


/-! ### setCluster writes only clusters -/

@[simp] theorem State.setCluster_time (n : Nat) (x : Cluster) : (s.setCluster n x).time = s.time := rfl
@[simp] theorem State.setCluster_free (n : Nat) (x : Cluster) : (s.setCluster n x).free = s.free := rfl
@[simp] theorem State.setCluster_pending (n : Nat) (x : Cluster) : (s.setCluster n x).pending = s.pending := rfl
@[simp] theorem State.setCluster_ident (n : Nat) (x : Cluster) : (s.setCluster n x).ident = s.ident := rfl
@[simp] theorem State.setCluster_mod (n : Nat) (x : Cluster) : (s.setCluster n x).mod = s.mod := rfl
@[simp] theorem State.setCluster_pins (n : Nat) (x : Cluster) : (s.setCluster n x).pins = s.pins := rfl
@[simp] theorem State.setCluster_jtag (n : Nat) (x : Cluster) : (s.setCluster n x).jtag = s.jtag := rfl
@[simp] theorem State.setCluster_clk (n : Nat) (x : Cluster) : (s.setCluster n x).clk = s.clk := rfl
@[simp] theorem State.setCluster_pwr (n : Nat) (x : Cluster) : (s.setCluster n x).pwr = s.pwr := rfl
@[simp] theorem State.setCluster_mem (n : Nat) (x : Cluster) : (s.setCluster n x).mem = s.mem := rfl
@[simp] theorem State.setCluster_poison (n : Nat) (x : Cluster) : (s.setCluster n x).poison = s.poison := rfl
@[simp] theorem State.setCluster_units (n : Nat) (x : Cluster) : (s.setCluster n x).units = s.units := rfl
@[simp] theorem State.setCluster_tiles (n : Nat) (x : Cluster) : (s.setCluster n x).tiles = s.tiles := rfl
@[simp] theorem State.setCluster_sync (n : Nat) (x : Cluster) : (s.setCluster n x).sync = s.sync := rfl
@[simp] theorem State.setCluster_seats (n : Nat) (x : Cluster) : (s.setCluster n x).seats = s.seats := rfl
@[simp] theorem State.setCluster_host (n : Nat) (x : Cluster) : (s.setCluster n x).host = s.host := rfl
@[simp] theorem State.setCluster_mgmt (n : Nat) (x : Cluster) : (s.setCluster n x).mgmt = s.mgmt := rfl
@[simp] theorem State.setCluster_sec (n : Nat) (x : Cluster) : (s.setCluster n x).sec = s.sec := rfl
@[simp] theorem State.setCluster_log (n : Nat) (x : Cluster) : (s.setCluster n x).log = s.log := rfl
@[simp] theorem State.setCluster_mons (n : Nat) (x : Cluster) : (s.setCluster n x).mons = s.mons := rfl
@[simp] theorem State.setCluster_fw (n : Nat) (x : Cluster) : (s.setCluster n x).fw = s.fw := rfl
@[simp] theorem State.setCluster_ctrs (n : Nat) (x : Cluster) : (s.setCluster n x).ctrs = s.ctrs := rfl
@[simp] theorem State.setCluster_druind (n : Nat) (x : Cluster) : (s.setCluster n x).druind = s.druind := rfl
@[simp] theorem State.setCluster_ni (n : Nat) (x : Cluster) : (s.setCluster n x).ni = s.ni := rfl
@[simp] theorem State.setCluster_fab (n : Nat) (x : Cluster) : (s.setCluster n x).fab = s.fab := rfl
@[simp] theorem State.setCluster_flash (n : Nat) (x : Cluster) : (s.setCluster n x).flash = s.flash := rfl
@[simp] theorem State.setCluster_tk (n : Nat) (x : Cluster) : (s.setCluster n x).tk = s.tk := rfl


/-! ### setSegment writes only tiles -/

@[simp] theorem State.setSegment_time (n : Nat) (g : List W32) : (s.setSegment n g).time = s.time := rfl
@[simp] theorem State.setSegment_free (n : Nat) (g : List W32) : (s.setSegment n g).free = s.free := rfl
@[simp] theorem State.setSegment_pending (n : Nat) (g : List W32) : (s.setSegment n g).pending = s.pending := rfl
@[simp] theorem State.setSegment_ident (n : Nat) (g : List W32) : (s.setSegment n g).ident = s.ident := rfl
@[simp] theorem State.setSegment_mod (n : Nat) (g : List W32) : (s.setSegment n g).mod = s.mod := rfl
@[simp] theorem State.setSegment_pins (n : Nat) (g : List W32) : (s.setSegment n g).pins = s.pins := rfl
@[simp] theorem State.setSegment_jtag (n : Nat) (g : List W32) : (s.setSegment n g).jtag = s.jtag := rfl
@[simp] theorem State.setSegment_clk (n : Nat) (g : List W32) : (s.setSegment n g).clk = s.clk := rfl
@[simp] theorem State.setSegment_pwr (n : Nat) (g : List W32) : (s.setSegment n g).pwr = s.pwr := rfl
@[simp] theorem State.setSegment_mem (n : Nat) (g : List W32) : (s.setSegment n g).mem = s.mem := rfl
@[simp] theorem State.setSegment_poison (n : Nat) (g : List W32) : (s.setSegment n g).poison = s.poison := rfl
@[simp] theorem State.setSegment_units (n : Nat) (g : List W32) : (s.setSegment n g).units = s.units := rfl
@[simp] theorem State.setSegment_clusters (n : Nat) (g : List W32) : (s.setSegment n g).clusters = s.clusters := rfl
@[simp] theorem State.setSegment_sync (n : Nat) (g : List W32) : (s.setSegment n g).sync = s.sync := rfl
@[simp] theorem State.setSegment_seats (n : Nat) (g : List W32) : (s.setSegment n g).seats = s.seats := rfl
@[simp] theorem State.setSegment_host (n : Nat) (g : List W32) : (s.setSegment n g).host = s.host := rfl
@[simp] theorem State.setSegment_mgmt (n : Nat) (g : List W32) : (s.setSegment n g).mgmt = s.mgmt := rfl
@[simp] theorem State.setSegment_sec (n : Nat) (g : List W32) : (s.setSegment n g).sec = s.sec := rfl
@[simp] theorem State.setSegment_log (n : Nat) (g : List W32) : (s.setSegment n g).log = s.log := rfl
@[simp] theorem State.setSegment_mons (n : Nat) (g : List W32) : (s.setSegment n g).mons = s.mons := rfl
@[simp] theorem State.setSegment_fw (n : Nat) (g : List W32) : (s.setSegment n g).fw = s.fw := rfl
@[simp] theorem State.setSegment_ctrs (n : Nat) (g : List W32) : (s.setSegment n g).ctrs = s.ctrs := rfl
@[simp] theorem State.setSegment_druind (n : Nat) (g : List W32) : (s.setSegment n g).druind = s.druind := rfl
@[simp] theorem State.setSegment_ni (n : Nat) (g : List W32) : (s.setSegment n g).ni = s.ni := rfl
@[simp] theorem State.setSegment_fab (n : Nat) (g : List W32) : (s.setSegment n g).fab = s.fab := rfl
@[simp] theorem State.setSegment_flash (n : Nat) (g : List W32) : (s.setSegment n g).flash = s.flash := rfl
@[simp] theorem State.setSegment_tk (n : Nat) (g : List W32) : (s.setSegment n g).tk = s.tk := rfl


/-! ### setBank writes only tiles -/

@[simp] theorem State.setBank_time (n : Nat) (a g : List W32) : (s.setBank n a g).time = s.time := rfl
@[simp] theorem State.setBank_free (n : Nat) (a g : List W32) : (s.setBank n a g).free = s.free := rfl
@[simp] theorem State.setBank_pending (n : Nat) (a g : List W32) : (s.setBank n a g).pending = s.pending := rfl
@[simp] theorem State.setBank_ident (n : Nat) (a g : List W32) : (s.setBank n a g).ident = s.ident := rfl
@[simp] theorem State.setBank_mod (n : Nat) (a g : List W32) : (s.setBank n a g).mod = s.mod := rfl
@[simp] theorem State.setBank_pins (n : Nat) (a g : List W32) : (s.setBank n a g).pins = s.pins := rfl
@[simp] theorem State.setBank_jtag (n : Nat) (a g : List W32) : (s.setBank n a g).jtag = s.jtag := rfl
@[simp] theorem State.setBank_clk (n : Nat) (a g : List W32) : (s.setBank n a g).clk = s.clk := rfl
@[simp] theorem State.setBank_pwr (n : Nat) (a g : List W32) : (s.setBank n a g).pwr = s.pwr := rfl
@[simp] theorem State.setBank_mem (n : Nat) (a g : List W32) : (s.setBank n a g).mem = s.mem := rfl
@[simp] theorem State.setBank_poison (n : Nat) (a g : List W32) : (s.setBank n a g).poison = s.poison := rfl
@[simp] theorem State.setBank_units (n : Nat) (a g : List W32) : (s.setBank n a g).units = s.units := rfl
@[simp] theorem State.setBank_clusters (n : Nat) (a g : List W32) : (s.setBank n a g).clusters = s.clusters := rfl
@[simp] theorem State.setBank_sync (n : Nat) (a g : List W32) : (s.setBank n a g).sync = s.sync := rfl
@[simp] theorem State.setBank_seats (n : Nat) (a g : List W32) : (s.setBank n a g).seats = s.seats := rfl
@[simp] theorem State.setBank_host (n : Nat) (a g : List W32) : (s.setBank n a g).host = s.host := rfl
@[simp] theorem State.setBank_mgmt (n : Nat) (a g : List W32) : (s.setBank n a g).mgmt = s.mgmt := rfl
@[simp] theorem State.setBank_sec (n : Nat) (a g : List W32) : (s.setBank n a g).sec = s.sec := rfl
@[simp] theorem State.setBank_log (n : Nat) (a g : List W32) : (s.setBank n a g).log = s.log := rfl
@[simp] theorem State.setBank_mons (n : Nat) (a g : List W32) : (s.setBank n a g).mons = s.mons := rfl
@[simp] theorem State.setBank_fw (n : Nat) (a g : List W32) : (s.setBank n a g).fw = s.fw := rfl
@[simp] theorem State.setBank_ctrs (n : Nat) (a g : List W32) : (s.setBank n a g).ctrs = s.ctrs := rfl
@[simp] theorem State.setBank_druind (n : Nat) (a g : List W32) : (s.setBank n a g).druind = s.druind := rfl
@[simp] theorem State.setBank_ni (n : Nat) (a g : List W32) : (s.setBank n a g).ni = s.ni := rfl
@[simp] theorem State.setBank_fab (n : Nat) (a g : List W32) : (s.setBank n a g).fab = s.fab := rfl
@[simp] theorem State.setBank_flash (n : Nat) (a g : List W32) : (s.setBank n a g).flash = s.flash := rfl
@[simp] theorem State.setBank_tk (n : Nat) (a g : List W32) : (s.setBank n a g).tk = s.tk := rfl


/-! ### markDone writes only tiles -/

@[simp] theorem State.markDone_time (n c : Nat) : (s.markDone n c).time = s.time := rfl
@[simp] theorem State.markDone_free (n c : Nat) : (s.markDone n c).free = s.free := rfl
@[simp] theorem State.markDone_pending (n c : Nat) : (s.markDone n c).pending = s.pending := rfl
@[simp] theorem State.markDone_ident (n c : Nat) : (s.markDone n c).ident = s.ident := rfl
@[simp] theorem State.markDone_mod (n c : Nat) : (s.markDone n c).mod = s.mod := rfl
@[simp] theorem State.markDone_pins (n c : Nat) : (s.markDone n c).pins = s.pins := rfl
@[simp] theorem State.markDone_jtag (n c : Nat) : (s.markDone n c).jtag = s.jtag := rfl
@[simp] theorem State.markDone_clk (n c : Nat) : (s.markDone n c).clk = s.clk := rfl
@[simp] theorem State.markDone_pwr (n c : Nat) : (s.markDone n c).pwr = s.pwr := rfl
@[simp] theorem State.markDone_mem (n c : Nat) : (s.markDone n c).mem = s.mem := rfl
@[simp] theorem State.markDone_poison (n c : Nat) : (s.markDone n c).poison = s.poison := rfl
@[simp] theorem State.markDone_units (n c : Nat) : (s.markDone n c).units = s.units := rfl
@[simp] theorem State.markDone_clusters (n c : Nat) : (s.markDone n c).clusters = s.clusters := rfl
@[simp] theorem State.markDone_sync (n c : Nat) : (s.markDone n c).sync = s.sync := rfl
@[simp] theorem State.markDone_seats (n c : Nat) : (s.markDone n c).seats = s.seats := rfl
@[simp] theorem State.markDone_host (n c : Nat) : (s.markDone n c).host = s.host := rfl
@[simp] theorem State.markDone_mgmt (n c : Nat) : (s.markDone n c).mgmt = s.mgmt := rfl
@[simp] theorem State.markDone_sec (n c : Nat) : (s.markDone n c).sec = s.sec := rfl
@[simp] theorem State.markDone_log (n c : Nat) : (s.markDone n c).log = s.log := rfl
@[simp] theorem State.markDone_mons (n c : Nat) : (s.markDone n c).mons = s.mons := rfl
@[simp] theorem State.markDone_fw (n c : Nat) : (s.markDone n c).fw = s.fw := rfl
@[simp] theorem State.markDone_ctrs (n c : Nat) : (s.markDone n c).ctrs = s.ctrs := rfl
@[simp] theorem State.markDone_druind (n c : Nat) : (s.markDone n c).druind = s.druind := rfl
@[simp] theorem State.markDone_ni (n c : Nat) : (s.markDone n c).ni = s.ni := rfl
@[simp] theorem State.markDone_fab (n c : Nat) : (s.markDone n c).fab = s.fab := rfl
@[simp] theorem State.markDone_flash (n c : Nat) : (s.markDone n c).flash = s.flash := rfl
@[simp] theorem State.markDone_tk (n c : Nat) : (s.markDone n c).tk = s.tk := rfl


/-! ### setPerm writes only ni -/

@[simp] theorem State.setPerm_time (n : Nat) (p : PermRun) : (s.setPerm n p).time = s.time := rfl
@[simp] theorem State.setPerm_free (n : Nat) (p : PermRun) : (s.setPerm n p).free = s.free := rfl
@[simp] theorem State.setPerm_pending (n : Nat) (p : PermRun) : (s.setPerm n p).pending = s.pending := rfl
@[simp] theorem State.setPerm_ident (n : Nat) (p : PermRun) : (s.setPerm n p).ident = s.ident := rfl
@[simp] theorem State.setPerm_mod (n : Nat) (p : PermRun) : (s.setPerm n p).mod = s.mod := rfl
@[simp] theorem State.setPerm_pins (n : Nat) (p : PermRun) : (s.setPerm n p).pins = s.pins := rfl
@[simp] theorem State.setPerm_jtag (n : Nat) (p : PermRun) : (s.setPerm n p).jtag = s.jtag := rfl
@[simp] theorem State.setPerm_clk (n : Nat) (p : PermRun) : (s.setPerm n p).clk = s.clk := rfl
@[simp] theorem State.setPerm_pwr (n : Nat) (p : PermRun) : (s.setPerm n p).pwr = s.pwr := rfl
@[simp] theorem State.setPerm_mem (n : Nat) (p : PermRun) : (s.setPerm n p).mem = s.mem := rfl
@[simp] theorem State.setPerm_poison (n : Nat) (p : PermRun) : (s.setPerm n p).poison = s.poison := rfl
@[simp] theorem State.setPerm_units (n : Nat) (p : PermRun) : (s.setPerm n p).units = s.units := rfl
@[simp] theorem State.setPerm_tiles (n : Nat) (p : PermRun) : (s.setPerm n p).tiles = s.tiles := rfl
@[simp] theorem State.setPerm_clusters (n : Nat) (p : PermRun) : (s.setPerm n p).clusters = s.clusters := rfl
@[simp] theorem State.setPerm_sync (n : Nat) (p : PermRun) : (s.setPerm n p).sync = s.sync := rfl
@[simp] theorem State.setPerm_seats (n : Nat) (p : PermRun) : (s.setPerm n p).seats = s.seats := rfl
@[simp] theorem State.setPerm_host (n : Nat) (p : PermRun) : (s.setPerm n p).host = s.host := rfl
@[simp] theorem State.setPerm_mgmt (n : Nat) (p : PermRun) : (s.setPerm n p).mgmt = s.mgmt := rfl
@[simp] theorem State.setPerm_sec (n : Nat) (p : PermRun) : (s.setPerm n p).sec = s.sec := rfl
@[simp] theorem State.setPerm_log (n : Nat) (p : PermRun) : (s.setPerm n p).log = s.log := rfl
@[simp] theorem State.setPerm_mons (n : Nat) (p : PermRun) : (s.setPerm n p).mons = s.mons := rfl
@[simp] theorem State.setPerm_fw (n : Nat) (p : PermRun) : (s.setPerm n p).fw = s.fw := rfl
@[simp] theorem State.setPerm_ctrs (n : Nat) (p : PermRun) : (s.setPerm n p).ctrs = s.ctrs := rfl
@[simp] theorem State.setPerm_druind (n : Nat) (p : PermRun) : (s.setPerm n p).druind = s.druind := rfl
@[simp] theorem State.setPerm_fab (n : Nat) (p : PermRun) : (s.setPerm n p).fab = s.fab := rfl
@[simp] theorem State.setPerm_flash (n : Nat) (p : PermRun) : (s.setPerm n p).flash = s.flash := rfl
@[simp] theorem State.setPerm_tk (n : Nat) (p : PermRun) : (s.setPerm n p).tk = s.tk := rfl


/-! ### setHome writes only ni -/

@[simp] theorem State.setHome_time (k hub : Nat) : (s.setHome k hub).time = s.time := rfl
@[simp] theorem State.setHome_free (k hub : Nat) : (s.setHome k hub).free = s.free := rfl
@[simp] theorem State.setHome_pending (k hub : Nat) : (s.setHome k hub).pending = s.pending := rfl
@[simp] theorem State.setHome_ident (k hub : Nat) : (s.setHome k hub).ident = s.ident := rfl
@[simp] theorem State.setHome_mod (k hub : Nat) : (s.setHome k hub).mod = s.mod := rfl
@[simp] theorem State.setHome_pins (k hub : Nat) : (s.setHome k hub).pins = s.pins := rfl
@[simp] theorem State.setHome_jtag (k hub : Nat) : (s.setHome k hub).jtag = s.jtag := rfl
@[simp] theorem State.setHome_clk (k hub : Nat) : (s.setHome k hub).clk = s.clk := rfl
@[simp] theorem State.setHome_pwr (k hub : Nat) : (s.setHome k hub).pwr = s.pwr := rfl
@[simp] theorem State.setHome_mem (k hub : Nat) : (s.setHome k hub).mem = s.mem := rfl
@[simp] theorem State.setHome_poison (k hub : Nat) : (s.setHome k hub).poison = s.poison := rfl
@[simp] theorem State.setHome_units (k hub : Nat) : (s.setHome k hub).units = s.units := rfl
@[simp] theorem State.setHome_tiles (k hub : Nat) : (s.setHome k hub).tiles = s.tiles := rfl
@[simp] theorem State.setHome_clusters (k hub : Nat) : (s.setHome k hub).clusters = s.clusters := rfl
@[simp] theorem State.setHome_sync (k hub : Nat) : (s.setHome k hub).sync = s.sync := rfl
@[simp] theorem State.setHome_seats (k hub : Nat) : (s.setHome k hub).seats = s.seats := rfl
@[simp] theorem State.setHome_host (k hub : Nat) : (s.setHome k hub).host = s.host := rfl
@[simp] theorem State.setHome_mgmt (k hub : Nat) : (s.setHome k hub).mgmt = s.mgmt := rfl
@[simp] theorem State.setHome_sec (k hub : Nat) : (s.setHome k hub).sec = s.sec := rfl
@[simp] theorem State.setHome_log (k hub : Nat) : (s.setHome k hub).log = s.log := rfl
@[simp] theorem State.setHome_mons (k hub : Nat) : (s.setHome k hub).mons = s.mons := rfl
@[simp] theorem State.setHome_fw (k hub : Nat) : (s.setHome k hub).fw = s.fw := rfl
@[simp] theorem State.setHome_ctrs (k hub : Nat) : (s.setHome k hub).ctrs = s.ctrs := rfl
@[simp] theorem State.setHome_druind (k hub : Nat) : (s.setHome k hub).druind = s.druind := rfl
@[simp] theorem State.setHome_fab (k hub : Nat) : (s.setHome k hub).fab = s.fab := rfl
@[simp] theorem State.setHome_flash (k hub : Nat) : (s.setHome k hub).flash = s.flash := rfl
@[simp] theorem State.setHome_tk (k hub : Nat) : (s.setHome k hub).tk = s.tk := rfl


/-! ### setAperture writes only host -/

@[simp] theorem State.setAperture_time (n : Nat) (v : W64) : (s.setAperture n v).time = s.time := rfl
@[simp] theorem State.setAperture_free (n : Nat) (v : W64) : (s.setAperture n v).free = s.free := rfl
@[simp] theorem State.setAperture_pending (n : Nat) (v : W64) : (s.setAperture n v).pending = s.pending := rfl
@[simp] theorem State.setAperture_ident (n : Nat) (v : W64) : (s.setAperture n v).ident = s.ident := rfl
@[simp] theorem State.setAperture_mod (n : Nat) (v : W64) : (s.setAperture n v).mod = s.mod := rfl
@[simp] theorem State.setAperture_pins (n : Nat) (v : W64) : (s.setAperture n v).pins = s.pins := rfl
@[simp] theorem State.setAperture_jtag (n : Nat) (v : W64) : (s.setAperture n v).jtag = s.jtag := rfl
@[simp] theorem State.setAperture_clk (n : Nat) (v : W64) : (s.setAperture n v).clk = s.clk := rfl
@[simp] theorem State.setAperture_pwr (n : Nat) (v : W64) : (s.setAperture n v).pwr = s.pwr := rfl
@[simp] theorem State.setAperture_mem (n : Nat) (v : W64) : (s.setAperture n v).mem = s.mem := rfl
@[simp] theorem State.setAperture_poison (n : Nat) (v : W64) : (s.setAperture n v).poison = s.poison := rfl
@[simp] theorem State.setAperture_units (n : Nat) (v : W64) : (s.setAperture n v).units = s.units := rfl
@[simp] theorem State.setAperture_tiles (n : Nat) (v : W64) : (s.setAperture n v).tiles = s.tiles := rfl
@[simp] theorem State.setAperture_clusters (n : Nat) (v : W64) : (s.setAperture n v).clusters = s.clusters := rfl
@[simp] theorem State.setAperture_sync (n : Nat) (v : W64) : (s.setAperture n v).sync = s.sync := rfl
@[simp] theorem State.setAperture_seats (n : Nat) (v : W64) : (s.setAperture n v).seats = s.seats := rfl
@[simp] theorem State.setAperture_mgmt (n : Nat) (v : W64) : (s.setAperture n v).mgmt = s.mgmt := rfl
@[simp] theorem State.setAperture_sec (n : Nat) (v : W64) : (s.setAperture n v).sec = s.sec := rfl
@[simp] theorem State.setAperture_log (n : Nat) (v : W64) : (s.setAperture n v).log = s.log := rfl
@[simp] theorem State.setAperture_mons (n : Nat) (v : W64) : (s.setAperture n v).mons = s.mons := rfl
@[simp] theorem State.setAperture_fw (n : Nat) (v : W64) : (s.setAperture n v).fw = s.fw := rfl
@[simp] theorem State.setAperture_ctrs (n : Nat) (v : W64) : (s.setAperture n v).ctrs = s.ctrs := rfl
@[simp] theorem State.setAperture_druind (n : Nat) (v : W64) : (s.setAperture n v).druind = s.druind := rfl
@[simp] theorem State.setAperture_ni (n : Nat) (v : W64) : (s.setAperture n v).ni = s.ni := rfl
@[simp] theorem State.setAperture_fab (n : Nat) (v : W64) : (s.setAperture n v).fab = s.fab := rfl
@[simp] theorem State.setAperture_flash (n : Nat) (v : W64) : (s.setAperture n v).flash = s.flash := rfl
@[simp] theorem State.setAperture_tk (n : Nat) (v : W64) : (s.setAperture n v).tk = s.tk := rfl


/-! ### setFn writes only host -/

@[simp] theorem State.setFn_time (n : Nat) (x : Func) : (s.setFn n x).time = s.time := rfl
@[simp] theorem State.setFn_free (n : Nat) (x : Func) : (s.setFn n x).free = s.free := rfl
@[simp] theorem State.setFn_pending (n : Nat) (x : Func) : (s.setFn n x).pending = s.pending := rfl
@[simp] theorem State.setFn_ident (n : Nat) (x : Func) : (s.setFn n x).ident = s.ident := rfl
@[simp] theorem State.setFn_mod (n : Nat) (x : Func) : (s.setFn n x).mod = s.mod := rfl
@[simp] theorem State.setFn_pins (n : Nat) (x : Func) : (s.setFn n x).pins = s.pins := rfl
@[simp] theorem State.setFn_jtag (n : Nat) (x : Func) : (s.setFn n x).jtag = s.jtag := rfl
@[simp] theorem State.setFn_clk (n : Nat) (x : Func) : (s.setFn n x).clk = s.clk := rfl
@[simp] theorem State.setFn_pwr (n : Nat) (x : Func) : (s.setFn n x).pwr = s.pwr := rfl
@[simp] theorem State.setFn_mem (n : Nat) (x : Func) : (s.setFn n x).mem = s.mem := rfl
@[simp] theorem State.setFn_poison (n : Nat) (x : Func) : (s.setFn n x).poison = s.poison := rfl
@[simp] theorem State.setFn_units (n : Nat) (x : Func) : (s.setFn n x).units = s.units := rfl
@[simp] theorem State.setFn_tiles (n : Nat) (x : Func) : (s.setFn n x).tiles = s.tiles := rfl
@[simp] theorem State.setFn_clusters (n : Nat) (x : Func) : (s.setFn n x).clusters = s.clusters := rfl
@[simp] theorem State.setFn_sync (n : Nat) (x : Func) : (s.setFn n x).sync = s.sync := rfl
@[simp] theorem State.setFn_seats (n : Nat) (x : Func) : (s.setFn n x).seats = s.seats := rfl
@[simp] theorem State.setFn_mgmt (n : Nat) (x : Func) : (s.setFn n x).mgmt = s.mgmt := rfl
@[simp] theorem State.setFn_sec (n : Nat) (x : Func) : (s.setFn n x).sec = s.sec := rfl
@[simp] theorem State.setFn_log (n : Nat) (x : Func) : (s.setFn n x).log = s.log := rfl
@[simp] theorem State.setFn_mons (n : Nat) (x : Func) : (s.setFn n x).mons = s.mons := rfl
@[simp] theorem State.setFn_fw (n : Nat) (x : Func) : (s.setFn n x).fw = s.fw := rfl
@[simp] theorem State.setFn_ctrs (n : Nat) (x : Func) : (s.setFn n x).ctrs = s.ctrs := rfl
@[simp] theorem State.setFn_druind (n : Nat) (x : Func) : (s.setFn n x).druind = s.druind := rfl
@[simp] theorem State.setFn_ni (n : Nat) (x : Func) : (s.setFn n x).ni = s.ni := rfl
@[simp] theorem State.setFn_fab (n : Nat) (x : Func) : (s.setFn n x).fab = s.fab := rfl
@[simp] theorem State.setFn_flash (n : Nat) (x : Func) : (s.setFn n x).flash = s.flash := rfl
@[simp] theorem State.setFn_tk (n : Nat) (x : Func) : (s.setFn n x).tk = s.tk := rfl


/-! ### setRing writes only host -/

@[simp] theorem State.setRing_time (n q : Nat) (x : Ring) : (s.setRing n q x).time = s.time := rfl
@[simp] theorem State.setRing_free (n q : Nat) (x : Ring) : (s.setRing n q x).free = s.free := rfl
@[simp] theorem State.setRing_pending (n q : Nat) (x : Ring) : (s.setRing n q x).pending = s.pending := rfl
@[simp] theorem State.setRing_ident (n q : Nat) (x : Ring) : (s.setRing n q x).ident = s.ident := rfl
@[simp] theorem State.setRing_mod (n q : Nat) (x : Ring) : (s.setRing n q x).mod = s.mod := rfl
@[simp] theorem State.setRing_pins (n q : Nat) (x : Ring) : (s.setRing n q x).pins = s.pins := rfl
@[simp] theorem State.setRing_jtag (n q : Nat) (x : Ring) : (s.setRing n q x).jtag = s.jtag := rfl
@[simp] theorem State.setRing_clk (n q : Nat) (x : Ring) : (s.setRing n q x).clk = s.clk := rfl
@[simp] theorem State.setRing_pwr (n q : Nat) (x : Ring) : (s.setRing n q x).pwr = s.pwr := rfl
@[simp] theorem State.setRing_mem (n q : Nat) (x : Ring) : (s.setRing n q x).mem = s.mem := rfl
@[simp] theorem State.setRing_poison (n q : Nat) (x : Ring) : (s.setRing n q x).poison = s.poison := rfl
@[simp] theorem State.setRing_units (n q : Nat) (x : Ring) : (s.setRing n q x).units = s.units := rfl
@[simp] theorem State.setRing_tiles (n q : Nat) (x : Ring) : (s.setRing n q x).tiles = s.tiles := rfl
@[simp] theorem State.setRing_clusters (n q : Nat) (x : Ring) : (s.setRing n q x).clusters = s.clusters := rfl
@[simp] theorem State.setRing_sync (n q : Nat) (x : Ring) : (s.setRing n q x).sync = s.sync := rfl
@[simp] theorem State.setRing_seats (n q : Nat) (x : Ring) : (s.setRing n q x).seats = s.seats := rfl
@[simp] theorem State.setRing_mgmt (n q : Nat) (x : Ring) : (s.setRing n q x).mgmt = s.mgmt := rfl
@[simp] theorem State.setRing_sec (n q : Nat) (x : Ring) : (s.setRing n q x).sec = s.sec := rfl
@[simp] theorem State.setRing_log (n q : Nat) (x : Ring) : (s.setRing n q x).log = s.log := rfl
@[simp] theorem State.setRing_mons (n q : Nat) (x : Ring) : (s.setRing n q x).mons = s.mons := rfl
@[simp] theorem State.setRing_fw (n q : Nat) (x : Ring) : (s.setRing n q x).fw = s.fw := rfl
@[simp] theorem State.setRing_ctrs (n q : Nat) (x : Ring) : (s.setRing n q x).ctrs = s.ctrs := rfl
@[simp] theorem State.setRing_druind (n q : Nat) (x : Ring) : (s.setRing n q x).druind = s.druind := rfl
@[simp] theorem State.setRing_ni (n q : Nat) (x : Ring) : (s.setRing n q x).ni = s.ni := rfl
@[simp] theorem State.setRing_fab (n q : Nat) (x : Ring) : (s.setRing n q x).fab = s.fab := rfl
@[simp] theorem State.setRing_flash (n q : Nat) (x : Ring) : (s.setRing n q x).flash = s.flash := rfl
@[simp] theorem State.setRing_tk (n q : Nat) (x : Ring) : (s.setRing n q x).tk = s.tk := rfl


/-! ### setMon writes only mons -/

@[simp] theorem State.setMon_time (n : Nat) (x : Monitor) : (s.setMon n x).time = s.time := rfl
@[simp] theorem State.setMon_free (n : Nat) (x : Monitor) : (s.setMon n x).free = s.free := rfl
@[simp] theorem State.setMon_pending (n : Nat) (x : Monitor) : (s.setMon n x).pending = s.pending := rfl
@[simp] theorem State.setMon_ident (n : Nat) (x : Monitor) : (s.setMon n x).ident = s.ident := rfl
@[simp] theorem State.setMon_mod (n : Nat) (x : Monitor) : (s.setMon n x).mod = s.mod := rfl
@[simp] theorem State.setMon_pins (n : Nat) (x : Monitor) : (s.setMon n x).pins = s.pins := rfl
@[simp] theorem State.setMon_jtag (n : Nat) (x : Monitor) : (s.setMon n x).jtag = s.jtag := rfl
@[simp] theorem State.setMon_clk (n : Nat) (x : Monitor) : (s.setMon n x).clk = s.clk := rfl
@[simp] theorem State.setMon_pwr (n : Nat) (x : Monitor) : (s.setMon n x).pwr = s.pwr := rfl
@[simp] theorem State.setMon_mem (n : Nat) (x : Monitor) : (s.setMon n x).mem = s.mem := rfl
@[simp] theorem State.setMon_poison (n : Nat) (x : Monitor) : (s.setMon n x).poison = s.poison := rfl
@[simp] theorem State.setMon_units (n : Nat) (x : Monitor) : (s.setMon n x).units = s.units := rfl
@[simp] theorem State.setMon_tiles (n : Nat) (x : Monitor) : (s.setMon n x).tiles = s.tiles := rfl
@[simp] theorem State.setMon_clusters (n : Nat) (x : Monitor) : (s.setMon n x).clusters = s.clusters := rfl
@[simp] theorem State.setMon_sync (n : Nat) (x : Monitor) : (s.setMon n x).sync = s.sync := rfl
@[simp] theorem State.setMon_seats (n : Nat) (x : Monitor) : (s.setMon n x).seats = s.seats := rfl
@[simp] theorem State.setMon_host (n : Nat) (x : Monitor) : (s.setMon n x).host = s.host := rfl
@[simp] theorem State.setMon_mgmt (n : Nat) (x : Monitor) : (s.setMon n x).mgmt = s.mgmt := rfl
@[simp] theorem State.setMon_sec (n : Nat) (x : Monitor) : (s.setMon n x).sec = s.sec := rfl
@[simp] theorem State.setMon_log (n : Nat) (x : Monitor) : (s.setMon n x).log = s.log := rfl
@[simp] theorem State.setMon_fw (n : Nat) (x : Monitor) : (s.setMon n x).fw = s.fw := rfl
@[simp] theorem State.setMon_ctrs (n : Nat) (x : Monitor) : (s.setMon n x).ctrs = s.ctrs := rfl
@[simp] theorem State.setMon_druind (n : Nat) (x : Monitor) : (s.setMon n x).druind = s.druind := rfl
@[simp] theorem State.setMon_ni (n : Nat) (x : Monitor) : (s.setMon n x).ni = s.ni := rfl
@[simp] theorem State.setMon_fab (n : Nat) (x : Monitor) : (s.setMon n x).fab = s.fab := rfl
@[simp] theorem State.setMon_flash (n : Nat) (x : Monitor) : (s.setMon n x).flash = s.flash := rfl
@[simp] theorem State.setMon_tk (n : Nat) (x : Monitor) : (s.setMon n x).tk = s.tk := rfl


/-! ### setRun writes only druind -/

@[simp] theorem State.setRun_time (n : Nat) (x : RouteRun) : (s.setRun n x).time = s.time := rfl
@[simp] theorem State.setRun_free (n : Nat) (x : RouteRun) : (s.setRun n x).free = s.free := rfl
@[simp] theorem State.setRun_pending (n : Nat) (x : RouteRun) : (s.setRun n x).pending = s.pending := rfl
@[simp] theorem State.setRun_ident (n : Nat) (x : RouteRun) : (s.setRun n x).ident = s.ident := rfl
@[simp] theorem State.setRun_mod (n : Nat) (x : RouteRun) : (s.setRun n x).mod = s.mod := rfl
@[simp] theorem State.setRun_pins (n : Nat) (x : RouteRun) : (s.setRun n x).pins = s.pins := rfl
@[simp] theorem State.setRun_jtag (n : Nat) (x : RouteRun) : (s.setRun n x).jtag = s.jtag := rfl
@[simp] theorem State.setRun_clk (n : Nat) (x : RouteRun) : (s.setRun n x).clk = s.clk := rfl
@[simp] theorem State.setRun_pwr (n : Nat) (x : RouteRun) : (s.setRun n x).pwr = s.pwr := rfl
@[simp] theorem State.setRun_mem (n : Nat) (x : RouteRun) : (s.setRun n x).mem = s.mem := rfl
@[simp] theorem State.setRun_poison (n : Nat) (x : RouteRun) : (s.setRun n x).poison = s.poison := rfl
@[simp] theorem State.setRun_units (n : Nat) (x : RouteRun) : (s.setRun n x).units = s.units := rfl
@[simp] theorem State.setRun_tiles (n : Nat) (x : RouteRun) : (s.setRun n x).tiles = s.tiles := rfl
@[simp] theorem State.setRun_clusters (n : Nat) (x : RouteRun) : (s.setRun n x).clusters = s.clusters := rfl
@[simp] theorem State.setRun_sync (n : Nat) (x : RouteRun) : (s.setRun n x).sync = s.sync := rfl
@[simp] theorem State.setRun_seats (n : Nat) (x : RouteRun) : (s.setRun n x).seats = s.seats := rfl
@[simp] theorem State.setRun_host (n : Nat) (x : RouteRun) : (s.setRun n x).host = s.host := rfl
@[simp] theorem State.setRun_mgmt (n : Nat) (x : RouteRun) : (s.setRun n x).mgmt = s.mgmt := rfl
@[simp] theorem State.setRun_sec (n : Nat) (x : RouteRun) : (s.setRun n x).sec = s.sec := rfl
@[simp] theorem State.setRun_log (n : Nat) (x : RouteRun) : (s.setRun n x).log = s.log := rfl
@[simp] theorem State.setRun_mons (n : Nat) (x : RouteRun) : (s.setRun n x).mons = s.mons := rfl
@[simp] theorem State.setRun_fw (n : Nat) (x : RouteRun) : (s.setRun n x).fw = s.fw := rfl
@[simp] theorem State.setRun_ctrs (n : Nat) (x : RouteRun) : (s.setRun n x).ctrs = s.ctrs := rfl
@[simp] theorem State.setRun_ni (n : Nat) (x : RouteRun) : (s.setRun n x).ni = s.ni := rfl
@[simp] theorem State.setRun_fab (n : Nat) (x : RouteRun) : (s.setRun n x).fab = s.fab := rfl
@[simp] theorem State.setRun_flash (n : Nat) (x : RouteRun) : (s.setRun n x).flash = s.flash := rfl
@[simp] theorem State.setRun_tk (n : Nat) (x : RouteRun) : (s.setRun n x).tk = s.tk := rfl


/-! ### setDir writes only ni -/

@[simp] theorem State.setDir_time (n : Nat) (d : List (Nat × Nat)) : (s.setDir n d).time = s.time := rfl
@[simp] theorem State.setDir_free (n : Nat) (d : List (Nat × Nat)) : (s.setDir n d).free = s.free := rfl
@[simp] theorem State.setDir_pending (n : Nat) (d : List (Nat × Nat)) : (s.setDir n d).pending = s.pending := rfl
@[simp] theorem State.setDir_ident (n : Nat) (d : List (Nat × Nat)) : (s.setDir n d).ident = s.ident := rfl
@[simp] theorem State.setDir_mod (n : Nat) (d : List (Nat × Nat)) : (s.setDir n d).mod = s.mod := rfl
@[simp] theorem State.setDir_pins (n : Nat) (d : List (Nat × Nat)) : (s.setDir n d).pins = s.pins := rfl
@[simp] theorem State.setDir_jtag (n : Nat) (d : List (Nat × Nat)) : (s.setDir n d).jtag = s.jtag := rfl
@[simp] theorem State.setDir_clk (n : Nat) (d : List (Nat × Nat)) : (s.setDir n d).clk = s.clk := rfl
@[simp] theorem State.setDir_pwr (n : Nat) (d : List (Nat × Nat)) : (s.setDir n d).pwr = s.pwr := rfl
@[simp] theorem State.setDir_mem (n : Nat) (d : List (Nat × Nat)) : (s.setDir n d).mem = s.mem := rfl
@[simp] theorem State.setDir_poison (n : Nat) (d : List (Nat × Nat)) : (s.setDir n d).poison = s.poison := rfl
@[simp] theorem State.setDir_units (n : Nat) (d : List (Nat × Nat)) : (s.setDir n d).units = s.units := rfl
@[simp] theorem State.setDir_tiles (n : Nat) (d : List (Nat × Nat)) : (s.setDir n d).tiles = s.tiles := rfl
@[simp] theorem State.setDir_clusters (n : Nat) (d : List (Nat × Nat)) : (s.setDir n d).clusters = s.clusters := rfl
@[simp] theorem State.setDir_sync (n : Nat) (d : List (Nat × Nat)) : (s.setDir n d).sync = s.sync := rfl
@[simp] theorem State.setDir_seats (n : Nat) (d : List (Nat × Nat)) : (s.setDir n d).seats = s.seats := rfl
@[simp] theorem State.setDir_host (n : Nat) (d : List (Nat × Nat)) : (s.setDir n d).host = s.host := rfl
@[simp] theorem State.setDir_mgmt (n : Nat) (d : List (Nat × Nat)) : (s.setDir n d).mgmt = s.mgmt := rfl
@[simp] theorem State.setDir_sec (n : Nat) (d : List (Nat × Nat)) : (s.setDir n d).sec = s.sec := rfl
@[simp] theorem State.setDir_log (n : Nat) (d : List (Nat × Nat)) : (s.setDir n d).log = s.log := rfl
@[simp] theorem State.setDir_mons (n : Nat) (d : List (Nat × Nat)) : (s.setDir n d).mons = s.mons := rfl
@[simp] theorem State.setDir_fw (n : Nat) (d : List (Nat × Nat)) : (s.setDir n d).fw = s.fw := rfl
@[simp] theorem State.setDir_ctrs (n : Nat) (d : List (Nat × Nat)) : (s.setDir n d).ctrs = s.ctrs := rfl
@[simp] theorem State.setDir_druind (n : Nat) (d : List (Nat × Nat)) : (s.setDir n d).druind = s.druind := rfl
@[simp] theorem State.setDir_fab (n : Nat) (d : List (Nat × Nat)) : (s.setDir n d).fab = s.fab := rfl
@[simp] theorem State.setDir_flash (n : Nat) (d : List (Nat × Nat)) : (s.setDir n d).flash = s.flash := rfl
@[simp] theorem State.setDir_tk (n : Nat) (d : List (Nat × Nat)) : (s.setDir n d).tk = s.tk := rfl


/-! ### setRx writes only ni -/

@[simp] theorem State.setRx_time (n : Nat) (x : RxStream) : (s.setRx n x).time = s.time := rfl
@[simp] theorem State.setRx_free (n : Nat) (x : RxStream) : (s.setRx n x).free = s.free := rfl
@[simp] theorem State.setRx_pending (n : Nat) (x : RxStream) : (s.setRx n x).pending = s.pending := rfl
@[simp] theorem State.setRx_ident (n : Nat) (x : RxStream) : (s.setRx n x).ident = s.ident := rfl
@[simp] theorem State.setRx_mod (n : Nat) (x : RxStream) : (s.setRx n x).mod = s.mod := rfl
@[simp] theorem State.setRx_pins (n : Nat) (x : RxStream) : (s.setRx n x).pins = s.pins := rfl
@[simp] theorem State.setRx_jtag (n : Nat) (x : RxStream) : (s.setRx n x).jtag = s.jtag := rfl
@[simp] theorem State.setRx_clk (n : Nat) (x : RxStream) : (s.setRx n x).clk = s.clk := rfl
@[simp] theorem State.setRx_pwr (n : Nat) (x : RxStream) : (s.setRx n x).pwr = s.pwr := rfl
@[simp] theorem State.setRx_mem (n : Nat) (x : RxStream) : (s.setRx n x).mem = s.mem := rfl
@[simp] theorem State.setRx_poison (n : Nat) (x : RxStream) : (s.setRx n x).poison = s.poison := rfl
@[simp] theorem State.setRx_units (n : Nat) (x : RxStream) : (s.setRx n x).units = s.units := rfl
@[simp] theorem State.setRx_tiles (n : Nat) (x : RxStream) : (s.setRx n x).tiles = s.tiles := rfl
@[simp] theorem State.setRx_clusters (n : Nat) (x : RxStream) : (s.setRx n x).clusters = s.clusters := rfl
@[simp] theorem State.setRx_sync (n : Nat) (x : RxStream) : (s.setRx n x).sync = s.sync := rfl
@[simp] theorem State.setRx_seats (n : Nat) (x : RxStream) : (s.setRx n x).seats = s.seats := rfl
@[simp] theorem State.setRx_host (n : Nat) (x : RxStream) : (s.setRx n x).host = s.host := rfl
@[simp] theorem State.setRx_mgmt (n : Nat) (x : RxStream) : (s.setRx n x).mgmt = s.mgmt := rfl
@[simp] theorem State.setRx_sec (n : Nat) (x : RxStream) : (s.setRx n x).sec = s.sec := rfl
@[simp] theorem State.setRx_log (n : Nat) (x : RxStream) : (s.setRx n x).log = s.log := rfl
@[simp] theorem State.setRx_mons (n : Nat) (x : RxStream) : (s.setRx n x).mons = s.mons := rfl
@[simp] theorem State.setRx_fw (n : Nat) (x : RxStream) : (s.setRx n x).fw = s.fw := rfl
@[simp] theorem State.setRx_ctrs (n : Nat) (x : RxStream) : (s.setRx n x).ctrs = s.ctrs := rfl
@[simp] theorem State.setRx_druind (n : Nat) (x : RxStream) : (s.setRx n x).druind = s.druind := rfl
@[simp] theorem State.setRx_fab (n : Nat) (x : RxStream) : (s.setRx n x).fab = s.fab := rfl
@[simp] theorem State.setRx_flash (n : Nat) (x : RxStream) : (s.setRx n x).flash = s.flash := rfl
@[simp] theorem State.setRx_tk (n : Nat) (x : RxStream) : (s.setRx n x).tk = s.tk := rfl


/-! ### setTx writes only ni -/

@[simp] theorem State.setTx_time (n : Nat) (x : TxStream) : (s.setTx n x).time = s.time := rfl
@[simp] theorem State.setTx_free (n : Nat) (x : TxStream) : (s.setTx n x).free = s.free := rfl
@[simp] theorem State.setTx_pending (n : Nat) (x : TxStream) : (s.setTx n x).pending = s.pending := rfl
@[simp] theorem State.setTx_ident (n : Nat) (x : TxStream) : (s.setTx n x).ident = s.ident := rfl
@[simp] theorem State.setTx_mod (n : Nat) (x : TxStream) : (s.setTx n x).mod = s.mod := rfl
@[simp] theorem State.setTx_pins (n : Nat) (x : TxStream) : (s.setTx n x).pins = s.pins := rfl
@[simp] theorem State.setTx_jtag (n : Nat) (x : TxStream) : (s.setTx n x).jtag = s.jtag := rfl
@[simp] theorem State.setTx_clk (n : Nat) (x : TxStream) : (s.setTx n x).clk = s.clk := rfl
@[simp] theorem State.setTx_pwr (n : Nat) (x : TxStream) : (s.setTx n x).pwr = s.pwr := rfl
@[simp] theorem State.setTx_mem (n : Nat) (x : TxStream) : (s.setTx n x).mem = s.mem := rfl
@[simp] theorem State.setTx_poison (n : Nat) (x : TxStream) : (s.setTx n x).poison = s.poison := rfl
@[simp] theorem State.setTx_units (n : Nat) (x : TxStream) : (s.setTx n x).units = s.units := rfl
@[simp] theorem State.setTx_tiles (n : Nat) (x : TxStream) : (s.setTx n x).tiles = s.tiles := rfl
@[simp] theorem State.setTx_clusters (n : Nat) (x : TxStream) : (s.setTx n x).clusters = s.clusters := rfl
@[simp] theorem State.setTx_sync (n : Nat) (x : TxStream) : (s.setTx n x).sync = s.sync := rfl
@[simp] theorem State.setTx_seats (n : Nat) (x : TxStream) : (s.setTx n x).seats = s.seats := rfl
@[simp] theorem State.setTx_host (n : Nat) (x : TxStream) : (s.setTx n x).host = s.host := rfl
@[simp] theorem State.setTx_mgmt (n : Nat) (x : TxStream) : (s.setTx n x).mgmt = s.mgmt := rfl
@[simp] theorem State.setTx_sec (n : Nat) (x : TxStream) : (s.setTx n x).sec = s.sec := rfl
@[simp] theorem State.setTx_log (n : Nat) (x : TxStream) : (s.setTx n x).log = s.log := rfl
@[simp] theorem State.setTx_mons (n : Nat) (x : TxStream) : (s.setTx n x).mons = s.mons := rfl
@[simp] theorem State.setTx_fw (n : Nat) (x : TxStream) : (s.setTx n x).fw = s.fw := rfl
@[simp] theorem State.setTx_ctrs (n : Nat) (x : TxStream) : (s.setTx n x).ctrs = s.ctrs := rfl
@[simp] theorem State.setTx_druind (n : Nat) (x : TxStream) : (s.setTx n x).druind = s.druind := rfl
@[simp] theorem State.setTx_fab (n : Nat) (x : TxStream) : (s.setTx n x).fab = s.fab := rfl
@[simp] theorem State.setTx_flash (n : Nat) (x : TxStream) : (s.setTx n x).flash = s.flash := rfl
@[simp] theorem State.setTx_tk (n : Nat) (x : TxStream) : (s.setTx n x).tk = s.tk := rfl


/-! ### setAction writes only ni -/

@[simp] theorem State.setAction_time (n : Nat) (f : Action → Action) : (s.setAction n f).time = s.time := rfl
@[simp] theorem State.setAction_free (n : Nat) (f : Action → Action) : (s.setAction n f).free = s.free := rfl
@[simp] theorem State.setAction_pending (n : Nat) (f : Action → Action) : (s.setAction n f).pending = s.pending := rfl
@[simp] theorem State.setAction_ident (n : Nat) (f : Action → Action) : (s.setAction n f).ident = s.ident := rfl
@[simp] theorem State.setAction_mod (n : Nat) (f : Action → Action) : (s.setAction n f).mod = s.mod := rfl
@[simp] theorem State.setAction_pins (n : Nat) (f : Action → Action) : (s.setAction n f).pins = s.pins := rfl
@[simp] theorem State.setAction_jtag (n : Nat) (f : Action → Action) : (s.setAction n f).jtag = s.jtag := rfl
@[simp] theorem State.setAction_clk (n : Nat) (f : Action → Action) : (s.setAction n f).clk = s.clk := rfl
@[simp] theorem State.setAction_pwr (n : Nat) (f : Action → Action) : (s.setAction n f).pwr = s.pwr := rfl
@[simp] theorem State.setAction_mem (n : Nat) (f : Action → Action) : (s.setAction n f).mem = s.mem := rfl
@[simp] theorem State.setAction_poison (n : Nat) (f : Action → Action) : (s.setAction n f).poison = s.poison := rfl
@[simp] theorem State.setAction_units (n : Nat) (f : Action → Action) : (s.setAction n f).units = s.units := rfl
@[simp] theorem State.setAction_tiles (n : Nat) (f : Action → Action) : (s.setAction n f).tiles = s.tiles := rfl
@[simp] theorem State.setAction_clusters (n : Nat) (f : Action → Action) : (s.setAction n f).clusters = s.clusters := rfl
@[simp] theorem State.setAction_sync (n : Nat) (f : Action → Action) : (s.setAction n f).sync = s.sync := rfl
@[simp] theorem State.setAction_seats (n : Nat) (f : Action → Action) : (s.setAction n f).seats = s.seats := rfl
@[simp] theorem State.setAction_host (n : Nat) (f : Action → Action) : (s.setAction n f).host = s.host := rfl
@[simp] theorem State.setAction_mgmt (n : Nat) (f : Action → Action) : (s.setAction n f).mgmt = s.mgmt := rfl
@[simp] theorem State.setAction_sec (n : Nat) (f : Action → Action) : (s.setAction n f).sec = s.sec := rfl
@[simp] theorem State.setAction_log (n : Nat) (f : Action → Action) : (s.setAction n f).log = s.log := rfl
@[simp] theorem State.setAction_mons (n : Nat) (f : Action → Action) : (s.setAction n f).mons = s.mons := rfl
@[simp] theorem State.setAction_fw (n : Nat) (f : Action → Action) : (s.setAction n f).fw = s.fw := rfl
@[simp] theorem State.setAction_ctrs (n : Nat) (f : Action → Action) : (s.setAction n f).ctrs = s.ctrs := rfl
@[simp] theorem State.setAction_druind (n : Nat) (f : Action → Action) : (s.setAction n f).druind = s.druind := rfl
@[simp] theorem State.setAction_fab (n : Nat) (f : Action → Action) : (s.setAction n f).fab = s.fab := rfl
@[simp] theorem State.setAction_flash (n : Nat) (f : Action → Action) : (s.setAction n f).flash = s.flash := rfl
@[simp] theorem State.setAction_tk (n : Nat) (f : Action → Action) : (s.setAction n f).tk = s.tk := rfl


/-! ### setGroup writes only ni -/

@[simp] theorem State.setGroup_time (n : Nat) (x : Group) : (s.setGroup n x).time = s.time := rfl
@[simp] theorem State.setGroup_free (n : Nat) (x : Group) : (s.setGroup n x).free = s.free := rfl
@[simp] theorem State.setGroup_pending (n : Nat) (x : Group) : (s.setGroup n x).pending = s.pending := rfl
@[simp] theorem State.setGroup_ident (n : Nat) (x : Group) : (s.setGroup n x).ident = s.ident := rfl
@[simp] theorem State.setGroup_mod (n : Nat) (x : Group) : (s.setGroup n x).mod = s.mod := rfl
@[simp] theorem State.setGroup_pins (n : Nat) (x : Group) : (s.setGroup n x).pins = s.pins := rfl
@[simp] theorem State.setGroup_jtag (n : Nat) (x : Group) : (s.setGroup n x).jtag = s.jtag := rfl
@[simp] theorem State.setGroup_clk (n : Nat) (x : Group) : (s.setGroup n x).clk = s.clk := rfl
@[simp] theorem State.setGroup_pwr (n : Nat) (x : Group) : (s.setGroup n x).pwr = s.pwr := rfl
@[simp] theorem State.setGroup_mem (n : Nat) (x : Group) : (s.setGroup n x).mem = s.mem := rfl
@[simp] theorem State.setGroup_poison (n : Nat) (x : Group) : (s.setGroup n x).poison = s.poison := rfl
@[simp] theorem State.setGroup_units (n : Nat) (x : Group) : (s.setGroup n x).units = s.units := rfl
@[simp] theorem State.setGroup_tiles (n : Nat) (x : Group) : (s.setGroup n x).tiles = s.tiles := rfl
@[simp] theorem State.setGroup_clusters (n : Nat) (x : Group) : (s.setGroup n x).clusters = s.clusters := rfl
@[simp] theorem State.setGroup_sync (n : Nat) (x : Group) : (s.setGroup n x).sync = s.sync := rfl
@[simp] theorem State.setGroup_seats (n : Nat) (x : Group) : (s.setGroup n x).seats = s.seats := rfl
@[simp] theorem State.setGroup_host (n : Nat) (x : Group) : (s.setGroup n x).host = s.host := rfl
@[simp] theorem State.setGroup_mgmt (n : Nat) (x : Group) : (s.setGroup n x).mgmt = s.mgmt := rfl
@[simp] theorem State.setGroup_sec (n : Nat) (x : Group) : (s.setGroup n x).sec = s.sec := rfl
@[simp] theorem State.setGroup_log (n : Nat) (x : Group) : (s.setGroup n x).log = s.log := rfl
@[simp] theorem State.setGroup_mons (n : Nat) (x : Group) : (s.setGroup n x).mons = s.mons := rfl
@[simp] theorem State.setGroup_fw (n : Nat) (x : Group) : (s.setGroup n x).fw = s.fw := rfl
@[simp] theorem State.setGroup_ctrs (n : Nat) (x : Group) : (s.setGroup n x).ctrs = s.ctrs := rfl
@[simp] theorem State.setGroup_druind (n : Nat) (x : Group) : (s.setGroup n x).druind = s.druind := rfl
@[simp] theorem State.setGroup_fab (n : Nat) (x : Group) : (s.setGroup n x).fab = s.fab := rfl
@[simp] theorem State.setGroup_flash (n : Nat) (x : Group) : (s.setGroup n x).flash = s.flash := rfl
@[simp] theorem State.setGroup_tk (n : Nat) (x : Group) : (s.setGroup n x).tk = s.tk := rfl


/-! ### setCall writes only ni -/

@[simp] theorem State.setCall_time (n : Nat) (x : Call) : (s.setCall n x).time = s.time := rfl
@[simp] theorem State.setCall_free (n : Nat) (x : Call) : (s.setCall n x).free = s.free := rfl
@[simp] theorem State.setCall_pending (n : Nat) (x : Call) : (s.setCall n x).pending = s.pending := rfl
@[simp] theorem State.setCall_ident (n : Nat) (x : Call) : (s.setCall n x).ident = s.ident := rfl
@[simp] theorem State.setCall_mod (n : Nat) (x : Call) : (s.setCall n x).mod = s.mod := rfl
@[simp] theorem State.setCall_pins (n : Nat) (x : Call) : (s.setCall n x).pins = s.pins := rfl
@[simp] theorem State.setCall_jtag (n : Nat) (x : Call) : (s.setCall n x).jtag = s.jtag := rfl
@[simp] theorem State.setCall_clk (n : Nat) (x : Call) : (s.setCall n x).clk = s.clk := rfl
@[simp] theorem State.setCall_pwr (n : Nat) (x : Call) : (s.setCall n x).pwr = s.pwr := rfl
@[simp] theorem State.setCall_mem (n : Nat) (x : Call) : (s.setCall n x).mem = s.mem := rfl
@[simp] theorem State.setCall_poison (n : Nat) (x : Call) : (s.setCall n x).poison = s.poison := rfl
@[simp] theorem State.setCall_units (n : Nat) (x : Call) : (s.setCall n x).units = s.units := rfl
@[simp] theorem State.setCall_tiles (n : Nat) (x : Call) : (s.setCall n x).tiles = s.tiles := rfl
@[simp] theorem State.setCall_clusters (n : Nat) (x : Call) : (s.setCall n x).clusters = s.clusters := rfl
@[simp] theorem State.setCall_sync (n : Nat) (x : Call) : (s.setCall n x).sync = s.sync := rfl
@[simp] theorem State.setCall_seats (n : Nat) (x : Call) : (s.setCall n x).seats = s.seats := rfl
@[simp] theorem State.setCall_host (n : Nat) (x : Call) : (s.setCall n x).host = s.host := rfl
@[simp] theorem State.setCall_mgmt (n : Nat) (x : Call) : (s.setCall n x).mgmt = s.mgmt := rfl
@[simp] theorem State.setCall_sec (n : Nat) (x : Call) : (s.setCall n x).sec = s.sec := rfl
@[simp] theorem State.setCall_log (n : Nat) (x : Call) : (s.setCall n x).log = s.log := rfl
@[simp] theorem State.setCall_mons (n : Nat) (x : Call) : (s.setCall n x).mons = s.mons := rfl
@[simp] theorem State.setCall_fw (n : Nat) (x : Call) : (s.setCall n x).fw = s.fw := rfl
@[simp] theorem State.setCall_ctrs (n : Nat) (x : Call) : (s.setCall n x).ctrs = s.ctrs := rfl
@[simp] theorem State.setCall_druind (n : Nat) (x : Call) : (s.setCall n x).druind = s.druind := rfl
@[simp] theorem State.setCall_fab (n : Nat) (x : Call) : (s.setCall n x).fab = s.fab := rfl
@[simp] theorem State.setCall_flash (n : Nat) (x : Call) : (s.setCall n x).flash = s.flash := rfl
@[simp] theorem State.setCall_tk (n : Nat) (x : Call) : (s.setCall n x).tk = s.tk := rfl


/-! ### setPort writes only fab -/

@[simp] theorem State.setPort_time (n : Nat) (x : Port) : (s.setPort n x).time = s.time := rfl
@[simp] theorem State.setPort_free (n : Nat) (x : Port) : (s.setPort n x).free = s.free := rfl
@[simp] theorem State.setPort_pending (n : Nat) (x : Port) : (s.setPort n x).pending = s.pending := rfl
@[simp] theorem State.setPort_ident (n : Nat) (x : Port) : (s.setPort n x).ident = s.ident := rfl
@[simp] theorem State.setPort_mod (n : Nat) (x : Port) : (s.setPort n x).mod = s.mod := rfl
@[simp] theorem State.setPort_pins (n : Nat) (x : Port) : (s.setPort n x).pins = s.pins := rfl
@[simp] theorem State.setPort_jtag (n : Nat) (x : Port) : (s.setPort n x).jtag = s.jtag := rfl
@[simp] theorem State.setPort_clk (n : Nat) (x : Port) : (s.setPort n x).clk = s.clk := rfl
@[simp] theorem State.setPort_pwr (n : Nat) (x : Port) : (s.setPort n x).pwr = s.pwr := rfl
@[simp] theorem State.setPort_mem (n : Nat) (x : Port) : (s.setPort n x).mem = s.mem := rfl
@[simp] theorem State.setPort_poison (n : Nat) (x : Port) : (s.setPort n x).poison = s.poison := rfl
@[simp] theorem State.setPort_units (n : Nat) (x : Port) : (s.setPort n x).units = s.units := rfl
@[simp] theorem State.setPort_tiles (n : Nat) (x : Port) : (s.setPort n x).tiles = s.tiles := rfl
@[simp] theorem State.setPort_clusters (n : Nat) (x : Port) : (s.setPort n x).clusters = s.clusters := rfl
@[simp] theorem State.setPort_sync (n : Nat) (x : Port) : (s.setPort n x).sync = s.sync := rfl
@[simp] theorem State.setPort_seats (n : Nat) (x : Port) : (s.setPort n x).seats = s.seats := rfl
@[simp] theorem State.setPort_host (n : Nat) (x : Port) : (s.setPort n x).host = s.host := rfl
@[simp] theorem State.setPort_mgmt (n : Nat) (x : Port) : (s.setPort n x).mgmt = s.mgmt := rfl
@[simp] theorem State.setPort_sec (n : Nat) (x : Port) : (s.setPort n x).sec = s.sec := rfl
@[simp] theorem State.setPort_log (n : Nat) (x : Port) : (s.setPort n x).log = s.log := rfl
@[simp] theorem State.setPort_mons (n : Nat) (x : Port) : (s.setPort n x).mons = s.mons := rfl
@[simp] theorem State.setPort_fw (n : Nat) (x : Port) : (s.setPort n x).fw = s.fw := rfl
@[simp] theorem State.setPort_ctrs (n : Nat) (x : Port) : (s.setPort n x).ctrs = s.ctrs := rfl
@[simp] theorem State.setPort_druind (n : Nat) (x : Port) : (s.setPort n x).druind = s.druind := rfl
@[simp] theorem State.setPort_ni (n : Nat) (x : Port) : (s.setPort n x).ni = s.ni := rfl
@[simp] theorem State.setPort_flash (n : Nat) (x : Port) : (s.setPort n x).flash = s.flash := rfl
@[simp] theorem State.setPort_tk (n : Nat) (x : Port) : (s.setPort n x).tk = s.tk := rfl


/-! ### setFlash writes only flash -/

@[simp] theorem State.setFlash_time (x : FlashSide) : (s.setFlash x).time = s.time := rfl
@[simp] theorem State.setFlash_free (x : FlashSide) : (s.setFlash x).free = s.free := rfl
@[simp] theorem State.setFlash_pending (x : FlashSide) : (s.setFlash x).pending = s.pending := rfl
@[simp] theorem State.setFlash_ident (x : FlashSide) : (s.setFlash x).ident = s.ident := rfl
@[simp] theorem State.setFlash_mod (x : FlashSide) : (s.setFlash x).mod = s.mod := rfl
@[simp] theorem State.setFlash_pins (x : FlashSide) : (s.setFlash x).pins = s.pins := rfl
@[simp] theorem State.setFlash_jtag (x : FlashSide) : (s.setFlash x).jtag = s.jtag := rfl
@[simp] theorem State.setFlash_clk (x : FlashSide) : (s.setFlash x).clk = s.clk := rfl
@[simp] theorem State.setFlash_pwr (x : FlashSide) : (s.setFlash x).pwr = s.pwr := rfl
@[simp] theorem State.setFlash_mem (x : FlashSide) : (s.setFlash x).mem = s.mem := rfl
@[simp] theorem State.setFlash_poison (x : FlashSide) : (s.setFlash x).poison = s.poison := rfl
@[simp] theorem State.setFlash_units (x : FlashSide) : (s.setFlash x).units = s.units := rfl
@[simp] theorem State.setFlash_tiles (x : FlashSide) : (s.setFlash x).tiles = s.tiles := rfl
@[simp] theorem State.setFlash_clusters (x : FlashSide) : (s.setFlash x).clusters = s.clusters := rfl
@[simp] theorem State.setFlash_sync (x : FlashSide) : (s.setFlash x).sync = s.sync := rfl
@[simp] theorem State.setFlash_seats (x : FlashSide) : (s.setFlash x).seats = s.seats := rfl
@[simp] theorem State.setFlash_host (x : FlashSide) : (s.setFlash x).host = s.host := rfl
@[simp] theorem State.setFlash_mgmt (x : FlashSide) : (s.setFlash x).mgmt = s.mgmt := rfl
@[simp] theorem State.setFlash_sec (x : FlashSide) : (s.setFlash x).sec = s.sec := rfl
@[simp] theorem State.setFlash_log (x : FlashSide) : (s.setFlash x).log = s.log := rfl
@[simp] theorem State.setFlash_mons (x : FlashSide) : (s.setFlash x).mons = s.mons := rfl
@[simp] theorem State.setFlash_fw (x : FlashSide) : (s.setFlash x).fw = s.fw := rfl
@[simp] theorem State.setFlash_ctrs (x : FlashSide) : (s.setFlash x).ctrs = s.ctrs := rfl
@[simp] theorem State.setFlash_druind (x : FlashSide) : (s.setFlash x).druind = s.druind := rfl
@[simp] theorem State.setFlash_ni (x : FlashSide) : (s.setFlash x).ni = s.ni := rfl
@[simp] theorem State.setFlash_fab (x : FlashSide) : (s.setFlash x).fab = s.fab := rfl
@[simp] theorem State.setFlash_tk (x : FlashSide) : (s.setFlash x).tk = s.tk := rfl


/-! ### setFill writes only flash -/

@[simp] theorem State.setFill_time (n : Nat) (x : Fill) : (s.setFill n x).time = s.time := rfl
@[simp] theorem State.setFill_free (n : Nat) (x : Fill) : (s.setFill n x).free = s.free := rfl
@[simp] theorem State.setFill_pending (n : Nat) (x : Fill) : (s.setFill n x).pending = s.pending := rfl
@[simp] theorem State.setFill_ident (n : Nat) (x : Fill) : (s.setFill n x).ident = s.ident := rfl
@[simp] theorem State.setFill_mod (n : Nat) (x : Fill) : (s.setFill n x).mod = s.mod := rfl
@[simp] theorem State.setFill_pins (n : Nat) (x : Fill) : (s.setFill n x).pins = s.pins := rfl
@[simp] theorem State.setFill_jtag (n : Nat) (x : Fill) : (s.setFill n x).jtag = s.jtag := rfl
@[simp] theorem State.setFill_clk (n : Nat) (x : Fill) : (s.setFill n x).clk = s.clk := rfl
@[simp] theorem State.setFill_pwr (n : Nat) (x : Fill) : (s.setFill n x).pwr = s.pwr := rfl
@[simp] theorem State.setFill_mem (n : Nat) (x : Fill) : (s.setFill n x).mem = s.mem := rfl
@[simp] theorem State.setFill_poison (n : Nat) (x : Fill) : (s.setFill n x).poison = s.poison := rfl
@[simp] theorem State.setFill_units (n : Nat) (x : Fill) : (s.setFill n x).units = s.units := rfl
@[simp] theorem State.setFill_tiles (n : Nat) (x : Fill) : (s.setFill n x).tiles = s.tiles := rfl
@[simp] theorem State.setFill_clusters (n : Nat) (x : Fill) : (s.setFill n x).clusters = s.clusters := rfl
@[simp] theorem State.setFill_sync (n : Nat) (x : Fill) : (s.setFill n x).sync = s.sync := rfl
@[simp] theorem State.setFill_seats (n : Nat) (x : Fill) : (s.setFill n x).seats = s.seats := rfl
@[simp] theorem State.setFill_host (n : Nat) (x : Fill) : (s.setFill n x).host = s.host := rfl
@[simp] theorem State.setFill_mgmt (n : Nat) (x : Fill) : (s.setFill n x).mgmt = s.mgmt := rfl
@[simp] theorem State.setFill_sec (n : Nat) (x : Fill) : (s.setFill n x).sec = s.sec := rfl
@[simp] theorem State.setFill_log (n : Nat) (x : Fill) : (s.setFill n x).log = s.log := rfl
@[simp] theorem State.setFill_mons (n : Nat) (x : Fill) : (s.setFill n x).mons = s.mons := rfl
@[simp] theorem State.setFill_fw (n : Nat) (x : Fill) : (s.setFill n x).fw = s.fw := rfl
@[simp] theorem State.setFill_ctrs (n : Nat) (x : Fill) : (s.setFill n x).ctrs = s.ctrs := rfl
@[simp] theorem State.setFill_druind (n : Nat) (x : Fill) : (s.setFill n x).druind = s.druind := rfl
@[simp] theorem State.setFill_ni (n : Nat) (x : Fill) : (s.setFill n x).ni = s.ni := rfl
@[simp] theorem State.setFill_fab (n : Nat) (x : Fill) : (s.setFill n x).fab = s.fab := rfl
@[simp] theorem State.setFill_tk (n : Nat) (x : Fill) : (s.setFill n x).tk = s.tk := rfl


/-! ### setCounter writes only tk -/

@[simp] theorem State.setCounter_time (v r : Int) : (s.setCounter v r).time = s.time := rfl
@[simp] theorem State.setCounter_free (v r : Int) : (s.setCounter v r).free = s.free := rfl
@[simp] theorem State.setCounter_pending (v r : Int) : (s.setCounter v r).pending = s.pending := rfl
@[simp] theorem State.setCounter_ident (v r : Int) : (s.setCounter v r).ident = s.ident := rfl
@[simp] theorem State.setCounter_mod (v r : Int) : (s.setCounter v r).mod = s.mod := rfl
@[simp] theorem State.setCounter_pins (v r : Int) : (s.setCounter v r).pins = s.pins := rfl
@[simp] theorem State.setCounter_jtag (v r : Int) : (s.setCounter v r).jtag = s.jtag := rfl
@[simp] theorem State.setCounter_clk (v r : Int) : (s.setCounter v r).clk = s.clk := rfl
@[simp] theorem State.setCounter_pwr (v r : Int) : (s.setCounter v r).pwr = s.pwr := rfl
@[simp] theorem State.setCounter_mem (v r : Int) : (s.setCounter v r).mem = s.mem := rfl
@[simp] theorem State.setCounter_poison (v r : Int) : (s.setCounter v r).poison = s.poison := rfl
@[simp] theorem State.setCounter_units (v r : Int) : (s.setCounter v r).units = s.units := rfl
@[simp] theorem State.setCounter_tiles (v r : Int) : (s.setCounter v r).tiles = s.tiles := rfl
@[simp] theorem State.setCounter_clusters (v r : Int) : (s.setCounter v r).clusters = s.clusters := rfl
@[simp] theorem State.setCounter_sync (v r : Int) : (s.setCounter v r).sync = s.sync := rfl
@[simp] theorem State.setCounter_seats (v r : Int) : (s.setCounter v r).seats = s.seats := rfl
@[simp] theorem State.setCounter_host (v r : Int) : (s.setCounter v r).host = s.host := rfl
@[simp] theorem State.setCounter_mgmt (v r : Int) : (s.setCounter v r).mgmt = s.mgmt := rfl
@[simp] theorem State.setCounter_sec (v r : Int) : (s.setCounter v r).sec = s.sec := rfl
@[simp] theorem State.setCounter_log (v r : Int) : (s.setCounter v r).log = s.log := rfl
@[simp] theorem State.setCounter_mons (v r : Int) : (s.setCounter v r).mons = s.mons := rfl
@[simp] theorem State.setCounter_fw (v r : Int) : (s.setCounter v r).fw = s.fw := rfl
@[simp] theorem State.setCounter_ctrs (v r : Int) : (s.setCounter v r).ctrs = s.ctrs := rfl
@[simp] theorem State.setCounter_druind (v r : Int) : (s.setCounter v r).druind = s.druind := rfl
@[simp] theorem State.setCounter_ni (v r : Int) : (s.setCounter v r).ni = s.ni := rfl
@[simp] theorem State.setCounter_fab (v r : Int) : (s.setCounter v r).fab = s.fab := rfl
@[simp] theorem State.setCounter_flash (v r : Int) : (s.setCounter v r).flash = s.flash := rfl


/-! ### store writes only mem and poison -/

@[simp] theorem State.store_time (a : Nat) (b : Bytes) : (s.store a b).time = s.time := rfl
@[simp] theorem State.store_free (a : Nat) (b : Bytes) : (s.store a b).free = s.free := rfl
@[simp] theorem State.store_pending (a : Nat) (b : Bytes) : (s.store a b).pending = s.pending := rfl
@[simp] theorem State.store_ident (a : Nat) (b : Bytes) : (s.store a b).ident = s.ident := rfl
@[simp] theorem State.store_mod (a : Nat) (b : Bytes) : (s.store a b).mod = s.mod := rfl
@[simp] theorem State.store_pins (a : Nat) (b : Bytes) : (s.store a b).pins = s.pins := rfl
@[simp] theorem State.store_jtag (a : Nat) (b : Bytes) : (s.store a b).jtag = s.jtag := rfl
@[simp] theorem State.store_clk (a : Nat) (b : Bytes) : (s.store a b).clk = s.clk := rfl
@[simp] theorem State.store_pwr (a : Nat) (b : Bytes) : (s.store a b).pwr = s.pwr := rfl
@[simp] theorem State.store_units (a : Nat) (b : Bytes) : (s.store a b).units = s.units := rfl
@[simp] theorem State.store_tiles (a : Nat) (b : Bytes) : (s.store a b).tiles = s.tiles := rfl
@[simp] theorem State.store_clusters (a : Nat) (b : Bytes) : (s.store a b).clusters = s.clusters := rfl
@[simp] theorem State.store_sync (a : Nat) (b : Bytes) : (s.store a b).sync = s.sync := rfl
@[simp] theorem State.store_seats (a : Nat) (b : Bytes) : (s.store a b).seats = s.seats := rfl
@[simp] theorem State.store_host (a : Nat) (b : Bytes) : (s.store a b).host = s.host := rfl
@[simp] theorem State.store_mgmt (a : Nat) (b : Bytes) : (s.store a b).mgmt = s.mgmt := rfl
@[simp] theorem State.store_sec (a : Nat) (b : Bytes) : (s.store a b).sec = s.sec := rfl
@[simp] theorem State.store_log (a : Nat) (b : Bytes) : (s.store a b).log = s.log := rfl
@[simp] theorem State.store_mons (a : Nat) (b : Bytes) : (s.store a b).mons = s.mons := rfl
@[simp] theorem State.store_fw (a : Nat) (b : Bytes) : (s.store a b).fw = s.fw := rfl
@[simp] theorem State.store_ctrs (a : Nat) (b : Bytes) : (s.store a b).ctrs = s.ctrs := rfl
@[simp] theorem State.store_druind (a : Nat) (b : Bytes) : (s.store a b).druind = s.druind := rfl
@[simp] theorem State.store_ni (a : Nat) (b : Bytes) : (s.store a b).ni = s.ni := rfl
@[simp] theorem State.store_fab (a : Nat) (b : Bytes) : (s.store a b).fab = s.fab := rfl
@[simp] theorem State.store_flash (a : Nat) (b : Bytes) : (s.store a b).flash = s.flash := rfl
@[simp] theorem State.store_tk (a : Nat) (b : Bytes) : (s.store a b).tk = s.tk := rfl


/-! ### zero writes only mem and poison -/

@[simp] theorem State.zero_time (a n : Nat) : (s.zero a n).time = s.time := rfl
@[simp] theorem State.zero_free (a n : Nat) : (s.zero a n).free = s.free := rfl
@[simp] theorem State.zero_pending (a n : Nat) : (s.zero a n).pending = s.pending := rfl
@[simp] theorem State.zero_ident (a n : Nat) : (s.zero a n).ident = s.ident := rfl
@[simp] theorem State.zero_mod (a n : Nat) : (s.zero a n).mod = s.mod := rfl
@[simp] theorem State.zero_pins (a n : Nat) : (s.zero a n).pins = s.pins := rfl
@[simp] theorem State.zero_jtag (a n : Nat) : (s.zero a n).jtag = s.jtag := rfl
@[simp] theorem State.zero_clk (a n : Nat) : (s.zero a n).clk = s.clk := rfl
@[simp] theorem State.zero_pwr (a n : Nat) : (s.zero a n).pwr = s.pwr := rfl
@[simp] theorem State.zero_units (a n : Nat) : (s.zero a n).units = s.units := rfl
@[simp] theorem State.zero_tiles (a n : Nat) : (s.zero a n).tiles = s.tiles := rfl
@[simp] theorem State.zero_clusters (a n : Nat) : (s.zero a n).clusters = s.clusters := rfl
@[simp] theorem State.zero_sync (a n : Nat) : (s.zero a n).sync = s.sync := rfl
@[simp] theorem State.zero_seats (a n : Nat) : (s.zero a n).seats = s.seats := rfl
@[simp] theorem State.zero_host (a n : Nat) : (s.zero a n).host = s.host := rfl
@[simp] theorem State.zero_mgmt (a n : Nat) : (s.zero a n).mgmt = s.mgmt := rfl
@[simp] theorem State.zero_sec (a n : Nat) : (s.zero a n).sec = s.sec := rfl
@[simp] theorem State.zero_log (a n : Nat) : (s.zero a n).log = s.log := rfl
@[simp] theorem State.zero_mons (a n : Nat) : (s.zero a n).mons = s.mons := rfl
@[simp] theorem State.zero_fw (a n : Nat) : (s.zero a n).fw = s.fw := rfl
@[simp] theorem State.zero_ctrs (a n : Nat) : (s.zero a n).ctrs = s.ctrs := rfl
@[simp] theorem State.zero_druind (a n : Nat) : (s.zero a n).druind = s.druind := rfl
@[simp] theorem State.zero_ni (a n : Nat) : (s.zero a n).ni = s.ni := rfl
@[simp] theorem State.zero_fab (a n : Nat) : (s.zero a n).fab = s.fab := rfl
@[simp] theorem State.zero_flash (a n : Nat) : (s.zero a n).flash = s.flash := rfl
@[simp] theorem State.zero_tk (a n : Nat) : (s.zero a n).tk = s.tk := rfl


/-! ### A piece reads as it was written, and every other piece as before -/

@[simp] theorem State.stack_setStack_self (n : Nat) (x : Stack) : (s.setStack n x).stack n = x := FMap.get_put_self _ _ _ _
theorem State.stack_setStack_ne {m n : Nat} (x : Stack) (h : m ≠ n) : (s.setStack n x).stack m = s.stack m :=
  FMap.get_put_ne _ _ _ h
@[simp] theorem State.ptile_setPtile_self (n : Nat) (x : PTile) : (s.setPtile n x).ptile n = x := FMap.get_put_self _ _ _ _
theorem State.ptile_setPtile_ne {m n : Nat} (x : PTile) (h : m ≠ n) : (s.setPtile n x).ptile m = s.ptile m :=
  FMap.get_put_ne _ _ _ h
@[simp] theorem State.pcluster_setPcluster_self (n : Nat) (x : PCluster) : (s.setPcluster n x).pcluster n = x := FMap.get_put_self _ _ _ _
theorem State.pcluster_setPcluster_ne {m n : Nat} (x : PCluster) (h : m ≠ n) : (s.setPcluster n x).pcluster m = s.pcluster m :=
  FMap.get_put_ne _ _ _ h
@[simp] theorem State.tile_setTile_self (n : Nat) (x : Tile) : (s.setTile n x).tile n = x := FMap.get_put_self _ _ _ _
theorem State.tile_setTile_ne {m n : Nat} (x : Tile) (h : m ≠ n) : (s.setTile n x).tile m = s.tile m :=
  FMap.get_put_ne _ _ _ h
@[simp] theorem State.cluster_setCluster_self (n : Nat) (x : Cluster) : (s.setCluster n x).cluster n = x := FMap.get_put_self _ _ _ _
theorem State.cluster_setCluster_ne {m n : Nat} (x : Cluster) (h : m ≠ n) : (s.setCluster n x).cluster m = s.cluster m :=
  FMap.get_put_ne _ _ _ h
@[simp] theorem State.fn_setFn_self (n : Nat) (x : Func) : (s.setFn n x).fn n = x := FMap.get_put_self _ _ _ _
theorem State.fn_setFn_ne {m n : Nat} (x : Func) (h : m ≠ n) : (s.setFn n x).fn m = s.fn m :=
  FMap.get_put_ne _ _ _ h
@[simp] theorem State.mon_setMon_self (n : Nat) (x : Monitor) : (s.setMon n x).mon n = x := FMap.get_put_self _ _ _ _
theorem State.mon_setMon_ne {m n : Nat} (x : Monitor) (h : m ≠ n) : (s.setMon n x).mon m = s.mon m := by
  unfold State.mon State.setMon FMap.get FMap.put
  split
  · rw [FMap.find?_erase_ne _ h]
  · rw [FMap.find?_insert_ne _ _ h]
@[simp] theorem State.port_setPort_self (n : Nat) (x : Port) : (s.setPort n x).port n = x := FMap.get_put_self _ _ _ _
theorem State.port_setPort_ne {m n : Nat} (x : Port) (h : m ≠ n) : (s.setPort n x).port m = s.port m :=
  FMap.get_put_ne _ _ _ h
@[simp] theorem State.rxStream_setRx_self (n : Nat) (x : RxStream) : (s.setRx n x).rxStream n = x := FMap.get_put_self _ _ _ _
theorem State.rxStream_setRx_ne {m n : Nat} (x : RxStream) (h : m ≠ n) : (s.setRx n x).rxStream m = s.rxStream m :=
  FMap.get_put_ne _ _ _ h
@[simp] theorem State.txStream_setTx_self (n : Nat) (x : TxStream) : (s.setTx n x).txStream n = x := FMap.get_put_self _ _ _ _
theorem State.txStream_setTx_ne {m n : Nat} (x : TxStream) (h : m ≠ n) : (s.setTx n x).txStream m = s.txStream m :=
  FMap.get_put_ne _ _ _ h
@[simp] theorem State.seat?_setSeat_self (n : Nat) (x : Seat) : (s.setSeat n x).seat? n = some x :=
  FMap.find?_insert_self _ _ _
theorem State.seat?_setSeat_ne {m n : Nat} (x : Seat) (h : m ≠ n) : (s.setSeat n x).seat? m = s.seat? m :=
  FMap.find?_insert_ne _ _ h

end Sys2Proof.Machine
end

