-- ==== Sys2Proof/Tests/Slice0.lean ====
section
/-!
SUPPORT. Witnesses and small tests. For every statement of Obligations.lean whose clauses have hypotheses, the theorem witness_<name> shows,
clause by clause, a concrete state and operands that meet all the hypotheses of that clause. The theorems wellformed_<what> show a command out
of range for each check of WellFormed.lean, which the check refuses. The theorems test_<what> take expected values from the spec's tables.
-/

namespace Sys2Proof.Tests

set_option Elab.async false

open Sys2Proof.Machine

/-! ### Small states -/

def live : State :=
  { mod := { state := .ready, verified := true, refereeRuns := true, hbmTrained := true, mapBuilt := true, dawnDone := true
             flashDone := true, portsEnabled := true, admitted := true }
    pins := { rstN := true, pwrOk := true, perstN := [true, true, true, true], txIdle := false }
    clk := { lockstep := true, pllLocked := true } }

def inState (m : ModState) : State := { live with mod := { state := m } }

/-- A command packet: its opcode, seat, ARG and payload. -/
def packet (code seat arg : Nat) (payload : Bytes) : Bytes :=
  natLe 2 code ++ natLe 1 seat ++ [0] ++ natLe 2 7 ++ natLe 2 payload.length ++ List.replicate 16 0 ++ natLe 8 arg ++ payload

/-- A state with one accepted command, of a management transport. -/
def asked (s : State) (code seat arg : Nat) (payload : Bytes) : State :=
  { s with host := { s.host with cmds := [{ id := 0, issuer := .mgmt (.i2c 9), packet := packet code seat arg payload, sqHead := 0
                                            begun := false, discard := false, acceptedAt := 0 }], nextCmd := 1 } }

def seatRecord : Bytes := List.replicate 64 0

/-- The module with one seat. -/
def withSeat (x : Seat) : State := { live with seats := [(1, x)] }

def runner : Seat := { state := .running, record := [0, 1] ++ List.replicate 14 0 ++ [1] ++ List.replicate 47 0 }

def waiter : Seat := { runner with launches := [⟨0, 0, false, true⟩], preempt := { phase := .saved } }

def routeOf (seat : Nat) (share : List Nat) (record : Bytes) : RouteRun :=
  { seat := seat, tile := 0, ctx := 0, addr := 0, desc := List.replicate 64 0, turn := 0, lead := 0, share := share, record := record, bankB := false
    bank := [], group := none, members := [0], rank := 0, status := none, round := 0, tokens := [], counts := [], replies := [], decided := 0
    rem := [], room := [], received := [], granted := [], overflowed := [], dropped := [], grants := [], short := [], finished := false }

/-- A block of n bytes, zero but for the fields given: offset, width and value. -/
def fields (n : Nat) (l : List (Nat × Nat × Nat)) : Bytes :=
  l.foldl (fun b f => b.take f.1 ++ natLe f.2.1 f.2.2 ++ b.drop (f.1 + f.2.1)) (List.replicate n 0)

/-- A record of one cluster with half of region 0, all entries and eight groups. -/
def goodRecord : Bytes :=
  fields 64 [(0, 1, 1), (3, 1, 1), (6, 1, 8), (16, 16, 1), (32, 2, 1), (36, 2, 100), (38, 1, 32), (39, 1, 32), (40, 1, 32), (41, 1, 32), (42, 2, 4096), (44, 2, 8), (52, 2, 1)]

/-- The module with its first cluster built and everything allotted to port 0. -/
def built : State :=
  { live with units := { clusterMap := [(0, 0)], tileMap := (List.range 8).map (fun k => (k, k)) }
              host := { allots := [allotAll, {}, {}, {}], configured := [true, false] }, fw := { slotA := releaseOne } }

/-- A seat with that record. -/
def goodSeat : Seat := { record := goodRecord, share := [0], home := [(0, 0)] }

/-- The module with one seat of that record, at node 0. -/
def seated (x : Seat) : State := { built with seats := [(1, x)], fab := { live.fab with node := 0 } }

/-- A module whose memory holds bytes from an address on. -/
def withBytes (s : State) (l : List (Nat × Bytes)) : State := l.foldl (fun s ab => s.store ab.1 ab.2) s

/-- A program image of one kernel and one binding. -/
def imageBytes : Bytes := fields 88 [(0, 4, 1), (6, 2, 8), (8, 4, 1), (12, 4, 1), (16, 8, 88), (68, 4, 1)]

/-- An idle program. -/
def prog0 : Program := ⟨0, 8, [(0, 1)], [], []⟩

/-- A definition of group 3 with two members. -/
def groupRecord : Bytes :=
  fields 64 [(0, 2, 3), (4, 2, 2), (6, 1, 2), (8, 4, 10), (12, 4, 1000), (16, 8, 0), (24, 8, 4096), (32, 8, 4096), (40, 8, 8192)]

/-- Group 3 of seat 1, with no call. -/
def group0 : Group := ⟨1, groupRecord, [0, 5], 0, none, [], []⟩

/-- A call of that group in progress. -/
def openCall : Call :=
  ⟨1, 0, 0, none, [], [], none, 0, 0, 0, 0, 0, 0, 0, none, [], [], [], false, none, [], [], 0, [], false, [], false, none, false, false, false, []⟩

/-- The module with its flash available and namespace 0 of port 0 attached for writing by its seat. -/
def flashy : State :=
  { seated { goodSeat with ns := some (0, true) } with flash := { available := true, live := { nss := [(0, ⟨0, 2⟩)] } } }

theorem not_read_only (s : State) (h : s.flash.live.bad = []) : s.flashReadOnly = false := by
  have p (ch : Nat) : s.reservePct ch = 100 := by
    have z : s.flash.live.badOf ch = 0 := by simp [FlashMap.badOf, h]
    rw [State.reservePct, z, Nat.sub_zero, Nat.mul_comm, Nat.mul_div_cancel _ (show 0 < reserveBlocks from Nat.succ_pos _)]
  simp [State.flashReadOnly, p]

/-- The module with function 0 and its first ring pair. -/
def ringed (r : Ring) : State := { live with host := { functions := [(0, { rings := [r] })] } }

/-- An enabled pair with rings of 64 slots. -/
def ring64 : Ring := { sqBase := 0x1000, cqBase := 0x8000, cfg := 0x0001000100010606, state := .enabled, enable := true }

theorem bar2_ok (s : State) (fn o n : Nat) (x : Seat) (a p : Nat) (h1 : s.seat? fn = some x) (h2 : (s.fn fn).bar2Addr o = some a)
    (h3 : s.resolve x a n = some p) (h4 : (hbmEnd ≤ a && !(decide (x.preempt.phase = .none))) = false) : s.bar2Reach fn o n = .ok (a, p) := by
  simp only [State.bar2Reach, h1, h2, h3, h4]
  rfl

/-- The module with a packet that waits at its hub. -/
def arrived (p : Packet) (port : Nat) : State := { live with ni := { inbox := [{ pkt := p, port := port, origin := [], at_ := 0 }] } }

/-- A time packet of a kind. -/
def timePacket (kind : Nat) : Packet := mkPacket 0 0x21 0 0 0 0 (fields 48 [(0, 1, kind), (6, 2, 7)])

/-- A vendor message around a command packet. -/
def vendorMsg (b : Bytes) : Bytes := [0, 0, 1] ++ b

/-- A descriptor of a type: 64 bytes, zero but for the fields given. -/
def descOf (type : Nat) (l : List (Nat × Nat × Nat)) : Bytes := fields 64 ((0, 1, type) :: l)

/-- A descriptor being executed. -/
def begun (d : Bytes) : Exec := { addr := 0, desc := d, total := 1, issued := 1, done := false, since := 0, gmm := none }

/-- A context of seat 1 with a descriptor in execution. -/
def ctxOf (e : Exec) (st : CtxState) : Ctx := { state := st, seat := 1, cur := some e }

/-- The module with a kernel of seat 1 in progress on tile 0, whose context 0 is given. -/
def tiled (x : Ctx) : State :=
  { seated { goodSeat with state := .running, running := some ⟨⟨0, 0, false, true⟩, [(0, 0)], none, none, true⟩ } with
    tiles := [(0, { ctxs := x :: List.replicate 7 {}, last := 0 })] }

def executing (d : Bytes) : State := tiled (ctxOf (begun d) .issuing)

def ended (d : Bytes) (st : CtxState) : State := tiled (ctxOf { begun d with done := true } st)

def matmul1 : Bytes := descOf 1 [(16, 4, 1024), (20, 4, 2048), (36, 2, 1), (38, 2, 1), (40, 3, 1), (44, 1, 1), (45, 1, 1), (46, 1, 1), (48, 2, 16), (50, 2, 16), (52, 2, 16)]

def vec (op count : Nat) : Bytes :=
  descOf 3 [(12, 1, op), (13, 1, 1), (14, 1, 1), (16, 4, 0), (20, 4, 4096), (28, 4, 8192), (32, 3, count), (36, 2, 1), (38, 2, 1), (40, 2, 16), (42, 2, 16), (44, 2, 16)]

def gmm1 (l : List (Nat × Nat × Nat)) : Bytes :=
  descOf 2 ([(12, 8, 0x10000), (22, 2, 1), (26, 2, 1), (28, 3, 1), (40, 1, 1), (41, 1, 1), (42, 1, 1), (44, 2, 16), (46, 2, 16), (48, 2, 16)] ++ l)

/-- A space of one expert for seat 1. -/
def space1 : SpaceRec := ⟨fields 96 [(2, 2, 1), (6, 1, 1), (8, 4, 10), (16, 8, 0x100000), (34, 2, 1)], false⟩

def route1 : Bytes := descOf 9 [(12, 1, 2), (13, 1, 1), (14, 2, 6), (16, 4, 1), (40, 8, 0x200000), (48, 4, 65536)]

/-- A ROUTE handed over to engine 0. -/
def asking : State :=
  withBytes { tiled (ctxOf (begun route1) .parked) with
              seats := [(1, { goodSeat with state := .running, spaces := [(6, space1)], running := some ⟨⟨0, 0, false, true⟩, [(0, 0)], none, none, true⟩ })]
              druind := { asks := [⟨0, 0, 0, 5⟩] } } [(0x100000, [0, 0, 0, 0, 0, 0, 4, 0])]

def askSeat : Seat :=
  { goodSeat with state := .running, spaces := [(6, space1)], running := some ⟨⟨0, 0, false, true⟩, [(0, 0)], none, none, true⟩ }

/-- A packet of a member node of group 3. -/
def memberPacket (src type tag : Nat) (p : Bytes) : Packet := { mkPacket 0 type 1 0 tag 0 p with src := src }

/-- Group 3 of seat 1 on some nodes. -/
def groupAt (rank : Nat) (nodes : List Nat) (c : Option Call) : Group :=
  ⟨1, fields 64 [(0, 2, 3), (2, 2, rank), (4, 2, nodes.length), (6, 1, 2), (8, 4, 10), (12, 4, 1000), (40, 8, 8192)], nodes, 0, c, [], []⟩

/-- A member's packet has reached the module, which is in that group. -/
def member (g : Group) (p : Packet) : State := { seated goodSeat with ni := { inbox := [⟨p, 3, [], 0⟩], groups := [(3, g)] } }

/-- The module with group 3 and nothing at its inbox. -/
def inGroup (g : Group) : State := { seated goodSeat with ni := { groups := [(3, g)] } }

def final0 : OpenRec := ⟨0, 0, false, false, 0, []⟩

/-- An action of seat 1 that has an engine. -/
def actionOf (code len : Nat) (args : Bytes) : Action :=
  ⟨1, 0, 0, ⟨true, code, 0, 5, 0, none, len, args⟩, 0, true, false, 0, none, none, 0, none⟩

def acting (a : Action) : State := { seated goodSeat with ni := { actions := [(0, a)] } }

def perm0 : PermRun := ⟨[], [], 0, 6, 0xFFFF, 0, [{}], [], 0, 0, 0, 0, false, false, false, 0, none⟩

/-- The module with port 2 in a state. -/
def portIs (x : Port) : State := { live with fab := { live.fab with ports := [(2, x)] } }

def flit0 : Flit := ⟨.data, 0, 0, 0, 0, [1], [], true, 0, 0⟩

/-- An exchange of space 0 without a group, whose route table lies at 0x200000. -/
def exArgs (group : Nat) : Bytes := fields 32 [(0, 8, 0x200000), (10, 2, group), (12, 2, 64), (20, 4, 0xFFFFFFFF)]

def exRec : Bytes := fields 96 [(2, 2, 1), (6, 1, 1), (8, 4, 10), (34, 2, 1), (40, 2, 64), (42, 2, 4), (92, 2, 64)]

def spaced : Seat := { goodSeat with spaces := [(0, ⟨exRec, false⟩)] }

def exchanging : State :=
  withBytes { seated spaced with ni := { actions := [(0, actionOf 0x28 0 (exArgs 0xFFFF))] } } [(0x200028, [1])]

def perm1 : PermRun := ⟨exRec, [], 0, 0, 3, 0, [{}, {}], [], 0, 0, 0, 0, false, false, false, 0, none⟩

/-- A member of group 3 whose exchange expects one row of 64 bytes from rank 1. -/
def receiving (perm : Option PermRun) (standIns : List StandIn) : State :=
  withBytes { seated spaced with
              ni := { inbox := [⟨{ memberPacket 5 0x12 (collTag 3 0 0) [1, 2] with last := false }, 3, [], 0⟩], groups := [(3, groupAt 0 [0, 5] none)]
                      actions := [(0, { actionOf 0x28 0 (exArgs 3) with perm := perm })], standIns := standIns } }
    [(0x200000 + 384 + 28, [1]), (0x200000 + 384 + 32, natLe 8 0x201000), (0x201000 + 4, [1])]

/-- A return of space 0 without a group, whose combine record lies at 0x300000. -/
def returning : State :=
  withBytes { seated spaced with ni := { actions := [(0, actionOf 0x29 0 (fields 32 [(0, 8, 0x200000), (8, 8, 0x300000), (22, 2, 0xFFFF), (25, 1, 1)]))] } }
    [(0x200028, [1]), (0x300000, fields 320 [(8, 4, 16), (12, 1, 1), (13, 1, 1), (24, 4, 16), (28, 2, 4), (44, 4, 64)])]

/-- A thief on tile 1 and the owner of a work unit on tile 0, in the same GMM. -/
def stealTile : State :=
  { tiled (ctxOf { begun (gmm1 [(31, 1, 16), (39, 1, 1)]) with gmm := some { units := [⟨0, 0, 0⟩] } } .issuing) with
    tiles := [(0, { ctxs := ctxOf { begun (gmm1 [(31, 1, 16), (36, 4, 65536)]) with gmm := some { units := [⟨0, 0, 0⟩] } } .issuing :: List.replicate 7 {}, last := 0 }),
              (1, { ctxs := ctxOf { begun (gmm1 [(31, 1, 16), (36, 4, 65536)]) with gmm := some { units := [] } } .issuing :: List.replicate 7 {}, last := 0 })] }

def entry0 : GtEntry := ⟨0, 0, false, 1, 0x1000, 0x2000, 0x3000, 0, 0, 0, 1⟩

def ownerRun : UnitRun :=
  { id := 7, unit := ⟨0, 0, 0⟩, desc := gmm1 [(31, 1, 20), (36, 4, 65536)], entry := entry0, weights := ⟨0, 0, 0, [], [], {}⟩, nseg := 2, given := [(1, 1)] }

/-- The sums of a stolen segment have reached the owner. -/
def slotArrived : State :=
  { tiled {} with
    sync := { slotWrites := [⟨0, 0, 7, 1, [(5, none)], 1, 0⟩] }
    tiles := [(0, { ctxs := ctxOf { begun (gmm1 [(31, 1, 20), (36, 4, 65536)]) with gmm := some { units := [], runs := [ownerRun] } } .issuing :: List.replicate 7 {}, last := 0 }),
              (1, { ctxs := ctxOf { begun (gmm1 [(31, 1, 20), (36, 4, 65536)]) with gmm := some { units := [], stolen := 1 } } .issuing :: List.replicate 7 {}, last := 0 })] }

/-- Window 7 of seat 1: all rights to 1 MiB from 0x100000. -/
def window7 : Window := ⟨true, true, true, true, true, 1, 7, 0, 0, 0x100000, 0x100000⟩

def requestPacket (type : Nat) (p : Bytes) : Packet := { mkPacket 0 type 2 0 7 0 p with src := 5 }

/-- A request of node 5 has reached the home. -/
def requested (p : Packet) (ops : List LineOp) : State :=
  { seated goodSeat with ni := { inbox := [⟨p, 3, [], 0⟩], windows := [(7, window7)], lineOps := ops } }

def origin5 : OpFrom := ⟨5, 2, 0, 0, 0, 1, 0, false, false, true, none⟩

def lining (ops : List LineOp) : State := { seated goodSeat with ni := { lineOps := ops } }

/-- A request of an action to node 5 is answered. -/
def answered (k : ReqKind) (p : Packet) : State :=
  { seated goodSeat with
    ni := { inbox := [⟨{ p with src := 5 }, 3, [], 0⟩], requests := [(4, ⟨5, 2, 0, 0, 9, 1, 0, k, .action 0, 0⟩)]
            actions := [(0, { actionOf 0x10 64 [] with begun := true, outstanding := 1 })] } }

theorem not_lost (s : State) (a : Nat) (h : hbmEnd ≤ a) : ∀ i, i < 4096 → s.lostByte (a + i) = false := by
  intro i _
  have : ¬ (a + i < hbmEnd) := by omega
  simp [State.lostByte, this]

/-- A fill of one unit into the store of tile 0. -/
def fill1 : Fill := ⟨1, 0, descOf 6 [(24, 8, 0), (32, 4, 4096)], [0xD00000000000], 0, true, 0, 0, 0, [], [], 0, 0, false⟩

def filling (x : Fill) (ws : List (Nat × UnitWork)) (l : List (Nat × Nat)) : State :=
  { flashy with flash := { flashy.flash with live := { nss := [(0, ⟨0, 2⟩)], map := l }, nand := [(5, ⟨0, 0, 0, [(0, [1])], 0, []⟩)], fills := [(0, x)], units := ws } }

/-- The event area of the seat, for the outcome of a fill. -/
def evented : State :=
  { filling { fill1 with outcomes := [(0, (2, 3))], done := 1 } [] [(0, 5)] with
    seats := [(1, { goodSeat with areas := { event := 0x100000 }, ns := some (0, true) })] }

/-- A STREAM that has reached its hub. -/
def streaming (l : List (Nat × Nat)) (full : Bool) : State :=
  { executing (descOf 6 [(12, 1, 0), (24, 4, 0), (32, 4, 4096)]) with
    seats := [(1, { goodSeat with ns := some (0, true), state := .running, running := some ⟨⟨0, 0, false, true⟩, [(0, 0)], none, none, true⟩ })]
    flash := { available := true, live := { nss := [(0, ⟨0, 2⟩)] }, asks := l
               fills := if full then (List.range 64).map (fun i => (i, fill1)) else [] } }

/-- An unlock payload for a module without a serial: scope 3 and a nonce of zeros. -/
def unlock1 : Bytes := fields 160 [(0, 4, 1), (4, 4, 3)]

/-- Every namespace number taken, each by a namespace of no extents. -/
def fullNss (l : List Nat) : FMap Namespace := l.map (fun k => (k, ⟨0, 0⟩))

theorem fullNss_find (l : List Nat) (m : Nat) (h : m ∈ l) : (FMap.find? (fullNss l) m).isSome = true := by
  induction l with
  | nil => cases h
  | cons k l ih =>
    rcases Nat.decEq k m with hk | hk
    · have : m ∈ l := (List.mem_cons.mp h).resolve_left (fun e => hk e.symm)
      simpa [fullNss, FMap.find?, hk] using ih this
    · simp [fullNss, FMap.find?, hk]

theorem fullNss_extents (l : List Nat) (a : Nat) (f : Namespace → Bool) :
    (fullNss l).foldl (fun a (kn : Nat × Namespace) => if f kn.2 then a + kn.2.extents else a) a = a := by
  induction l with
  | nil => rfl
  | cons k l ih => simpa [fullNss] using ih

/-- An NS_CREATE of one extent where those namespaces are all there are. -/
def crowded (l : List Nat) : State :=
  asked { built with flash := { available := true, live := { nss := fullNss l } } } 0x0601 0 1 []

theorem crowded_free (l : List Nat) : (crowded l).extentsFree = ({} : Ident).extents := by
  have h := fullNss_extents l 0 (fun _ => true)
  simp only [if_true] at h
  exact congrArg (fun x => ({} : Ident).extents - x) h

theorem crowded_of (l : List Nat) (p : Nat) : (crowded l).extentsOf p = 0 := by
  have h := fullNss_extents l 0 (fun n => decide (n.port = p))
  simp only [decide_eq_true_eq] at h
  exact h

theorem crowded_runs (l : List Nat) : ∃ c, (crowded l).canRun 0 0x0601 c ∧ (crowded l).flash.available = true ∧ 1 = chArg c.packet ∧
    0 < 1 ∧ 1 ≤ (crowded l).extentsFree ∧ (crowded l).extentsOf (c.port?.getD 0) + 1 ≤ ((crowded l).allot (c.port?.getD 0)).extents ∧
    ∀ m, m ∈ l → (FMap.find? (crowded l).flash.live.nss m).isSome = true := by
  refine ⟨_, ⟨_, ⟨rfl, rfl, rfl, rfl, rfl⟩, (fun h => nomatch h), rfl⟩, rfl, by decide +kernel, by decide, ?_, ?_, fun m h => fullNss_find l m h⟩
  · rw [crowded_free]; decide +kernel
  · rw [crowded_of]; exact Nat.le_of_ble_eq_true rfl

theorem crowded_full : ∃ s : State, ∃ c, s.canRun 0 0x0601 c ∧ s.flash.available = true ∧ 1 = chArg c.packet ∧ 0 < 1 ∧ 1 ≤ s.extentsFree ∧
    s.extentsOf (c.port?.getD 0) + 1 ≤ (s.allot (c.port?.getD 0)).extents ∧
    ∀ m, m < 65536 → (FMap.find? s.flash.live.nss m).isSome = true := by
  obtain ⟨c, h1, h2, h3, h4, h5, h6, h7⟩ := crowded_runs (List.range 65536)
  exact ⟨_, c, h1, h2, h3, h4, h5, h6, fun m hm => h7 m (List.mem_range.mpr hm)⟩

/-! ### Witnesses -/

theorem witness_StepIsTheFrontCommand :
    (∃ (s : State) (c : Instr) (rest : List Instr), s.pending = c :: rest) ∧
    (∃ (s : State), s.pending = []) :=
  ⟨⟨{ live with pending := [.ready] }, _, _, rfl⟩,
   ⟨live, by decide⟩⟩

theorem witness_StepKeepsMemoriesCanonical :
    ∃ (s : State) (t : State), s.wf = true ∧ step s = .next t :=
  ⟨live, _, by decide, (rfl)⟩

theorem witness_CommandsKeepIdentityQueueAndTime :
    ∃ (c : Instr) (s : State) (t : State), exec c s = .next t :=
  ⟨.throttleN, live, _, (rfl)⟩

theorem witness_ResetCommandsLeaveNoData :
    (∃ (s : State) (rstN : Bool) (pwrOk : Bool), (rstN && pwrOk) = false ∧ s.mod.state ≠ .hold) ∧
    (∃ (s : State) (rstN : Bool) (pwrOk : Bool), (rstN && pwrOk) = false ∧ s.mod.state = .hold) ∧
    (∃ (s : State), s.mod.state ≠ .hold) ∧
    (∃ (s : State), s.mod.state = .hold) ∧
    (∃ (s : State) (mv : Nat), 36000 ≤ mv ∧ mv < 38000 ∧ s.mod.state ≠ .hold) ∧
    (∃ (s : State) (mv : Nat), 36000 ≤ mv ∧ mv < 38000 ∧ s.mod.state = .hold) ∧
    (∃ (mv : Nat), mv < 36000) ∧
    (∃ (mv : Nat), 38000 ≤ mv) :=
  ⟨⟨live, false, true, by decide, by decide⟩,
   ⟨inState .hold, false, false, by decide, by decide⟩,
   ⟨live, by decide⟩,
   ⟨inState .hold, by decide⟩,
   ⟨live, 36000, by decide, by decide, by decide⟩,
   ⟨inState .hold, 36000, by decide, by decide, by decide⟩,
   ⟨35999, by decide⟩,
   ⟨38000, by decide⟩⟩

theorem witness_ResetEndsWhenAllReleaseIt :
    (∃ (s : State) (u : State), (s.pins.rstN && s.pins.pwrOk) = false ∧
     u = { s with pins := { s.pins with rstN := true, pwrOk := true } }) ∧
    (∃ (s : State), (s.pins.rstN && s.pins.pwrOk) = true) ∧
    (∃ (s : State) (u : State), s.mod.jtagHold = true ∧ u = { s with mod := { s.mod with jtagHold := false } }) ∧
    (∃ (s : State), s.mod.jtagHold = false) ∧
    (∃ (s : State) (u : State), u = { s with mod := { s.mod with powered := true } }) :=
  ⟨⟨.reset, _, by decide, rfl⟩,
   ⟨live, by decide⟩,
   ⟨{ live with mod := { live.mod with jtagHold := true } }, _, by decide, (rfl)⟩,
   ⟨live, by decide⟩,
   ⟨live, _, rfl⟩⟩

theorem witness_BootStartsAVerifiedSlot :
    (∃ (s : State), s.mod.state = .boot ∧ s.mod.verified = false ∧ s.slotFault s.fw.selectedB = 0) ∧
    (∃ (s : State), s.mod.state = .boot ∧ s.mod.verified = false ∧ s.slotFault s.fw.selectedB ≠ 0 ∧
     s.imageOk (!s.fw.selectedB) = true) ∧
    (∃ (s : State), s.mod.state = .boot ∧ s.mod.verified = false ∧ s.slotFault s.fw.selectedB ≠ 0 ∧
     s.imageOk (!s.fw.selectedB) = false) ∧
    (∃ (s : State), (s.mod.state ≠ .boot ∨ s.mod.verified = true)) :=
  ⟨⟨{ inState .boot with fw := { slotA := releaseOne } }, by decide, by decide, (by decide +kernel)⟩,
   ⟨{ inState .boot with fw := { slotA := releaseOne, selectedB := true, failedStarts := 3 } }, by decide, by decide, (fun h => by
    unfold State.slotFault at h; split at h; cases h; split at h; cases h; split at h; cases h; exact absurd rfl (by assumption)), (by decide +kernel)⟩,
   ⟨{ inState .boot with fw := { slotA := releaseOne, minSvn := 5 } }, by decide, by decide, (by decide +kernel),
    (Bool.and_false _)⟩,
   ⟨live, by decide⟩⟩

theorem witness_StartTrainsAlignsAndBecomesReady :
    (∃ (s : State), s.mod.state = .boot ∧ s.mod.verified = true) ∧
    (∃ (s : State), (s.mod.state ≠ .boot ∨ s.mod.verified = false)) ∧
    (∃ (s : State), s.mod.state = .init ∧ s.mod.hbmTrained = false) ∧
    (∃ (s : State), (s.mod.state ≠ .init ∨ s.mod.hbmTrained = true)) ∧
    (∃ (s : State), s.mod.state = .init ∧ s.mod.hbmTrained = true ∧ s.mod.mapBuilt = false ∧ s.seats = []) ∧
    (∃ (s : State), (s.mod.state ≠ .init ∨ s.mod.hbmTrained = false ∨ s.mod.mapBuilt = true)) ∧
    (∃ (s : State), s.mod.state = .init ∧ s.mod.mapBuilt = true ∧ s.mod.dawnDone = false ∧ s.refclkSteady = true) ∧
    (∃ (s : State), (s.mod.state ≠ .init ∨ s.mod.mapBuilt = false ∨ s.mod.dawnDone = true ∨ s.refclkSteady = false)) ∧
    (∃ (s : State), s.mod.dawnDone = true ∧ (s.clk.lockstep = false ∨ s.clk.realignWanted = true) ∧ s.clk.holdover = false ∧
     s.clk.tcHalf = false ∧ s.clk.ncHalf = false ∧ s.pins.refclkOk = true ∧ (∀ n x, (n, x) ∈ s.seats → x.running = none ∧
     (x.turnBegun = false ∨ x.launches = []))) ∧
    (∃ (s : State), (s.mod.dawnDone = false ∨ (s.clk.lockstep = true ∧ s.clk.realignWanted = false) ∨ s.nominal = false ∨ (∃ n x,
     (n, x) ∈ s.seats ∧ (x.running.isSome = true ∨ (x.turnBegun = true ∧ x.launches ≠ []))))) ∧
    (∃ (s : State) (good : List Nat) (i : Nat) (b : FlashBank), s.mod.state = .init ∧ s.mod.flashDone = false ∧ bankWins s good i b) ∧
    (∃ (s : State) (good : List Nat), s.mod.state = .init ∧ s.mod.flashDone = false ∧ (∀ i b, (i = 0 ∨ i = 1) →
     ¬ bankValid s good i b)) ∧
    (∃ (s : State), (s.mod.state ≠ .init ∨ s.mod.flashDone = true)) ∧
    (∃ (s : State), s.mod.refereeRuns = true ∧ s.mod.failedPackage = false ∧ (s.mod.state = .init ∨ s.mod.state = .ready)) ∧
    (∃ (s : State), (s.mod.refereeRuns = false ∨ s.mod.failedPackage = true ∨ (s.mod.state ≠ .init ∧ s.mod.state ≠ .ready))) ∧
    (∃ (s : State), s.mod.state = .init ∧ s.mod.failedPackage = false ∧ s.readyDue = true) ∧
    (∃ (s : State), (s.mod.state ≠ .init ∨ s.mod.failedPackage = true ∨ s.readyDue = false)) :=
  ⟨⟨{ live with mod := { state := .boot, verified := true } }, by decide, by decide⟩,
   ⟨live, by decide⟩,
   ⟨inState .init, by decide, by decide⟩,
   ⟨live, by decide⟩,
   ⟨{ live with mod := { state := .init, hbmTrained := true } }, by decide, by decide, by decide, by decide⟩,
   ⟨live, by decide⟩,
   ⟨{ live with mod := { state := .init, mapBuilt := true } }, by decide, by decide, by decide, by decide⟩,
   ⟨live, by decide⟩,
   ⟨{ live with clk := { lockstep := true, realignWanted := true } }, by decide, by decide, by decide, by decide, by decide,
    by decide, (fun _ _ h => nomatch h)⟩,
   ⟨.reset, (.inl rfl)⟩,
   ⟨inState .init, [0], 0, _, by decide, by decide, (⟨⟨List.mem_cons_self, rfl, by decide +kernel⟩, .inl ⟨rfl,
    fun _ h => nomatch h.2.1⟩⟩)⟩,
   ⟨inState .init, [], by decide, by decide, (fun _ _ _ h => nomatch h.1)⟩,
   ⟨live, by decide⟩,
   ⟨live, by decide, by decide, by decide⟩,
   ⟨.reset, by decide⟩,
   ⟨{ live with mod := { live.mod with state := .init }, units := { hbmStacks := (List.range 32).map (fun k => (k, { trained := true })) } },
    by decide, by decide, by decide⟩,
   ⟨live, by decide⟩⟩

theorem witness_SelfTestBuildsTheDefaultMap :
    ∃ (s : State), s.mod.state = .init ∧ s.mod.hbmTrained = true ∧ s.mod.mapBuilt = false ∧ s.mod.degraded = false ∧
    s.units.ptiles = [] ∧ s.units.pclusters = [] ∧ s.units.displaced = [] :=
  ⟨{ live with mod := { state := .init, hbmTrained := true } }, by decide, by decide, by decide, by decide, by decide, by decide,
   by decide⟩

theorem witness_ClocksLeaveAndRejoinLockstep :
    (∃ (s : State) (island : Nat) (cycles : Nat), s.mod.dawnDone = true ∧ island < 200 ∧ 1 < cycles) ∧
    (∃ (s : State) (island : Nat), s.mod.dawnDone = true ∧ island < 200) ∧
    (∃ (s : State) (island : Nat) (cycles : Nat), (s.mod.dawnDone = false ∨ 200 ≤ island ∨ cycles = 0)) ∧
    (∃ (s : State), s.mod.dawnDone = true) ∧
    (∃ (s : State), s.mod.dawnDone = false) ∧
    (∃ (s : State), s.mod.dawnDone = true) ∧
    (∃ (s : State), s.mod.dawnDone = false) ∧
    (∃ (s : State) (w : Nat), s.mod.dawnDone = true ∧ s.clk.powerStep = false ∧ 2400 < w) ∧
    (∃ (s : State) (w : Nat), (w ≤ 2400 ∨ s.clk.powerStep = true ∨ s.mod.dawnDone = false)) ∧
    (∃ (s : State) (power : Bool) (heat : Bool), (power = true ↔ s.clk.powerStep = true ∧ 2000 ≤ s.pwr.avg10ms) ∧
     (heat = true ↔ s.clk.ncHalf = true ∧ ∃ i b, i < 80 ∧ (s.mon (0x1000 + i)).warnHi = some b ∧ b ≤ (s.mon (0x1000 + i)).reading)) ∧
    (∃ (s : State), s.pins.refclkOk = false) ∧
    (∃ (s : State), s.pins.refclkOk = true) ∧
    (∃ (s : State) (low : List Nat), low ≠ [] ∧ s.mod.dawnDone = true) ∧
    (∃ (s : State) (low : List Nat), (low = [] ∨ s.mod.dawnDone = false)) :=
  ⟨⟨live, 199, 2, by decide, by decide, by decide⟩,
   ⟨live, 199, by decide, by decide⟩,
   ⟨live, 0, 0, by decide⟩,
   ⟨live, by decide⟩,
   ⟨.reset, by decide⟩,
   ⟨live, by decide⟩,
   ⟨.reset, by decide⟩,
   ⟨live, 4096, by decide, by decide, by decide⟩,
   ⟨live, 0, by decide⟩,
   ⟨live, false, false, by decide, (by
    have h : ∀ j, j < 80 → (match (live.mon (0x1000 + j)).warnHi with | some b => decide ((live.mon (0x1000 + j)).reading < b) | none => true) = true := by
      decide
    constructor
    · intro e; cases e
    · intro e; cases e.1)⟩,
   ⟨{ live with pins := { live.pins with refclkOk := false } }, by decide⟩,
   ⟨live, by decide⟩,
   ⟨live, [3], by decide, by decide⟩,
   ⟨.reset, [0], by decide⟩⟩

theorem witness_PinsAndPowerCapAct :
    (∃ (s : State) (cap : Nat), (cap = (if s.pwr.throttleSeen = true ∨ s.pins.throttleN = false then s.ident.floor else s.pwr.cap))) ∧
    (∃ (s : State), ∃ id, ∃ (c : Cmd), s.canRun id 0x0807 c ∧ s.ident.floor ≤ chArg c.packet ∧ chArg c.packet ≤ 2000) ∧
    (∃ (s : State), ∃ id, ∃ (c : Cmd), s.canRun id 0x0807 c ∧ (chArg c.packet < s.ident.floor ∨ 2000 < chArg c.packet)) :=
  ⟨⟨live, _, (rfl)⟩,
   ⟨asked live 0x0807 0 2000 [], 0, _, ⟨_, ⟨rfl, rfl, rfl, rfl, by decide⟩, by decide, by decide +kernel⟩, by decide, by decide⟩,
   ⟨asked live 0x0807 0 2001 [], 0, _, ⟨_, ⟨rfl, rfl, rfl, rfl, by decide⟩, by decide, by decide +kernel⟩, by decide⟩⟩

theorem witness_MonitorsAndEnergyAct :
    (∃ (s : State) (id : Nat) (v : Int), s.mod.hold = none ∧ s.mod.state ≠ .reset ∧ s.mod.powered = true ∧ monitorExists id = true ∧
     tripped { id := id, reading := some v } = false ∧
     (monNext id { s.mon id with reading := v } ≠ 2 ∨ monKind id = .inlet ∨ monKind id = .outlet) ∧ (monKind id = .hbm →
     (s.mon id).failed = true ∨ (v ≤ 760 ∧ (v < 720 → (s.stack (id % 4096 - 80)).hot = false)))) ∧
    (∃ (s : State) (id : Nat) (v : Int), s.mod.hold = none ∧ s.mod.state ≠ .reset ∧ s.mod.powered = true ∧ monitorExists id = true ∧
     monKind id = .die ∧ v ≤ 920 ∧ monNext id { s.mon id with reading := v } = 2) ∧
    (∃ (s : State) (id : Nat) (v : Int) (st : Nat), s.mod.hold = none ∧ s.mod.state ≠ .reset ∧ s.mod.powered = true ∧
     monitorExists id = true ∧ monKind id = .hbm ∧ (s.mon id).failed = false ∧ st = id % 4096 - 80 ∧ 760 < v ∧ v ≤ 880 ∧
     (s.stack st).demand = false) ∧
    (∃ (s : State) (id : Nat) (v : Int) (st : Nat), s.mod.hold = none ∧ s.mod.state ≠ .reset ∧ s.mod.powered = true ∧
     monitorExists id = true ∧ monKind id = .hbm ∧ (s.mon id).failed = false ∧ st = id % 4096 - 80 ∧ ((v < 720 ∧
     (s.stack st).hot = true) ∨ (760 < v ∧ v ≤ 880 ∧ (s.stack st).demand = true))) ∧
    (∃ (s : State) (id : Nat) (v : Int), s.mod.hold = none ∧ s.mod.state ≠ .reset ∧ s.mod.powered = true ∧ monitorExists id = true ∧
     monKind id = .ring ∧ id % 4096 < 128 ∧ (s.mon id).state ≠ 2 ∧ monNext id { s.mon id with reading := v } = 2) ∧
    (∃ (s : State) (id : Nat) (v : Int), s.mod.hold = none ∧ s.mod.state ≠ .reset ∧ s.mod.powered = true ∧ monitorExists id = true ∧
     (tripped { id := id, reading := some v } = true ∨ ((monKind id = .vin ∨ monKind id = .rail) ∧
     monNext id { s.mon id with reading := v } = 2))) ∧
    (∃ (s : State) (h : HoldInfo) (id : Nat), s.mod.hold = some h ∧ monitorExists id = true) ∧
    (∃ (s : State), s.mod.hold = none ∧ (s.mod.state = .reset ∨ s.mod.powered = false)) ∧
    (∃ (s : State) (input : Nat) (stat : Nat) (dev : Nat) (total : Nat) (e : Nat) (act : List (Nat × Nat)) (dyn : Nat →
     Nat) (held : Seat → Nat), s.mod.refereeRuns = true ∧ total = s.seats.foldl (fun a ks => a + activityOf act ks.1) dev ∧
     e = input - stat ∧ (∀ n,
     dyn n = if total = 0 then activityOf act n / 1000 else if 2000 * e < total then activityOf act n / 2000 else if 2 * total < 1000 * e then 2 * activityOf act n / 1000 else e * activityOf act n / total) ∧
     (∀ x, held x = if staticShare x then stat * (clustersOf x.record).length / s.ident.lclusters else 0)) ∧
    (∃ (s : State), s.mod.refereeRuns = false) :=
  ⟨⟨live, 4096, 0, by decide, by decide, by decide, by decide, by decide, by decide, by decide⟩,
   ⟨live, 0x1000, 920, by decide, by decide, by decide, by decide, by decide, by decide, by decide⟩,
   ⟨live, 0x1050, 880, 0, by decide, by decide, by decide, by decide, by decide, by decide, by decide, by decide, by decide,
    by decide⟩,
   ⟨{ live with units := { hbmStacks := [(0, { hot := true })] } }, 0x1050, 719, 0, by decide, by decide, by decide, by decide,
    by decide, by decide, by decide, by decide⟩,
   ⟨live, 0x3000, 919, by decide, by decide, by decide, by decide, by decide, by decide, by decide, by decide⟩,
   ⟨live, 0x1000, 921, by decide, by decide, by decide, by decide, by decide⟩,
   ⟨{ live with mod := { live.mod with hold := some {} } }, {}, 0x1000, by decide, by decide⟩,
   ⟨.reset, by decide, by decide⟩,
   ⟨seated goodSeat, 1000, 100, 100, _, _, [(1, 5)], _, _, by decide, (rfl), (rfl), (fun _ => rfl), (fun _ => rfl)⟩,
   ⟨.reset, by decide⟩⟩

theorem witness_UnitsAreFencedAndWithdrawn :
    (∃ (s : State) (pt : Nat), s.mod.mapBuilt = true ∧ pt < 1024 ∧ (s.ptile pt).fence = none) ∧
    (∃ (s : State) (pt : Nat), (s.mod.mapBuilt = false ∨ 1024 ≤ pt ∨ (s.ptile pt).fence.isSome = true)) ∧
    (∃ (s : State) (pc : Nat), s.mod.mapBuilt = true ∧ pc < 128 ∧ (s.pcluster pc).fence = none) ∧
    (∃ (s : State) (pc : Nat), (s.mod.mapBuilt = false ∨ 128 ≤ pc ∨ (s.pcluster pc).fence.isSome = true)) ∧
    (∃ (s : State) (a : Nat) (b : Nat), s.mod.mapBuilt = true ∧ s.mod.refereeRuns = true ∧ a < 200 ∧ b < 200) ∧
    (∃ (s : State) (x : Nat), (s.mod.mapBuilt = false ∨ 200 ≤ x / 256 ∨ 200 ≤ x % 256)) ∧
    (∃ (s : State) (st : Nat), st < 32 ∧ (s.stack st).withdrawn = false) ∧
    (∃ (s : State) (st : Nat), (32 ≤ st ∨ (s.stack st).withdrawn = true)) ∧
    (∃ (s : State) (r : Nat), r < 16 ∧ r ∉ s.units.withdrawnRegions) ∧
    (∃ (s : State) (r : Nat), (16 ≤ r ∨ r ∈ s.units.withdrawnRegions)) ∧
    (∃ (s : State) (r : Nat), r < 16 ∧ r ∉ s.units.lostDruinds) ∧
    (∃ (s : State) (r : Nat), (16 ≤ r ∨ r ∈ s.units.lostDruinds)) ∧
    (∃ (s : State), s.mod.failedPackage = false ∧ s.mod.refereeRuns = true) ∧
    (∃ (s : State), (s.mod.failedPackage = true ∨ s.mod.refereeRuns = false)) :=
  ⟨⟨live, 1023, by decide, by decide, by decide⟩,
   ⟨live, 4096, by decide⟩,
   ⟨live, 127, by decide, by decide, by decide⟩,
   ⟨live, 4096, by decide⟩,
   ⟨live, 0, 0, by decide, by decide, by decide, by decide⟩,
   ⟨.reset, 0, by decide⟩,
   ⟨live, 31, by decide, by decide⟩,
   ⟨live, 4096, by decide⟩,
   ⟨live, 15, by decide, by decide⟩,
   ⟨live, 4096, by decide⟩,
   ⟨live, 15, by decide, by decide⟩,
   ⟨live, 4096, by decide⟩,
   ⟨live, by decide, by decide⟩,
   ⟨.reset, by decide⟩⟩

theorem witness_SelfTestsDecideReturn :
    (∃ (s : State) (pt : Nat), (s.ptile pt).fence.isSome = true ∧
     (selfTested (s.ptile pt).fence ∨ ((s.ptile pt).fence = some .cluster ∧ selfTested (s.pcluster (pt / 8)).fence)) ∧
     (s.ptile pt).testing = false ∧ (s.ptile pt).passed = false ∧ (s.ptile pt).retired = false) ∧
    (∃ (s : State) (pt : Nat),
     ((s.ptile pt).testing = true ∨ (s.ptile pt).passed = true ∨ (s.ptile pt).retired = true ∨ ¬ (selfTested (s.ptile pt).fence ∨ ((s.ptile pt).fence = some .cluster ∧
     selfTested (s.pcluster (pt / 8)).fence)))) ∧
    (∃ (s : State) (pt : Nat), (s.ptile pt).testing = true) ∧
    (∃ (s : State) (pt : Nat) (n : Nat) (x : Seat), (s.ptile pt).testing = true ∧ (n, x) ∈ s.seats ∧ x.state = .running) ∧
    (∃ (s : State) (pt : Nat), pt < 1024 ∧ (s.ptile pt).testing = true ∧ (∀ n x, (n, x) ∈ s.seats → x.state ≠ .running)) ∧
    (∃ (s : State) (pt : Nat), (s.ptile pt).testing = false) :=
  ⟨⟨{ live with units := { ptiles := [(5, { fence := some .threshold })] } }, 5, by decide, (.inl (.inl rfl)), by decide,
    by decide, by decide⟩,
   ⟨{ live with units := { ptiles := [(5, { fence := some .threshold, testing := true })] } }, 5, (.inl rfl)⟩,
   ⟨{ live with units := { ptiles := [(5, { fence := some .command, testing := true })] } }, 5, by decide⟩,
   ⟨{ withSeat { state := .running } with units := { ptiles := [(5, { fence := some .command, testing := true })] } }, 5, 1,
    { state := .running }, by decide, by decide, by decide⟩,
   ⟨{ live with units := { ptiles := [(5, { fence := some .command, testing := true })] } }, 5, by decide, by decide,
    (fun _ _ h => nomatch h)⟩,
   ⟨live, 0, by decide⟩⟩

theorem witness_KernelsBeginAndEnd :
    (∃ (s : State) (u : State) (n : Nat) (x : Seat) (y : Seat) (l : Launch) (rest : List Launch) (p : Program), s.seat? n = some x ∧
     x.launches = l :: rest ∧ x.program = some p ∧ (x.state = .running ∨ x.state = .preempted) ∧ x.running = none ∧
     x.turnEnded = false ∧ x.drain = none ∧ x.preempt.phase = .none ∧ (x.turnBegun = true ∨ s.realignDue = false) ∧
     u = (if x.preempt.marked = true then s.dispatch else s) ∧ u.seat? n = some y ∧ y.preempt.phase = .none) ∧
    (∃ (s : State) (u : State) (n : Nat) (x : Seat) (y : Seat), s.seat? n = some x ∧ x.launches ≠ [] ∧ x.program.isSome = true ∧
     (x.state = .running ∨ x.state = .preempted) ∧ x.running = none ∧ x.turnEnded = false ∧ x.drain = none ∧
     (x.preempt.phase ≠ .none ∨ ((x.turnBegun = true ∨ s.realignDue = false) ∧ x.preempt.marked = true)) ∧ u = s.dispatch ∧
     u.seat? n = some y ∧ y.preempt.phase ≠ .none) ∧
    (∃ (s : State) (n : Nat), (∀ x, s.seat? n = some x → x.launches = [] ∨ x.program = none ∨ (x.state ≠ .running ∧
     x.state ≠ .preempted) ∨ x.running.isSome = true ∨ x.turnEnded = true ∨ x.drain.isSome = true ∨ (x.preempt.phase = .none ∧
     x.turnBegun = false ∧ s.realignDue = true))) ∧
    (∃ (s : State) (n : Nat) (x : Seat) (r : Running), s.seat? n = some x ∧ x.running = some r ∧ kernelOver s n x r ∧
     r.status = none) ∧
    (∃ (s : State) (n : Nat) (x : Seat) (r : Running) (st : Status), s.seat? n = some x ∧ x.running = some r ∧ kernelOver s n x r ∧
     r.status = some st) ∧
    (∃ (s : State) (n : Nat), (∀ x r, s.seat? n = some x → x.running = some r → ¬ kernelOver s n x r)) ∧
    (∃ (s : State) (n : Nat) (x : Seat), s.seat? n = some x ∧ x.turnEnded = true ∧ x.running = none ∧ x.preempt.phase = .none ∧
     s.routing n = false) ∧
    (∃ (s : State) (n : Nat), (s.routing n = true ∨ ∀ x, s.seat? n = some x →
     x.turnEnded = false ∨ x.running.isSome = true ∨ x.preempt.phase ≠ .none)) ∧
    (∃ (s : State) (n : Nat), s.routing n = true) :=
  ⟨⟨_, _, 1, _, _, _, _, _,
    (show (withSeat { state := .running, launches := [⟨0, 0, false, true⟩], program := some ⟨0, 0, [(0, 0)], [], []⟩ }).seat? 1 = _ from rfl),
    (rfl), (rfl), (.inl rfl), by decide, by decide, by decide, by decide, by decide, (rfl), (rfl), by decide⟩,
   ⟨_, _, 1, _, _,
    (show (withSeat { state := .preempted, preempt := { phase := .saved }, launches := [⟨0, 0, false, true⟩], program := some ⟨0, 0, [(0, 0)], [], []⟩ }).seat? 1 = _ from rfl),
    (by decide), by decide, by decide, by decide, by decide, by decide, (.inl (by decide)), (rfl), (rfl), by decide⟩,
   ⟨live, 0, by decide⟩,
   ⟨withSeat { state := .running, running := some ⟨⟨0, 0, false, true⟩, [], none, none, true⟩ }, 1, _, _, rfl, rfl,
    (fun _ h => nomatch h), by decide⟩,
   ⟨withSeat { state := .running, running := some ⟨⟨0, 0, false, true⟩, [], none, some .timeout, true⟩ }, 1, _, _, _, rfl, rfl,
    (fun _ h => nomatch h), rfl⟩,
   ⟨live, 1, (fun _ _ h => nomatch h)⟩,
   ⟨withSeat { state := .running, turnEnded := true }, 1, _, rfl, by decide, by decide, by decide, by decide⟩,
   ⟨live, 0, by decide⟩,
   ⟨{ live with druind := { runs := [(0, routeOf 1 [0] [])] } }, 1, by decide⟩⟩

theorem witness_SharedSeatsTakeTurnsAndDrain :
    (∃ (s : State) (n : Nat) (m : Nat) (x : Seat) (z : Seat), s.seat? n = some x ∧ x.preempt.phase = .none ∧ (m, z) ∈ s.seats ∧
     m ≠ n ∧ conflict x z = true ∧ recPriority z.record = recPriority x.record ∧ z.preempt.phase = .saved ∧ s.wants m z = true) ∧
    (∃ (s : State) (n : Nat), (∀ x m z, s.seat? n = some x → (m, z) ∈ s.seats →
     x.preempt.phase ≠ .none ∨ m = n ∨ conflict x z = false ∨ recPriority z.record ≠ recPriority x.record ∨ z.preempt.phase ≠ .saved ∨ s.wants m z = false)) ∧
    (∃ (s : State) (n : Nat) (x : Seat), s.seat? n = some x ∧ x.preempt.phase = .saving) ∧
    (∃ (s : State) (n : Nat), (∀ x, s.seat? n = some x → x.preempt.phase ≠ .saving)) ∧
    (∃ (s : State) (n : Nat) (x : Seat), s.seat? n = some x ∧ x.preempt.phase = .restoring) ∧
    (∃ (s : State) (n : Nat), (∀ x, s.seat? n = some x → x.preempt.phase ≠ .restoring)) ∧
    (∃ (s : State) (n : Nat) (x : Seat) (d : Drain), s.seat? n = some x ∧ x.drain = some d ∧ d.kind = .destroy ∧ s.drained n = true) ∧
    (∃ (s : State) (n : Nat) (x : Seat) (d : Drain), s.seat? n = some x ∧ x.drain = some d ∧ d.kind = .teardown ∧ s.drained n = true) ∧
    (∃ (s : State) (n : Nat), (∀ x, s.seat? n = some x → x.drain = none ∨ s.drained n = false)) ∧
    (∃ (s : State) (n : Nat) (x : Seat) (d : Drain), s.seat? n = some x ∧ x.drain = some d ∧ d.kind = .destroy) ∧
    (∃ (s : State) (n : Nat) (x : Seat) (d : Drain), s.seat? n = some x ∧ x.drain = some d ∧ d.kind = .teardown) ∧
    (∃ (s : State) (n : Nat), (∀ x, s.seat? n = some x → x.drain = none)) :=
  ⟨⟨{ live with seats := [(1, runner), (2, waiter)] }, 1, 2, runner, waiter, by decide, by decide, by decide, by decide, by decide,
    by decide, by decide, by decide⟩,
   ⟨live, 1, (fun _ _ _ h => nomatch h)⟩,
   ⟨withSeat { state := .running, preempt := { phase := .saving } }, 1, _, rfl, by decide⟩,
   ⟨live, 0, by decide⟩,
   ⟨withSeat { state := .preempted, preempt := { phase := .restoring } }, 1, _, rfl, by decide⟩,
   ⟨live, 0, by decide⟩,
   ⟨withSeat { state := .draining, drain := some ⟨.destroy, 0, none, false⟩ }, 1, _, _, rfl, rfl, by decide, by decide⟩,
   ⟨withSeat { state := .draining, drain := some ⟨.teardown, 5, none, false⟩ }, 1, _, _, rfl, rfl, by decide, by decide⟩,
   ⟨live, 0, by decide⟩,
   ⟨withSeat { state := .draining, drain := some ⟨.destroy, 5, none, false⟩ }, 1, _, _, rfl, rfl, by decide⟩,
   ⟨withSeat { state := .draining, drain := some ⟨.teardown, 5, none, false⟩ }, 1, _, _, rfl, rfl, by decide⟩,
   ⟨live, 0, by decide⟩⟩

theorem witness_RefusedCommandsOnlyComplete :
    (∃ (s : State) (i : Instr) (id : Nat) (code : Nat) (c : Cmd) (r : Opcode), opcodeOf i = some (id, code) ∧
     s.mayStart id code c r ∧ r.seat = true ∧ seatAllows r (s.seat? (chSeat c.packet)) = false) ∧
    (∃ (s : State) (i : Instr) (id : Nat) (code : Nat) (c : Cmd) (r : Opcode), opcodeOf i = some (id, code) ∧
     s.mayStart id code c r ∧ (r.seat = true → seatAllows r (s.seat? (chSeat c.packet)) = true) ∧ lengthOk r c.packet = false ∧
     (code = 0x0209 → ∀ x, s.seat? (chSeat c.packet) = some x → x.preempt.phase = .none)) :=
  ⟨⟨asked live 0x0204 1 0 [], .seatQuery 0, 0, 0x0204, _, _, (rfl), ⟨rfl, rfl, rfl, rfl, by decide⟩, by decide, by decide⟩,
   ⟨asked live 0x0101 0 1 [], .infoIdentity 0, 0, 0x0101, _, _, (rfl), ⟨rfl, rfl, rfl, rfl, by decide⟩, by decide, by decide,
    (fun h => absurd h (by decide))⟩⟩

theorem witness_CompletionsGoToTheirIssuer :
    (∃ (s : State) (t : State) (id : Nat) (c : Cmd) (fn : Nat) (q : Nat) (r : Ring) (st : Status) (result : Bytes) (resp : Bytes),
     s.cmd? id = some c ∧ c.issuer = .ring fn q ∧ c.discard = false ∧ q < (s.fn fn).rings.length ∧ r = s.ring fn q ∧
     t = s.complete id st result resp) ∧
    (∃ (s : State) (id : Nat) (c : Cmd) (fn : Nat) (q : Nat), s.cmd? id = some c ∧ c.issuer = .ring fn q ∧ c.discard = true) ∧
    (∃ (s : State) (t : State) (id : Nat) (c : Cmd) (eid : Nat) (st : Status) (result : Bytes) (resp : Bytes), s.cmd? id = some c ∧
     (c.issuer = .mgmt (.i2c eid) ∨ ∃ r, c.issuer = .mgmt (.vdm r eid)) ∧ c.discard = false ∧ t = s.complete id st result resp) ∧
    (∃ (s : State) (t : State) (id : Nat) (c : Cmd) (node : Nat) (p : Nat) (st : Status) (result : Bytes) (resp : Bytes) (reply : Bytes),
     s.cmd? id = some c ∧ c.issuer = .mgmt (.fabric node p) ∧ c.discard = false ∧ p < 24 ∧ (s.port p).state = .up ∧
     reply = entryBytes c.packet st false 0 0 resp.length result ++ resp.take 224 ∧ t = s.complete id st result resp) ∧
    (∃ (s : State) (id : Nat) (c : Cmd) (via : Mgmt), s.cmd? id = some c ∧ c.issuer = .mgmt via ∧ c.discard = true) :=
  ⟨⟨{ live with host := { cmds := [{ id := 0, issuer := .ring 0 0, packet := packet 0x0101 0 0 [], sqHead := 0, begun := false, discard := false, acceptedAt := 0 }], nextCmd := 1, functions := [(0, { rings := [ring64] })] } },
    _, 0, _, _, _, _, .success, [], [], rfl, rfl, by decide, by decide, (rfl), (rfl)⟩,
   ⟨{ live with host := { cmds := [{ id := 0, issuer := .ring 0 0, packet := packet 0x0101 0 0 [], sqHead := 0, begun := false, discard := true, acceptedAt := 0 }], nextCmd := 1, functions := [(0, { rings := [ring64] })] } },
    0, _, 0, 0, rfl, by decide, by decide⟩,
   ⟨{ live with host := { cmds := [{ id := 0, issuer := .mgmt (.i2c 9), packet := packet 0x0101 0 0 [], sqHead := 0, begun := false, discard := false, acceptedAt := 0 }], nextCmd := 1 } },
    _, 0, _, 9, .success, [], [], rfl, (.inl rfl), by decide, (rfl)⟩,
   ⟨{ live with host := { cmds := [{ id := 0, issuer := .mgmt (.fabric 3 2), packet := packet 0x0101 0 0 [], sqHead := 0, begun := false, discard := false, acceptedAt := 0 }], nextCmd := 1 }, fab := { live.fab with ports := [(2, { state := .up })] } },
    _, 0, _, 3, 2, .success, [], [], _, rfl, by decide, by decide, by decide, by decide, (rfl), (rfl)⟩,
   ⟨{ live with host := { cmds := [{ id := 0, issuer := .mgmt (.i2c 9), packet := packet 0x0101 0 0 [], sqHead := 0, begun := false, discard := true, acceptedAt := 0 }], nextCmd := 1 } },
    0, _, .i2c 9, rfl, by decide, by decide⟩⟩

theorem witness_QueriesAnswer :
    (∃ (s : State), ∃ id, ∃ (c : Cmd), s.canRun id 0x0101 c) ∧
    (∃ (s : State), ∃ id, ∃ (c : Cmd), s.canRun id 0x0102 c) ∧
    (∃ (s : State), ∃ id, ∃ (c : Cmd), s.canRun id 0x0103 c) ∧
    (∃ (s : State), ∃ id, ∃ (c : Cmd), s.canRun id 0x0104 c) ∧
    (∃ (s : State), ∃ id, ∃ (c : Cmd), s.canRun id 0x0105 c) ∧
    (∃ (s : State), ∃ id, ∃ (c : Cmd), ∃ (x : Seat), s.canRun id 0x0204 c ∧ s.seat? (chSeat c.packet) = some x) ∧
    (∃ (s : State), ∃ id, ∃ (c : Cmd), ∃ (x : Seat), s.canRun id 0x0302 c ∧ s.seat? (chSeat c.packet) = some x) ∧
    (∃ (s : State), ∃ id, ∃ (c : Cmd), s.canRun id 0x0505 c) ∧
    (∃ (s : State), ∃ id, ∃ (c : Cmd), s.canRun id 0x0609 c) ∧
    (∃ (s : State), ∃ id, ∃ (c : Cmd), s.canRun id 0x0805 c) :=
  ⟨⟨asked live 0x101 0 0 [], 0, _, ⟨_, ⟨rfl, rfl, rfl, rfl, by decide⟩, by decide, by decide +kernel⟩⟩,
   ⟨asked live 0x102 0 0 [], 0, _, ⟨_, ⟨rfl, rfl, rfl, rfl, by decide⟩, by decide, by decide +kernel⟩⟩,
   ⟨asked live 0x103 0 0 [], 0, _, ⟨_, ⟨rfl, rfl, rfl, rfl, by decide⟩, by decide, by decide +kernel⟩⟩,
   ⟨asked live 0x104 0 0 [], 0, _, ⟨_, ⟨rfl, rfl, rfl, rfl, by decide⟩, by decide, by decide +kernel⟩⟩,
   ⟨asked live 0x105 0 0 [], 0, _, ⟨_, ⟨rfl, rfl, rfl, rfl, by decide⟩, by decide, by decide +kernel⟩⟩,
   ⟨asked (seated goodSeat) 0x0204 1 0 [], 0, _, _, ⟨_, ⟨rfl, rfl, rfl, rfl, by decide⟩, by decide, by decide +kernel⟩, rfl⟩,
   ⟨asked (seated goodSeat) 0x0302 1 5 [], 0, _, _, ⟨_, ⟨rfl, rfl, rfl, rfl, by decide⟩, by decide, by decide +kernel⟩, rfl⟩,
   ⟨asked live 0x0505 0 0 [], 0, _, ⟨_, ⟨rfl, rfl, rfl, rfl, by decide⟩, by decide, by decide +kernel⟩⟩,
   ⟨asked live 0x0609 0 0 [], 0, _, ⟨_, ⟨rfl, rfl, rfl, rfl, by decide⟩, by decide, by decide +kernel⟩⟩,
   ⟨asked live 0x0805 0 0 [], 0, _, ⟨_, ⟨rfl, rfl, rfl, rfl, by decide⟩, by decide, by decide +kernel⟩⟩⟩

theorem witness_SeatsAreCreatedAndSet :
    (∃ (s : State) (id : Nat) (n : Nat) (c : Cmd) (r : Bytes), s.canRun id 0x0201 c ∧ n = chSeat c.packet ∧ r = chPayload c.packet ∧
     byteAt r 0 = n ∧ s.mod.admitted = true ∧ firstFail (s.recordChecks n r (s.fnPresent n && (s.seat? n).isNone)) = none) ∧
    (∃ (s : State) (id : Nat) (c : Cmd), s.canRun id 0x0201 c ∧ byteAt (chPayload c.packet) 0 ≠ chSeat c.packet) ∧
    (∃ (s : State) (id : Nat) (c : Cmd), s.canRun id 0x0201 c ∧ byteAt (chPayload c.packet) 0 = chSeat c.packet ∧
     s.mod.admitted = false) ∧
    (∃ (s : State) (id : Nat) (c : Cmd) (st : Status), s.canRun id 0x0201 c ∧ byteAt (chPayload c.packet) 0 = chSeat c.packet ∧
     s.mod.admitted = true ∧
     firstFail (s.recordChecks (chSeat c.packet) (chPayload c.packet) (s.fnPresent (chSeat c.packet) && (s.seat? (chSeat c.packet)).isNone)) = some st) ∧
    (∃ (s : State), ∃ id, ∃ (c : Cmd), ∃ (x : Seat), s.canRun id 0x0205 c ∧ s.seat? (chSeat c.packet) = some x) ∧
    (∃ (s : State), ∃ id, ∃ (c : Cmd), ∃ (x : Seat), s.canRun id 0x0206 c ∧ s.seat? (chSeat c.packet) = some x) ∧
    (∃ (s : State), ∃ id, ∃ (c : Cmd), ∃ (x : Seat), ∃ (a : Areas), s.canRun id 0x0207 c ∧ s.seat? (chSeat c.packet) = some x ∧
     a = areasNamed (chPayload c.packet) ∧ zeros (chPayload c.packet) 28 32 = true ∧ s.areasOk x a = true ∧ x.turnBegun = true) ∧
    (∃ (s : State), ∃ id, ∃ (c : Cmd), ∃ (x : Seat), ∃ (a : Areas), s.canRun id 0x0207 c ∧ s.seat? (chSeat c.packet) = some x ∧
     a = areasNamed (chPayload c.packet) ∧ zeros (chPayload c.packet) 28 32 = true ∧ s.areasOk x a = true ∧ x.turnBegun = false) ∧
    (∃ (s : State), ∃ id, ∃ (c : Cmd), ∃ (x : Seat), s.canRun id 0x0207 c ∧ s.seat? (chSeat c.packet) = some x ∧
     zeros (chPayload c.packet) 28 32 = false) ∧
    (∃ (s : State), ∃ id, ∃ (c : Cmd), ∃ (x : Seat), s.canRun id 0x0207 c ∧ s.seat? (chSeat c.packet) = some x ∧
     zeros (chPayload c.packet) 28 32 = true ∧ s.areasOk x (areasNamed (chPayload c.packet)) = false) ∧
    (∃ (s : State), ∃ id, ∃ (c : Cmd), ∃ (x : Seat), ∃ (first : Nat), ∃ (count : Nat), s.canRun id 0x020A c ∧
     s.seat? (chSeat c.packet) = some x ∧ first = chArg c.packet % 2 ^ 16 ∧ count = chArg c.packet / 2 ^ 16 % 2 ^ 16 ∧
     (count = 0 ∨ (first + count ≤ 4096 ∧ ∀ i, i < count → hasNiCtr x.record (first + i) = true)) ∧ (∀ k e, (k, e) ∈ s.ni.triggers →
     k / 4096 = chSeat c.packet → e.running = true ∨ e.ctr < first ∨ first + count ≤ e.ctr)) ∧
    (∃ (s : State), ∃ id, ∃ (c : Cmd), ∃ (x : Seat), ∃ (first : Nat), ∃ (count : Nat), s.canRun id 0x020A c ∧
     s.seat? (chSeat c.packet) = some x ∧ first = chArg c.packet % 2 ^ 16 ∧ count = chArg c.packet / 2 ^ 16 % 2 ^ 16 ∧ count ≠ 0 ∧
     (4096 < first + count ∨ ∃ i, i < count ∧ hasNiCtr x.record (first + i) = false)) ∧
    (∃ (s : State), ∃ id, ∃ (c : Cmd), ∃ (x : Seat), ∃ (first : Nat), ∃ (count : Nat), ∃ k, ∃ e, s.canRun id 0x020A c ∧
     s.seat? (chSeat c.packet) = some x ∧ first = chArg c.packet % 2 ^ 16 ∧ count = chArg c.packet / 2 ^ 16 % 2 ^ 16 ∧
     (count = 0 ∨ (first + count ≤ 4096 ∧ ∀ i, i < count → hasNiCtr x.record (first + i) = true)) ∧ (k, e) ∈ s.ni.triggers ∧
     k / 4096 = chSeat c.packet ∧ e.running = false ∧ first ≤ e.ctr ∧ e.ctr < first + count) ∧
    (∃ (s : State), ∃ id, ∃ (c : Cmd), s.canRun id 0x020B c ∧ zeros (chPayload c.packet) 0 16 = true ∧
     zeros (chPayload c.packet) 52 64 = true ∧ s.allotOk (chArg c.packet) (allotOf (chPayload c.packet)) = true ∧
     allotFits (allotOf (chPayload c.packet)) ((s.portSeats (chArg c.packet)).map (fun ks => ks.2.record)) = true ∧
     s.extentsOf (chArg c.packet) ≤ (allotOf (chPayload c.packet)).extents) ∧
    (∃ (s : State), ∃ id, ∃ (c : Cmd), s.canRun id 0x020B c ∧
     (zeros (chPayload c.packet) 0 16 = false ∨ zeros (chPayload c.packet) 52 64 = false)) ∧
    (∃ (s : State), ∃ id, ∃ (c : Cmd), s.canRun id 0x020B c ∧ zeros (chPayload c.packet) 0 16 = true ∧
     zeros (chPayload c.packet) 52 64 = true ∧ s.allotOk (chArg c.packet) (allotOf (chPayload c.packet)) = false) ∧
    (∃ (s : State), ∃ id, ∃ (c : Cmd), s.canRun id 0x020B c ∧ zeros (chPayload c.packet) 0 16 = true ∧
     zeros (chPayload c.packet) 52 64 = true ∧ s.allotOk (chArg c.packet) (allotOf (chPayload c.packet)) = true ∧
     (allotFits (allotOf (chPayload c.packet)) ((s.portSeats (chArg c.packet)).map (fun ks => ks.2.record)) = false ∨ (allotOf (chPayload c.packet)).extents < s.extentsOf (chArg c.packet))) :=
  ⟨⟨asked built 0x0201 1 0 (fields 64 [(0, 1, 1), (3, 1, 1), (6, 1, 8), (16, 16, 1), (32, 2, 1), (36, 2, 100), (52, 2, 1)]), 0, 1,
    _, _, ⟨_, ⟨rfl, rfl, rfl, rfl, by decide⟩, by decide, by decide +kernel⟩, (rfl), (rfl), by decide, by decide,
    (by decide +kernel)⟩,
   ⟨asked live 0x0201 1 0 (fields 64 []), 0, _, ⟨_, ⟨rfl, rfl, rfl, rfl, by decide⟩, by decide, by decide +kernel⟩, by decide⟩,
   ⟨asked { live with mod := { live.mod with admitted := false } } 0x0201 1 0 (fields 64 [(0, 1, 1)]), 0, _, ⟨_, ⟨rfl, rfl, rfl,
    rfl, by decide⟩, by decide, by decide +kernel⟩, by decide, by decide⟩,
   ⟨asked live 0x0201 1 0 (fields 64 [(0, 1, 1)]), 0, _, .configInvalid, ⟨_, ⟨rfl, rfl, rfl, rfl, by decide⟩, by decide,
    by decide +kernel⟩, by decide, by decide, by decide⟩,
   ⟨asked (seated goodSeat) 0x0205 1 5 [], 0, _, _, ⟨_, ⟨rfl, rfl, rfl, rfl, by decide⟩, by decide, by decide +kernel⟩, rfl⟩,
   ⟨asked (seated goodSeat) 0x0206 1 5 [], 0, _, _, ⟨_, ⟨rfl, rfl, rfl, rfl, by decide⟩, by decide, by decide +kernel⟩, rfl⟩,
   ⟨asked (seated { goodSeat with turnBegun := true, state := .running }) 0x0207 1 0 (List.replicate 32 0), 0, _, _, _, ⟨_, ⟨rfl,
    rfl, rfl, rfl, by decide⟩, by decide, by decide +kernel⟩, rfl, rfl, by decide, by decide, by decide⟩,
   ⟨asked (seated goodSeat) 0x0207 1 0 (List.replicate 32 0), 0, _, _, _, ⟨_, ⟨rfl, rfl, rfl, rfl, by decide⟩, by decide,
    by decide +kernel⟩, rfl, rfl, by decide, by decide, by decide⟩,
   ⟨asked (seated goodSeat) 0x0207 1 0 (List.replicate 32 255), 0, _, _, ⟨_, ⟨rfl, rfl, rfl, rfl, by decide⟩, by decide,
    by decide +kernel⟩, rfl, by decide⟩,
   ⟨asked (seated goodSeat) 0x0207 1 0 (1 :: List.replicate 31 0), 0, _, _, ⟨_, ⟨rfl, rfl, rfl, rfl, by decide⟩, by decide,
    by decide +kernel⟩, rfl, by decide, by decide⟩,
   ⟨asked (seated goodSeat) 0x020A 1 0x20003 [], 0, _, _, _, _, ⟨_, ⟨rfl, rfl, rfl, rfl, by decide⟩, by decide, by decide +kernel⟩,
    rfl, (rfl), (rfl), (.inr ⟨by decide +kernel, by decide +kernel⟩), (fun _ _ h => nomatch h)⟩,
   ⟨asked (seated goodSeat) 0x020A 1 0x20FFF [], 0, _, _, _, _, ⟨_, ⟨rfl, rfl, rfl, rfl, by decide⟩, by decide, by decide +kernel⟩,
    rfl, (rfl), (rfl), (by decide +kernel), (.inl (by decide +kernel))⟩,
   ⟨asked { seated goodSeat with ni := { triggers := [(4096, { (actionOf 1 0 []).trig with running := false })] } } 0x020A 1 0x20004 [],
    0, _, _, _, _, _, _, ⟨_, ⟨rfl, rfl, rfl, rfl, by decide⟩, by decide, by decide +kernel⟩, rfl, (rfl), (rfl),
    (.inr ⟨by decide +kernel, by decide +kernel⟩), (List.mem_cons_self), (by decide +kernel), (rfl), (by decide +kernel),
    (by decide +kernel)⟩,
   ⟨asked (inState .init) 0x020B 0 0 (List.replicate 64 0), 0, _, ⟨_, ⟨rfl, rfl, rfl, rfl, by decide⟩, by decide,
    by decide +kernel⟩, by decide, by decide, by decide, by decide, by decide⟩,
   ⟨asked (seated goodSeat) 0x020B 1 0 (fields 64 [(4, 4, 1)]), 0, _, ⟨_, ⟨rfl, rfl, rfl, rfl, by decide⟩, by decide,
    by decide +kernel⟩, by decide⟩,
   ⟨asked (seated goodSeat) 0x020B 1 1 (List.replicate 64 0), 0, _, ⟨_, ⟨rfl, rfl, rfl, rfl, by decide⟩, by decide,
    by decide +kernel⟩, by decide, by decide, by decide⟩,
   ⟨asked (seated goodSeat) 0x020B 1 0 (List.replicate 64 0), 0, _, ⟨_, ⟨rfl, rfl, rfl, rfl, by decide⟩, by decide,
    by decide +kernel⟩, by decide, by decide, by decide, by decide⟩⟩

theorem witness_SeatsChangeAndDrain :
    (∃ (s : State), ∃ id, ∃ (c : Cmd), ∃ (x : Seat), s.canRun id 0x0202 c ∧ s.seat? (chSeat c.packet) = some x ∧
     byteAt (chPayload c.packet) 0 = chSeat c.packet ∧
     firstFail (s.recordChecks (chSeat c.packet) (chPayload c.packet) (changeAllowed x (chPayload c.packet))) = none) ∧
    (∃ (s : State), ∃ id, ∃ (c : Cmd), ∃ (x : Seat), s.canRun id 0x0202 c ∧ s.seat? (chSeat c.packet) = some x ∧
     byteAt (chPayload c.packet) 0 ≠ chSeat c.packet) ∧
    (∃ (s : State), ∃ id, ∃ (c : Cmd), ∃ (x : Seat), ∃ st, s.canRun id 0x0202 c ∧ s.seat? (chSeat c.packet) = some x ∧
     byteAt (chPayload c.packet) 0 = chSeat c.packet ∧
     firstFail (s.recordChecks (chSeat c.packet) (chPayload c.packet) (changeAllowed x (chPayload c.packet))) = some st) ∧
    (∃ (s : State), ∃ id, ∃ (c : Cmd), ∃ (x : Seat), ∃ a, ∃ b, ∃ m, ∃ (h : Bytes), ∃ (map : Bytes), s.canRun id 0x0208 c ∧
     s.seat? (chSeat c.packet) = some x ∧ s.quotaAddr x (chArg c.packet) 64 = some a ∧ h = s.bytes a 64 ∧
     s.groupMembers (chSeat c.packet) (fld h 8 2) = some m ∧ exclusionOk h = true ∧
     s.quotaAddr x (chArg c.packet + 64) ((m + 7) / 8) = some b ∧ map = s.bytes b ((m + 7) / 8) ∧ s.rangePoison a 64 = none ∧
     s.rangePoison b ((m + 7) / 8) = none ∧ (bit (byteAt map 0) 0 = false ∧ x.exclusions.length < 64 ∧ (byteAt h 10 = 1 → ∀ r,
     r < m → bit (byteAt map (r / 8)) (r % 8) = true → ∀ q ∈ rangeRanks m r, bit (byteAt map (q / 8)) (q % 8) = true))) ∧
    (∃ (s : State), ∃ id, ∃ (c : Cmd), ∃ (x : Seat), ∃ a, ∃ b, ∃ m, ∃ (h : Bytes), ∃ (map : Bytes), s.canRun id 0x0208 c ∧
     s.seat? (chSeat c.packet) = some x ∧ s.quotaAddr x (chArg c.packet) 64 = some a ∧ h = s.bytes a 64 ∧
     s.groupMembers (chSeat c.packet) (fld h 8 2) = some m ∧ exclusionOk h = true ∧
     s.quotaAddr x (chArg c.packet + 64) ((m + 7) / 8) = some b ∧ map = s.bytes b ((m + 7) / 8) ∧ s.rangePoison a 64 = none ∧
     s.rangePoison b ((m + 7) / 8) = none ∧ (bit (byteAt map 0) 0 = true ∨ 64 ≤ x.exclusions.length ∨ (byteAt h 10 = 1 ∧ ∃ r q,
     r < m ∧ bit (byteAt map (r / 8)) (r % 8) = true ∧ q ∈ rangeRanks m r ∧ bit (byteAt map (q / 8)) (q % 8) = false))) ∧
    (∃ (s : State), ∃ id, ∃ (c : Cmd), ∃ (x : Seat), s.canRun id 0x0208 c ∧ s.seat? (chSeat c.packet) = some x ∧
     s.quotaAddr x (chArg c.packet) 64 = none) ∧
    (∃ (s : State), ∃ id, ∃ (c : Cmd), ∃ (x : Seat), ∃ a, s.canRun id 0x0208 c ∧ s.seat? (chSeat c.packet) = some x ∧
     s.quotaAddr x (chArg c.packet) 64 = some a ∧
     (s.groupMembers (chSeat c.packet) (fld (s.bytes a 64) 8 2) = none ∨ exclusionOk (s.bytes a 64) = false)) ∧
    (∃ (s : State), ∃ id, ∃ (c : Cmd), ∃ (x : Seat), ∃ a, ∃ m, s.canRun id 0x0208 c ∧ s.seat? (chSeat c.packet) = some x ∧
     s.quotaAddr x (chArg c.packet) 64 = some a ∧ s.groupMembers (chSeat c.packet) (fld (s.bytes a 64) 8 2) = some m ∧
     exclusionOk (s.bytes a 64) = true ∧ s.quotaAddr x (chArg c.packet + 64) ((m + 7) / 8) = none) ∧
    (∃ (s : State), ∃ id, ∃ (c : Cmd), ∃ (x : Seat), ∃ a, ∃ m, s.canRun id 0x0208 c ∧ s.seat? (chSeat c.packet) = some x ∧
     s.quotaAddr x (chArg c.packet) 64 = some a ∧ s.groupMembers (chSeat c.packet) (fld (s.bytes a 64) 8 2) = some m ∧
     exclusionOk (s.bytes a 64) = true ∧ ∃ b, ∃ k, s.quotaAddr x (chArg c.packet + 64) ((m + 7) / 8) = some b ∧
     (s.rangePoison a 64).orElse (fun _ => s.rangePoison b ((m + 7) / 8)) = some k) ∧
    (∃ (s : State), ∃ id, ∃ (c : Cmd), ∃ (x : Seat), s.canRun id 0x0203 c ∧ s.seat? (chSeat c.packet) = some x ∧ chArg c.packet ≠ 0) ∧
    (∃ (s : State), ∃ id, ∃ (c : Cmd), ∃ (x : Seat), s.canRun id 0x0203 c ∧ s.seat? (chSeat c.packet) = some x ∧ chArg c.packet = 0) ∧
    (∃ (s : State), ∃ id, ∃ (c : Cmd), ∃ (x : Seat), s.canRun id 0x0209 c ∧ s.seat? (chSeat c.packet) = some x ∧
     chArg c.packet ≠ 0 ∧ x.preempt.phase = .none ∧ (x.state ≠ .halted ∨ x.haltCause ≠ 4)) ∧
    (∃ (s : State), ∃ id, ∃ (c : Cmd), ∃ (x : Seat), s.canRun id 0x0209 c ∧ s.seat? (chSeat c.packet) = some x ∧
     chArg c.packet = 0 ∧ x.preempt.phase = .none ∧ (x.state ≠ .halted ∨ x.haltCause ≠ 4)) ∧
    (∃ (s : State), ∃ id, ∃ (c : Cmd), ∃ (x : Seat), s.canRun id 0x0209 c ∧ s.seat? (chSeat c.packet) = some x ∧
     x.preempt.phase = .none ∧ x.state = .halted ∧ x.haltCause = 4) ∧
    (∃ (s : State), ∃ id, ∃ (c : Cmd), ∃ (x : Seat), s.cmd? id = some c ∧ c.begun = false ∧ chOpcode c.packet = 0x0209 ∧
     s.seat? (chSeat c.packet) = some x ∧ x.preempt.phase ≠ .none ∧ x.state ≠ .draining ∧ x.haltCause ≠ 4) :=
  ⟨⟨asked (seated { goodSeat with state := .running }) 0x0202 1 0 goodRecord, 0, _, _, ⟨_, ⟨rfl, rfl, rfl, rfl, by decide⟩,
    by decide, by decide +kernel⟩, rfl, (by decide +kernel), (by decide +kernel)⟩,
   ⟨asked (seated goodSeat) 0x0202 1 0 (fields 64 [(4, 4, 1)]), 0, _, _, ⟨_, ⟨rfl, rfl, rfl, rfl, by decide⟩, by decide,
    by decide +kernel⟩, rfl, by decide⟩,
   ⟨asked (seated goodSeat) 0x0202 1 0 (1 :: List.replicate 63 0), 0, _, _, _, ⟨_, ⟨rfl, rfl, rfl, rfl, by decide⟩, by decide,
    by decide +kernel⟩, rfl, by decide, rfl⟩,
   ⟨asked (withBytes { seated goodSeat with ni := { groups := [(3, group0)] } } [(0, fields 64 [(8, 2, 3), (10, 1,
    2)])]) 0x0208 1 0 [], 0, _, _, 0, 64, 2, _, _, ⟨_, ⟨rfl, rfl, rfl, rfl, by decide⟩, by decide, by decide +kernel⟩, rfl,
    (by decide +kernel), (rfl), (by decide +kernel), (by decide +kernel), (by decide +kernel), (rfl), (by decide +kernel),
    (by decide +kernel), (⟨by decide +kernel, by decide +kernel, fun h => absurd h (by decide +kernel)⟩)⟩,
   ⟨asked (withBytes { seated goodSeat with ni := { groups := [(3, group0)] } } [(0, fields 64 [(8, 2, 3), (10, 1, 2)]), (64,
    [1])]) 0x0208 1 0 [], 0, _, _, 0, 64, 2, _, _, ⟨_, ⟨rfl, rfl, rfl, rfl, by decide⟩, by decide, by decide +kernel⟩, rfl,
    (by decide +kernel), (rfl), (by decide +kernel), (by decide +kernel), (by decide +kernel), (rfl), (by decide +kernel),
    (by decide +kernel), (.inl (by decide +kernel))⟩,
   ⟨asked (seated { goodSeat with turnBegun := true, state := .running }) 0x0208 1 281474976710655 [], 0, _, _, ⟨_, ⟨rfl, rfl, rfl,
    rfl, by decide⟩, by decide, by decide +kernel⟩, rfl, by decide⟩,
   ⟨asked (seated { goodSeat with turnBegun := true, state := .running }) 0x0208 1 0 [], 0, _, _, _, ⟨_, ⟨rfl, rfl, rfl, rfl,
    by decide⟩, by decide, by decide +kernel⟩, rfl, rfl, by decide⟩,
   ⟨asked (withBytes { seated goodSeat with ni := { groups := [(3, group0)] } } [(0x63FFFFFC0, fields 64 [(8, 2, 3), (10, 1,
    2)])]) 0x0208 1 0x63FFFFFC0 [], 0, _, _, 0x63FFFFFC0, 2, ⟨_, ⟨rfl, rfl, rfl, rfl, by decide⟩, by decide, by decide +kernel⟩,
    rfl, (by decide +kernel), (by decide +kernel), (by decide +kernel), (by decide +kernel)⟩,
   ⟨asked { (withBytes { seated goodSeat with ni := { groups := [(3, group0)] } } [(0, fields 64 [(8, 2, 3), (10, 1, 2)])]) with poison := [(64, 2)] } 0x0208 1 0 [],
    0, _, _, 0, 2, ⟨_, ⟨rfl, rfl, rfl, rfl, by decide⟩, by decide, by decide +kernel⟩, rfl, (by decide +kernel),
    (by decide +kernel), (by decide +kernel), 64, 2, (by decide +kernel), (by decide +kernel)⟩,
   ⟨asked (seated goodSeat) 0x0203 1 5 [], 0, _, _, ⟨_, ⟨rfl, rfl, rfl, rfl, by decide⟩, by decide, by decide +kernel⟩, rfl,
    by decide⟩,
   ⟨asked (seated { goodSeat with turnBegun := true, state := .running }) 0x0203 1 0 [], 0, _, _, ⟨_, ⟨rfl, rfl, rfl, rfl,
    by decide⟩, by decide, by decide +kernel⟩, rfl, by decide⟩,
   ⟨asked (seated goodSeat) 0x0209 1 5 [], 0, _, _, ⟨_, ⟨rfl, rfl, rfl, rfl, by decide⟩, by decide, by decide +kernel⟩, rfl,
    by decide, by decide, by decide⟩,
   ⟨asked (seated { goodSeat with turnBegun := true, state := .running }) 0x0209 1 0 [], 0, _, _, ⟨_, ⟨rfl, rfl, rfl, rfl,
    by decide⟩, by decide, by decide +kernel⟩, rfl, by decide, by decide, by decide⟩,
   ⟨asked (seated { goodSeat with state := .halted, haltCause := 4 }) 0x0209 1 5 [], 0, _, _, ⟨_, ⟨rfl, rfl, rfl, rfl, by decide⟩,
    by decide, by decide +kernel⟩, rfl, by decide, by decide, by decide⟩,
   ⟨asked (seated { goodSeat with preempt := { phase := .saved } }) 0x0209 1 5 [], 0, _, _, (rfl), by decide, (rfl), (rfl),
    by decide, by decide, by decide⟩⟩

theorem witness_MemoryCommandsTakeEffect :
    (∃ (s : State), ∃ id, ∃ (c : Cmd), ∃ (x : Seat), ∃ w, ∃ n, ∃ (q : Window), s.canRun id 0x0301 c ∧ s.seat? n = some x ∧
     n = chSeat c.packet ∧ w = chArg c.packet ∧ q = windowOf (chPayload c.packet) ∧ (∃ o, FMap.find? s.ni.windows w = some o ∧
     o.v = true ∧ o.seat ≠ n)) ∧
    (∃ (s : State), ∃ id, ∃ (c : Cmd), ∃ (x : Seat), ∃ w, ∃ n, ∃ (q : Window), s.canRun id 0x0301 c ∧ s.seat? n = some x ∧
     n = chSeat c.packet ∧ w = chArg c.packet ∧ q = windowOf (chPayload c.packet) ∧ (∀ o, FMap.find? s.ni.windows w = some o →
     o.v = false ∨ o.seat = n) ∧ windowOk (chPayload c.packet) n w = false) ∧
    (∃ (s : State), ∃ id, ∃ (c : Cmd), ∃ (x : Seat), ∃ w, ∃ n, ∃ (q : Window), s.canRun id 0x0301 c ∧ s.seat? n = some x ∧
     n = chSeat c.packet ∧ w = chArg c.packet ∧ q = windowOf (chPayload c.packet) ∧ (∀ o, FMap.find? s.ni.windows w = some o →
     o.v = false ∨ o.seat = n) ∧ windowOk (chPayload c.packet) n w = true ∧ (x.inQuota q.base q.size = false ∨ (q.v = true ∧
     recWindows x.record ≤ (s.ni.windows.filter (fun kw => kw.1 != w && kw.2.v && kw.2.seat == n)).length))) ∧
    (∃ (s : State), ∃ id, ∃ (c : Cmd), ∃ (x : Seat), ∃ w, ∃ n, ∃ (q : Window), s.canRun id 0x0301 c ∧ s.seat? n = some x ∧
     n = chSeat c.packet ∧ w = chArg c.packet ∧ q = windowOf (chPayload c.packet) ∧ (∀ o, FMap.find? s.ni.windows w = some o →
     o.v = false ∨ o.seat = n) ∧ windowOk (chPayload c.packet) n w = true ∧ x.inQuota q.base q.size = true ∧
     (q.v = false ∨ (s.ni.windows.filter (fun kw => kw.1 != w && kw.2.v && kw.2.seat == n)).length < recWindows x.record)) ∧
    (∃ (s : State), ∃ id, ∃ (c : Cmd), ∃ (x : Seat), ∃ n, ∃ slots, ∃ part, ∃ base, s.canRun id 0x0303 c ∧ s.seat? n = some x ∧
     n = chSeat c.packet ∧ slots = byteAt (chPayload c.packet) 0 ∧ part = fld (chPayload c.packet) 8 8 ∧
     base = fld (chPayload c.packet) 16 8 ∧ x.window.isSome = true ∧ (x.running.isSome = true ∨ s.streaming n = true)) ∧
    (∃ (s : State), ∃ id, ∃ (c : Cmd), ∃ (x : Seat), ∃ n, ∃ slots, ∃ part, ∃ base, s.canRun id 0x0303 c ∧ s.seat? n = some x ∧
     n = chSeat c.packet ∧ slots = byteAt (chPayload c.packet) 0 ∧ part = fld (chPayload c.packet) 8 8 ∧
     base = fld (chPayload c.packet) 16 8 ∧ (x.window = none ∨ (x.running = none ∧ s.streaming n = false)) ∧
     layerOk (chPayload c.packet) = false) ∧
    (∃ (s : State), ∃ id, ∃ (c : Cmd), ∃ (x : Seat), ∃ n, ∃ slots, ∃ part, ∃ base, s.canRun id 0x0303 c ∧ s.seat? n = some x ∧
     n = chSeat c.packet ∧ slots = byteAt (chPayload c.packet) 0 ∧ part = fld (chPayload c.packet) 8 8 ∧
     base = fld (chPayload c.packet) 16 8 ∧ (x.window = none ∨ (x.running = none ∧ s.streaming n = false)) ∧
     layerOk (chPayload c.packet) = true ∧ (∃ r ∈ s.engines x, x.inQuota (r * regionBytes + base) (slots * part) = false)) ∧
    (∃ (s : State), ∃ id, ∃ (c : Cmd), ∃ (x : Seat), ∃ n, ∃ slots, ∃ part, ∃ base, s.canRun id 0x0303 c ∧ s.seat? n = some x ∧
     n = chSeat c.packet ∧ slots = byteAt (chPayload c.packet) 0 ∧ part = fld (chPayload c.packet) 8 8 ∧
     base = fld (chPayload c.packet) 16 8 ∧ (x.window = none ∨ (x.running = none ∧ s.streaming n = false)) ∧
     layerOk (chPayload c.packet) = true ∧ (∀ r ∈ s.engines x, x.inQuota (r * regionBytes + base) (slots * part) = true)) ∧
    (∃ (s : State), ∃ id, ∃ (c : Cmd), ∃ st, s.canRun id 0x0304 c ∧ st = chArg c.packet % 32 ∧ (∃ p, c.port? = some p ∧
     allotWhole (s.allot p) (st / 2) = false)) ∧
    (∃ (s : State), ∃ id, ∃ (c : Cmd), ∃ st, s.canRun id 0x0304 c ∧ st = chArg c.packet % 32 ∧ (∀ p, c.port? = some p →
     allotWhole (s.allot p) (st / 2) = true) ∧ (∃ n x, (n, x) ∈ s.seats ∧ recQsize x.record ≠ 0 ∧ (st / 2) ∈ regionsOf x.record ∧
     x.running.isSome = true)) ∧
    (∃ (s : State), ∃ id, ∃ (c : Cmd), ∃ st, s.canRun id 0x0304 c ∧ st = chArg c.packet % 32 ∧ (∀ p, c.port? = some p →
     allotWhole (s.allot p) (st / 2) = true) ∧ (∀ n x, (n, x) ∈ s.seats →
     recQsize x.record = 0 ∨ (st / 2) ∉ regionsOf x.record ∨ x.running = none)) :=
  ⟨⟨asked { seated goodSeat with ni := { windows := [(7, { window7 with seat := 2 })] } } 0x0301 1 7 (fields 32 [(0, 1, 1), (1, 1,
    1), (4, 4, 7), (24, 8, 4096)]), 0, _, _, 7, 1, _, ⟨_, ⟨rfl, rfl, rfl, rfl, by decide⟩, by decide, by decide +kernel⟩, rfl,
    (rfl), (rfl), (rfl), (⟨_, rfl, rfl, by decide⟩)⟩,
   ⟨asked (seated goodSeat) 0x0301 1 0 (List.replicate 32 0), 0, _, _, _, _, _, ⟨_, ⟨rfl, rfl, rfl, rfl, by decide⟩, by decide,
    by decide +kernel⟩, rfl, rfl, rfl, rfl, by decide, by decide⟩,
   ⟨asked (seated goodSeat) 0x0301 1 7 (fields 32 [(0, 1, 1), (1, 1, 1), (4, 4, 7), (16, 8, 0x1900000000), (24, 8, 4096)]), 0, _,
    _, 7, 1, _, ⟨_, ⟨rfl, rfl, rfl, rfl, by decide⟩, by decide, by decide +kernel⟩, rfl, (rfl), (rfl), (rfl),
    (fun _ h => nomatch h), (by decide +kernel), (.inl (by decide +kernel))⟩,
   ⟨asked (seated goodSeat) 0x0301 1 7 (fields 32 [(0, 1, 1), (1, 1, 1), (4, 4, 7), (24, 8, 4096)]), 0, _, _, 7, 1, _, ⟨_, ⟨rfl,
    rfl, rfl, rfl, by decide⟩, by decide, by decide +kernel⟩, rfl, (rfl), (rfl), (rfl), (fun _ h => nomatch h), (by decide +kernel),
    (by decide +kernel), (.inr (by decide +kernel))⟩,
   ⟨asked (seated { goodSeat with window := some ⟨2, 0, 4096, []⟩, running := some ⟨⟨0, 0, false, true⟩, [], none, none, true⟩ }) 0x0303 1 0 (fields 32 [(0,
    1, 2), (8, 8, 4096)]), 0, _, _, 1, _, _, _, ⟨_, ⟨rfl, rfl, rfl, rfl, by decide⟩, by decide, by decide +kernel⟩, rfl, (rfl),
    (rfl), (rfl), (rfl), by decide, (.inl rfl)⟩,
   ⟨asked (seated goodSeat) 0x0303 1 0 (List.replicate 32 0), 0, _, _, _, _, _, _, ⟨_, ⟨rfl, rfl, rfl, rfl, by decide⟩, by decide,
    by decide +kernel⟩, rfl, rfl, rfl, rfl, rfl, by decide, by decide⟩,
   ⟨asked (seated goodSeat) 0x0303 1 0 (fields 32 [(0, 1, 2), (8, 8, 4096), (16, 8, 0x640000000)]), 0, _, _, 1, _, _, _, ⟨_, ⟨rfl,
    rfl, rfl, rfl, by decide⟩, by decide, by decide +kernel⟩, rfl, (rfl), (rfl), (rfl), (rfl), (.inl rfl), (by decide +kernel), (⟨0,
    by decide +kernel, by decide +kernel⟩)⟩,
   ⟨asked (seated goodSeat) 0x0303 1 0 (fields 32 [(0, 1, 2), (8, 8, 4096)]), 0, _, _, 1, _, _, _, ⟨_, ⟨rfl, rfl, rfl, rfl,
    by decide⟩, by decide, by decide +kernel⟩, rfl, (rfl), (rfl), (rfl), (rfl), (.inl rfl), (by decide +kernel),
    (by decide +kernel)⟩,
   ⟨{ live with host := { cmds := [{ id := 0, issuer := .ring 0 0, packet := packet 0x0304 0 3 [], sqHead := 0, begun := false, discard := false, acceptedAt := 0 }], nextCmd := 1, configured := [true, false] } },
    0, _, _, ⟨_, ⟨rfl, rfl, rfl, rfl, by decide⟩, by decide, by decide +kernel⟩, (rfl), (⟨0, rfl, by decide +kernel⟩)⟩,
   ⟨asked (seated { goodSeat with running := some ⟨⟨0, 0, false, true⟩, [], none, none, true⟩ }) 0x0304 0 1 [], 0, _, _, ⟨_, ⟨rfl,
    rfl, rfl, rfl, by decide⟩, by decide, by decide +kernel⟩, (rfl), (fun _ h => nomatch h), (⟨1, _, List.mem_cons_self,
    by decide +kernel, by decide +kernel, rfl⟩)⟩,
   ⟨asked live 0x0304 0 3 [], 0, _, _, ⟨_, ⟨rfl, rfl, rfl, rfl, by decide⟩, by decide, by decide +kernel⟩, (rfl),
    (fun _ h => nomatch h), (fun _ _ h => nomatch h)⟩⟩

theorem witness_LaunchesQueue :
    (∃ (s : State), ∃ id, ∃ (c : Cmd), ∃ (x : Seat), ∃ p, s.canRun id 0x0401 c ∧ s.seat? (chSeat c.packet) = some x ∧
     x.program = some p ∧ chArg c.packet % 65536 < p.kernels.length ∧ p.level = x.level ∧
     (x.turnAborted = false ∨ x.turnEnded = true) ∧ (x.state ≠ .idle ∨ x.haltLatch = false)) ∧
    (∃ (s : State), ∃ id, ∃ (c : Cmd), ∃ (x : Seat), ∃ p, s.canRun id 0x0401 c ∧ s.seat? (chSeat c.packet) = some x ∧
     x.program = some p ∧ chArg c.packet % 65536 < p.kernels.length ∧ p.level = x.level ∧
     (x.turnAborted = false ∨ x.turnEnded = true) ∧ x.state = .idle ∧ x.haltLatch = true) ∧
    (∃ (s : State), ∃ id, ∃ (c : Cmd), ∃ (x : Seat), ∃ p, s.canRun id 0x0401 c ∧ s.seat? (chSeat c.packet) = some x ∧
     x.program = some p ∧ chArg c.packet % 65536 < p.kernels.length ∧ p.level = x.level ∧ x.turnAborted = true ∧ x.turnEnded = false) ∧
    (∃ (s : State), ∃ id, ∃ (c : Cmd), ∃ (x : Seat), s.canRun id 0x0401 c ∧ s.seat? (chSeat c.packet) = some x ∧ x.program = none) ∧
    (∃ (s : State), ∃ id, ∃ (c : Cmd), ∃ (x : Seat), ∃ p, s.canRun id 0x0401 c ∧ s.seat? (chSeat c.packet) = some x ∧
     x.program = some p ∧ p.kernels.length ≤ chArg c.packet % 65536) ∧
    (∃ (s : State), ∃ id, ∃ (c : Cmd), ∃ (x : Seat), ∃ p, s.canRun id 0x0401 c ∧ s.seat? (chSeat c.packet) = some x ∧
     x.program = some p ∧ chArg c.packet % 65536 < p.kernels.length ∧ p.level ≠ x.level) :=
  ⟨⟨asked (seated { goodSeat with program := some prog0 }) 0x0401 1 0 [], 0, _, _, _, ⟨_, ⟨rfl, rfl, rfl, rfl, by decide⟩,
    by decide, by decide +kernel⟩, rfl, rfl, by decide, by decide, (.inl rfl), (.inr rfl)⟩,
   ⟨asked (seated { goodSeat with program := some prog0, haltLatch := true }) 0x0401 1 0 [], 0, _, _, _, ⟨_, ⟨rfl, rfl, rfl, rfl,
    by decide⟩, by decide, by decide +kernel⟩, rfl, rfl, by decide, by decide, (.inl rfl), by decide, by decide⟩,
   ⟨asked (seated { goodSeat with program := some prog0, turnAborted := true }) 0x0401 1 0 [], 0, _, _, _, ⟨_, ⟨rfl, rfl, rfl, rfl,
    by decide⟩, by decide, by decide +kernel⟩, rfl, rfl, by decide, by decide, by decide, by decide⟩,
   ⟨asked (seated goodSeat) 0x0401 1 0 [], 0, _, _, ⟨_, ⟨rfl, rfl, rfl, rfl, by decide⟩, by decide, by decide +kernel⟩, rfl,
    by decide⟩,
   ⟨asked (seated { goodSeat with program := some prog0 }) 0x0401 1 1 [], 0, _, _, _, ⟨_, ⟨rfl, rfl, rfl, rfl, by decide⟩,
    by decide, by decide +kernel⟩, rfl, rfl, by decide⟩,
   ⟨asked (seated { goodSeat with program := some { prog0 with level := 1 } }) 0x0401 1 0 [], 0, _, _, _, ⟨_, ⟨rfl, rfl, rfl, rfl,
    by decide⟩, by decide, by decide +kernel⟩, rfl, rfl, by decide, by decide⟩⟩

theorem witness_ProgramsLoadAndTurnsStop :
    (∃ (s : State), ∃ id, ∃ (c : Cmd), ∃ (x : Seat), ∃ a, ∃ (h : Bytes), s.canRun id 0x0402 c ∧ s.seat? (chSeat c.packet) = some x ∧
     s.quotaAddr x (chArg c.packet) 64 = some a ∧ h = s.bytes a 64 ∧ s.rangePoison a 64 = none ∧
     (fld h 0 4 ≠ 1 ∨ zeros h 24 64 = false ∨ fld h 6 2 = 0 ∨ fld h 6 2 % 8 ≠ 0)) ∧
    (∃ (s : State), ∃ id, ∃ (c : Cmd), ∃ (x : Seat), ∃ a, ∃ (h : Bytes), s.canRun id 0x0402 c ∧ s.seat? (chSeat c.packet) = some x ∧
     s.quotaAddr x (chArg c.packet) 64 = some a ∧ h = s.bytes a 64 ∧ s.rangePoison a 64 = none ∧ fld h 0 4 = 1 ∧
     zeros h 24 64 = true ∧ fld h 6 2 ≠ 0 ∧ fld h 6 2 % 8 = 0 ∧ x.ltiles < fld h 6 2) ∧
    (∃ (s : State), ∃ id, ∃ (c : Cmd), ∃ (x : Seat), ∃ a, ∃ (h : Bytes), s.canRun id 0x0402 c ∧ s.seat? (chSeat c.packet) = some x ∧
     s.quotaAddr x (chArg c.packet) 64 = some a ∧ h = s.bytes a 64 ∧ s.rangePoison a 64 = none ∧ fld h 0 4 = 1 ∧
     zeros h 24 64 = true ∧ fld h 6 2 ≠ 0 ∧ fld h 6 2 % 8 = 0 ∧ fld h 6 2 ≤ x.ltiles ∧
     (fld h 8 4 = 0 ∨ 65536 < fld h 8 4 ∨ 2 ^ 30 < fld h 16 8 ∨ fld h 16 8 < tablesSize h)) ∧
    (∃ (s : State), ∃ id, ∃ (c : Cmd), ∃ (x : Seat), ∃ a, ∃ (h : Bytes), s.canRun id 0x0402 c ∧ s.seat? (chSeat c.packet) = some x ∧
     s.quotaAddr x (chArg c.packet) 64 = some a ∧ h = s.bytes a 64 ∧ s.rangePoison a 64 = none ∧ fld h 0 4 = 1 ∧
     zeros h 24 64 = true ∧ fld h 6 2 ≠ 0 ∧ fld h 6 2 % 8 = 0 ∧ fld h 6 2 ≤ x.ltiles ∧ fld h 8 4 ≠ 0 ∧ fld h 8 4 ≤ 65536 ∧
     fld h 16 8 ≤ 2 ^ 30 ∧ tablesSize h ≤ fld h 16 8 ∧ s.quotaAddr x (chArg c.packet) (fld h 16 8) = none) ∧
    (∃ (s : State), ∃ id, ∃ (c : Cmd), ∃ (x : Seat), ∃ a, ∃ (h : Bytes), s.canRun id 0x0402 c ∧ s.seat? (chSeat c.packet) = some x ∧
     s.quotaAddr x (chArg c.packet) 64 = some a ∧ h = s.bytes a 64 ∧ s.rangePoison a 64 = none ∧ fld h 0 4 = 1 ∧
     zeros h 24 64 = true ∧ fld h 6 2 ≠ 0 ∧ fld h 6 2 % 8 = 0 ∧ fld h 6 2 ≤ x.ltiles ∧ fld h 8 4 ≠ 0 ∧ fld h 8 4 ≤ 65536 ∧
     fld h 16 8 ≤ 2 ^ 30 ∧ tablesSize h ≤ fld h 16 8 ∧ ∃ b, s.quotaAddr x (chArg c.packet) (fld h 16 8) = some b ∧ ∃ k,
     s.rangePoison a (tablesSize h) = some k) ∧
    (∃ (s : State), ∃ id, ∃ (c : Cmd), ∃ (x : Seat), ∃ a, ∃ (h : Bytes), s.canRun id 0x0402 c ∧ s.seat? (chSeat c.packet) = some x ∧
     s.quotaAddr x (chArg c.packet) 64 = some a ∧ h = s.bytes a 64 ∧ s.rangePoison a 64 = none ∧ fld h 0 4 = 1 ∧
     zeros h 24 64 = true ∧ fld h 6 2 ≠ 0 ∧ fld h 6 2 % 8 = 0 ∧ fld h 6 2 ≤ x.ltiles ∧ fld h 8 4 ≠ 0 ∧ fld h 8 4 ≤ 65536 ∧
     fld h 16 8 ≤ 2 ^ 30 ∧ tablesSize h ≤ fld h 16 8 ∧ ∃ b, s.quotaAddr x (chArg c.packet) (fld h 16 8) = some b ∧
     s.rangePoison a (tablesSize h) = none ∧ tablesOk (fld h 6 2) (fld h 12 4) (kernelEntries s a h) (bindingEntries s a h) = false) ∧
    (∃ (s : State), ∃ id, ∃ (c : Cmd), ∃ (x : Seat), ∃ a, ∃ (h : Bytes), s.canRun id 0x0402 c ∧ s.seat? (chSeat c.packet) = some x ∧
     s.quotaAddr x (chArg c.packet) 64 = some a ∧ h = s.bytes a 64 ∧ s.rangePoison a 64 = none ∧ fld h 0 4 = 1 ∧
     zeros h 24 64 = true ∧ fld h 6 2 ≠ 0 ∧ fld h 6 2 % 8 = 0 ∧ fld h 6 2 ≤ x.ltiles ∧ fld h 8 4 ≠ 0 ∧ fld h 8 4 ≤ 65536 ∧
     fld h 16 8 ≤ 2 ^ 30 ∧ tablesSize h ≤ fld h 16 8 ∧ ∃ b, s.quotaAddr x (chArg c.packet) (fld h 16 8) = some b ∧
     s.rangePoison a (tablesSize h) = none ∧ tablesOk (fld h 6 2) (fld h 12 4) (kernelEntries s a h) (bindingEntries s a h) = true) ∧
    (∃ (s : State), ∃ id, ∃ (c : Cmd), ∃ (x : Seat), s.canRun id 0x0402 c ∧ s.seat? (chSeat c.packet) = some x ∧
     s.quotaAddr x (chArg c.packet) 64 = none) ∧
    (∃ (s : State), ∃ id, ∃ (c : Cmd), ∃ (x : Seat), s.canRun id 0x0402 c ∧ s.seat? (chSeat c.packet) = some x ∧ ∃ a, ∃ k,
     s.quotaAddr x (chArg c.packet) 64 = some a ∧ s.rangePoison a 64 = some k) ∧
    (∃ (s : State), ∃ id, ∃ (c : Cmd), ∃ (x : Seat), s.canRun id 0x0403 c ∧ s.seat? (chSeat c.packet) = some x ∧ inTurn x) ∧
    (∃ (s : State), ∃ id, ∃ (c : Cmd), ∃ (x : Seat), s.canRun id 0x0403 c ∧ s.seat? (chSeat c.packet) = some x ∧ ¬ inTurn x) ∧
    (∃ (s : State), ∃ id, ∃ (c : Cmd), ∃ (x : Seat), s.canRun id 0x0404 c ∧ s.seat? (chSeat c.packet) = some x ∧ x.state = .halted) ∧
    (∃ (s : State), ∃ id, ∃ (c : Cmd), ∃ (x : Seat), s.canRun id 0x0404 c ∧ s.seat? (chSeat c.packet) = some x ∧ x.state ≠ .halted ∧
     x.turnBegun = true) ∧
    (∃ (s : State), ∃ id, ∃ (c : Cmd), ∃ (x : Seat), s.canRun id 0x0404 c ∧ s.seat? (chSeat c.packet) = some x ∧ x.state ≠ .halted ∧
     x.turnBegun = false) ∧
    (∃ (s : State), ∃ id, ∃ (c : Cmd), ∃ (x : Seat), s.canRun id 0x0405 c ∧ s.seat? (chSeat c.packet) = some x ∧
     s.pins.haltN = true ∧ x.haltCause ≠ 4 ∧ s.onWithdrawn x = false ∧ s.holdsUnbacked x = false) ∧
    (∃ (s : State), ∃ id, ∃ (c : Cmd), ∃ (x : Seat), s.canRun id 0x0405 c ∧ s.seat? (chSeat c.packet) = some x ∧
     (s.pins.haltN = false ∨ x.haltCause = 4 ∨ s.onWithdrawn x = true ∨ s.holdsUnbacked x = true)) ∧
    (∃ (s : State), s.pins.haltN = false) ∧
    (∃ (s : State), s.pins.haltN = true) :=
  ⟨⟨asked (seated goodSeat) 0x0402 1 0 [], 0, _, _, _, _, ⟨_, ⟨rfl, rfl, rfl, rfl, by decide⟩, by decide, by decide +kernel⟩, rfl,
    rfl, rfl, by decide, by decide⟩,
   ⟨asked (withBytes (seated goodSeat) [(4096, (fields 88 [(0, 4, 1), (6, 2, 16), (8, 4, 1), (12, 4, 1), (16, 8,
    88)]))]) 0x0402 1 4096 [], 0, _, _, 4096, _, ⟨_, ⟨rfl, rfl, rfl, rfl, by decide⟩, by decide, by decide +kernel⟩, rfl,
    (by decide +kernel), (rfl), (by decide +kernel), (by decide +kernel), (by decide +kernel), (by decide +kernel),
    (by decide +kernel), (by decide +kernel)⟩,
   ⟨asked (withBytes (seated goodSeat) [(4096, (fields 88 [(0, 4, 1), (6, 2, 8), (12, 4, 1), (16, 8, 88)]))]) 0x0402 1 4096 [], 0,
    _, _, 4096, _, ⟨_, ⟨rfl, rfl, rfl, rfl, by decide⟩, by decide, by decide +kernel⟩, rfl, (by decide +kernel), (rfl),
    (by decide +kernel), (by decide +kernel), (by decide +kernel), (by decide +kernel), (by decide +kernel), (by decide +kernel),
    (.inl (by decide +kernel))⟩,
   ⟨asked (withBytes (seated goodSeat) [(0x63FFFFFC0, (imageBytes.take 64))]) 0x0402 1 0x63FFFFFC0 [], 0, _, _, 0x63FFFFFC0, _, ⟨_,
    ⟨rfl, rfl, rfl, rfl, by decide⟩, by decide, by decide +kernel⟩, rfl, (by decide +kernel), (rfl), (by decide +kernel),
    (by decide +kernel), (by decide +kernel), (by decide +kernel), (by decide +kernel), (by decide +kernel), (by decide +kernel),
    (by decide +kernel), (by decide +kernel), (by decide +kernel), (by decide +kernel)⟩,
   ⟨asked { (withBytes (seated goodSeat) [(4096, imageBytes)]) with poison := [(4160, 2)] } 0x0402 1 4096 [], 0, _, _, 4096, _, ⟨_,
    ⟨rfl, rfl, rfl, rfl, by decide⟩, by decide, by decide +kernel⟩, rfl, (by decide +kernel), (rfl), (by decide +kernel),
    (by decide +kernel), (by decide +kernel), (by decide +kernel), (by decide +kernel), (by decide +kernel), (by decide +kernel),
    (by decide +kernel), (by decide +kernel), (by decide +kernel), 4096, (by decide +kernel), 2, (by decide +kernel)⟩,
   ⟨asked (withBytes (seated goodSeat) [(4096, (fields 88 [(0, 4, 1), (6, 2, 8), (8, 4, 1), (12, 4, 1), (16, 8, 88), (68, 4,
    2)]))]) 0x0402 1 4096 [], 0, _, _, 4096, _, ⟨_, ⟨rfl, rfl, rfl, rfl, by decide⟩, by decide, by decide +kernel⟩, rfl,
    (by decide +kernel), (rfl), (by decide +kernel), (by decide +kernel), (by decide +kernel), (by decide +kernel),
    (by decide +kernel), (by decide +kernel), (by decide +kernel), (by decide +kernel), (by decide +kernel), (by decide +kernel),
    4096, (by decide +kernel), (by decide +kernel), (by decide +kernel)⟩,
   ⟨asked (withBytes (seated goodSeat) [(4096, imageBytes)]) 0x0402 1 4096 [], 0, _, _, 4096, _, ⟨_, ⟨rfl, rfl, rfl, rfl,
    by decide⟩, by decide, by decide +kernel⟩, rfl, (by decide +kernel), (rfl), (by decide +kernel), (by decide +kernel),
    (by decide +kernel), (by decide +kernel), (by decide +kernel), (by decide +kernel), (by decide +kernel), (by decide +kernel),
    (by decide +kernel), (by decide +kernel), 4096, (by decide +kernel), (by decide +kernel), (by decide +kernel)⟩,
   ⟨asked (seated goodSeat) 0x0402 1 281474976710655 [], 0, _, _, ⟨_, ⟨rfl, rfl, rfl, rfl, by decide⟩, by decide,
    by decide +kernel⟩, rfl, by decide⟩,
   ⟨asked { (withBytes (seated goodSeat) [(4096, imageBytes)]) with poison := [(4096, 2)] } 0x0402 1 4096 [], 0, _, _, ⟨_, ⟨rfl,
    rfl, rfl, rfl, by decide⟩, by decide, by decide +kernel⟩, rfl, 4096, 2, (by decide +kernel), (by decide +kernel)⟩,
   ⟨asked (seated { goodSeat with state := .running, running := some ⟨⟨0, 0, false, true⟩, [], none, none, true⟩ }) 0x0403 1 0 [],
    0, _, _, ⟨_, ⟨rfl, rfl, rfl, rfl, by decide⟩, by decide, by decide +kernel⟩, rfl, (.inl rfl)⟩,
   ⟨asked (seated goodSeat) 0x0403 1 0 [], 0, _, _, ⟨_, ⟨rfl, rfl, rfl, rfl, by decide⟩, by decide, by decide +kernel⟩, rfl,
    (by unfold inTurn; decide)⟩,
   ⟨asked (seated { goodSeat with state := .halted }) 0x0404 1 0 [], 0, _, _, ⟨_, ⟨rfl, rfl, rfl, rfl, by decide⟩, by decide,
    by decide +kernel⟩, rfl, by decide⟩,
   ⟨asked (seated { goodSeat with turnBegun := true }) 0x0404 1 0 [], 0, _, _, ⟨_, ⟨rfl, rfl, rfl, rfl, by decide⟩, by decide,
    by decide +kernel⟩, rfl, by decide, by decide⟩,
   ⟨asked (seated goodSeat) 0x0404 1 0 [], 0, _, _, ⟨_, ⟨rfl, rfl, rfl, rfl, by decide⟩, by decide, by decide +kernel⟩, rfl,
    by decide, by decide⟩,
   ⟨asked (seated { goodSeat with state := .halted, haltCause := 2 }) 0x0405 1 0 [], 0, _, _, ⟨_, ⟨rfl, rfl, rfl, rfl, by decide⟩,
    by decide, by decide +kernel⟩, rfl, by decide, by decide, by decide, by decide⟩,
   ⟨asked (seated { goodSeat with state := .halted, haltCause := 4 }) 0x0405 1 0 [], 0, _, _, ⟨_, ⟨rfl, rfl, rfl, rfl, by decide⟩,
    by decide, by decide +kernel⟩, rfl, (.inr (.inl rfl))⟩,
   ⟨{ seated goodSeat with pins := { live.pins with haltN := false } }, by decide⟩,
   ⟨live, by decide⟩⟩

theorem witness_SpacesAndSwapsAreKept :
    (∃ (s : State), ∃ id, ∃ (c : Cmd), ∃ (x : Seat), ∃ n, ∃ p, s.canRun id 0x0406 c ∧ s.seat? n = some x ∧ n = chSeat c.packet ∧
     p = chPayload c.packet ∧ p.length ≠ 64 + 32 * spStages p) ∧
    (∃ (s : State), ∃ id, ∃ (c : Cmd), ∃ (x : Seat), ∃ n, ∃ p, s.canRun id 0x0406 c ∧ s.seat? n = some x ∧ n = chSeat c.packet ∧
     p = chPayload c.packet ∧ p.length = 64 + 32 * spStages p ∧ s.spaceOk x p = false) ∧
    (∃ (s : State), ∃ id, ∃ (c : Cmd), ∃ (x : Seat), ∃ n, ∃ p, s.canRun id 0x0406 c ∧ s.seat? n = some x ∧ n = chSeat c.packet ∧
     p = chPayload c.packet ∧ p.length = 64 + 32 * spStages p ∧ s.spaceOk x p = true ∧ s.spaceRouting n (fld p 0 2) = true) ∧
    (∃ (s : State), ∃ id, ∃ (c : Cmd), ∃ (x : Seat), ∃ n, ∃ p, s.canRun id 0x0406 c ∧ s.seat? n = some x ∧ n = chSeat c.packet ∧
     p = chPayload c.packet ∧ p.length = 64 + 32 * spStages p ∧ s.spaceOk x p = true ∧ s.spaceRouting n (fld p 0 2) = false) ∧
    (∃ (s : State), ∃ id, ∃ (c : Cmd), ∃ (x : Seat), ∃ n, ∃ p, s.canRun id 0x0407 c ∧ s.seat? n = some x ∧ n = chSeat c.packet ∧
     p = chPayload c.packet ∧ ¬ swapFieldsOk p) ∧
    (∃ (s : State), ∃ id, ∃ (c : Cmd), ∃ (x : Seat), ∃ n, ∃ p, s.canRun id 0x0407 c ∧ s.seat? n = some x ∧ n = chSeat c.packet ∧
     p = chPayload c.packet ∧ swapFieldsOk p ∧ swapLate x (swapNamed id p)) ∧
    (∃ (s : State), ∃ id, ∃ (c : Cmd), ∃ (x : Seat), ∃ n, ∃ p, s.canRun id 0x0407 c ∧ s.seat? n = some x ∧ n = chSeat c.packet ∧
     p = chPayload c.packet ∧ swapFieldsOk p ∧ ¬ swapLate x (swapNamed id p) ∧ (∃ sd ∈ (swapNamed id p).spaces,
     FMap.find? x.spaces sd.1 = none)) ∧
    (∃ (s : State), ∃ id, ∃ (c : Cmd), ∃ (x : Seat), ∃ n, ∃ p, s.canRun id 0x0407 c ∧ s.seat? n = some x ∧ n = chSeat c.packet ∧
     p = chPayload c.packet ∧ swapFieldsOk p ∧ ¬ swapLate x (swapNamed id p) ∧ (∀ sd ∈ (swapNamed id p).spaces,
     (FMap.find? x.spaces sd.1).isSome = true) ∧ x.turn.toNat < (swapNamed id p).turn) ∧
    (∃ (s : State), ∃ id, ∃ (c : Cmd), ∃ (x : Seat), ∃ n, ∃ p, s.canRun id 0x0407 c ∧ s.seat? n = some x ∧ n = chSeat c.packet ∧
     p = chPayload c.packet ∧ swapFieldsOk p ∧ ¬ swapLate x (swapNamed id p) ∧ (∀ sd ∈ (swapNamed id p).spaces,
     (FMap.find? x.spaces sd.1).isSome = true) ∧ (swapNamed id p).turn = x.turn.toNat ∧ s.swapValid x (swapNamed id p) = true) ∧
    (∃ (s : State), ∃ id, ∃ (c : Cmd), ∃ (x : Seat), ∃ n, ∃ p, s.canRun id 0x0407 c ∧ s.seat? n = some x ∧ n = chSeat c.packet ∧
     p = chPayload c.packet ∧ swapFieldsOk p ∧ ¬ swapLate x (swapNamed id p) ∧ (∀ sd ∈ (swapNamed id p).spaces,
     (FMap.find? x.spaces sd.1).isSome = true) ∧ (swapNamed id p).turn = x.turn.toNat ∧ s.swapValid x (swapNamed id p) = false) :=
  ⟨⟨asked (seated goodSeat) 0x0406 1 0 (List.replicate 64 255), 0, _, _, _, _, ⟨_, ⟨rfl, rfl, rfl, rfl, by decide⟩, by decide,
    by decide +kernel⟩, rfl, rfl, rfl, by decide⟩,
   ⟨asked (seated goodSeat) 0x0406 1 0 (1 :: List.replicate 63 0), 0, _, _, _, _, ⟨_, ⟨rfl, rfl, rfl, rfl, by decide⟩, by decide,
    by decide +kernel⟩, rfl, rfl, rfl, rfl, by decide⟩,
   ⟨asked { seated goodSeat with druind := { runs := [(0, routeOf 1 [0] (fields 96 []))] } } 0x0406 1 0 (fields 96 [(2, 2, 8), (6,
    1, 1), (8, 4, 10), (34, 2, 1)]), 0, _, _, 1, _, ⟨_, ⟨rfl, rfl, rfl, rfl, by decide⟩, by decide, by decide +kernel⟩, rfl, (rfl),
    (rfl), (by decide +kernel), (by decide +kernel), (by decide +kernel)⟩,
   ⟨asked (seated goodSeat) 0x0406 1 0 (fields 96 [(2, 2, 8), (6, 1, 1), (8, 4, 10), (34, 2, 1)]), 0, _, _, 1, _, ⟨_, ⟨rfl, rfl,
    rfl, rfl, by decide⟩, by decide, by decide +kernel⟩, rfl, (rfl), (rfl), (by decide +kernel), (by decide +kernel),
    (by decide +kernel)⟩,
   ⟨asked (seated { goodSeat with spaces := [(6, space1)] }) 0x0407 1 0 (fields 24 [(0, 8, 3), (16, 2, 6)]), 0, _, _, 1, _, ⟨_,
    ⟨rfl, rfl, rfl, rfl, by decide⟩, by decide, by decide +kernel⟩, rfl, (rfl), (rfl), (by unfold swapFieldsOk; decide +kernel)⟩,
   ⟨asked (seated { goodSeat with turn := 4, spaces := [(6, space1)] }) 0x0407 1 0 (fields 24 [(0, 8, 3), (8, 1, 1), (16, 2, 6)]),
    0, _, _, 1, _, ⟨_, ⟨rfl, rfl, rfl, rfl, by decide⟩, by decide, by decide +kernel⟩, rfl, (rfl), (rfl),
    (by unfold swapFieldsOk; decide +kernel), (by unfold swapLate; decide +kernel)⟩,
   ⟨asked (seated { goodSeat with spaces := [(6, space1)] }) 0x0407 1 0 (fields 24 [(0, 8, 3), (8, 1, 1), (16, 2, 7)]), 0, _, _, 1,
    _, ⟨_, ⟨rfl, rfl, rfl, rfl, by decide⟩, by decide, by decide +kernel⟩, rfl, (rfl), (rfl),
    (by unfold swapFieldsOk; decide +kernel), (by unfold swapLate; decide +kernel), (by decide +kernel)⟩,
   ⟨asked (seated { goodSeat with spaces := [(6, space1)] }) 0x0407 1 0 (fields 24 [(0, 8, 3), (8, 1, 1), (16, 2, 6)]), 0, _, _, 1,
    _, ⟨_, ⟨rfl, rfl, rfl, rfl, by decide⟩, by decide, by decide +kernel⟩, rfl, (rfl), (rfl),
    (by unfold swapFieldsOk; decide +kernel), (by unfold swapLate; decide +kernel), (by decide +kernel), (by decide +kernel)⟩,
   ⟨asked (withBytes (seated { goodSeat with spaces := [(6, space1)] }) [(0, [0, 0, 0, 0, 0, 0, 4, 0])]) 0x0407 1 0 (fields 24 [(8,
    1, 1), (16, 2, 6), (20, 4, 0xc2a2d356)]), 0, _, _, 1, _, ⟨_, ⟨rfl, rfl, rfl, rfl, by decide⟩, by decide, by decide +kernel⟩,
    rfl, (rfl), (rfl), (by unfold swapFieldsOk; decide +kernel), (by unfold swapLate; decide +kernel), (by decide +kernel),
    (by decide +kernel), (by decide +kernel)⟩,
   ⟨asked (withBytes (seated { goodSeat with spaces := [(6, space1)] }) [(0, [0, 0, 0, 0, 0, 0, 4, 0])]) 0x0407 1 0 (fields 24 [(8,
    1, 1), (16, 2, 6)]), 0, _, _, 1, _, ⟨_, ⟨rfl, rfl, rfl, rfl, by decide⟩, by decide, by decide +kernel⟩, rfl, (rfl), (rfl),
    (by unfold swapFieldsOk; decide +kernel), (by unfold swapLate; decide +kernel), (by decide +kernel), (by decide +kernel),
    (by decide +kernel)⟩⟩

theorem witness_FabricAndGroupCommandsTakeEffect :
    (∃ (s : State), ∃ id, ∃ (c : Cmd), s.canRun id 0x0501 c ∧ (∀ p, p < 24 → (s.port p).state = .disabled) ∧ chArg c.packet ≠ 0xFFFF) ∧
    (∃ (s : State), ∃ id, ∃ (c : Cmd), s.canRun id 0x0501 c ∧ (∀ p, p < 24 → (s.port p).state = .disabled) ∧ chArg c.packet = 0xFFFF) ∧
    (∃ (s : State), ∃ id, ∃ (c : Cmd), s.canRun id 0x0501 c ∧ ∃ p, p < 24 ∧ (s.port p).state ≠ .disabled) ∧
    (∃ (s : State), ∃ id, ∃ (c : Cmd), ∃ h, ∃ first, ∃ n, ∃ member, ∃ (p : Bytes), s.canRun id 0x0502 c ∧ h = chArg c.packet % 32 ∧
     first = chArg c.packet / 2 ^ 16 % 256 ∧ member = bit (chArg c.packet) 8 ∧ p = chPayload c.packet ∧ n = p.length / 8 ∧
     (25 < h ∨ 256 < first + n)) ∧
    (∃ (s : State), ∃ id, ∃ (c : Cmd), ∃ h, ∃ first, ∃ n, ∃ member, ∃ (p : Bytes), s.canRun id 0x0502 c ∧ h = chArg c.packet % 32 ∧
     first = chArg c.packet / 2 ^ 16 % 256 ∧ member = bit (chArg c.packet) 8 ∧ p = chPayload c.packet ∧ n = p.length / 8 ∧ h ≤ 25 ∧
     first + n ≤ 256 ∧ ∃ i, i < 4 * n ∧ 128 ≤ fld p (2 * i) 2) ∧
    (∃ (s : State), ∃ id, ∃ (c : Cmd), ∃ h, ∃ first, ∃ n, ∃ member, ∃ (p : Bytes), s.canRun id 0x0502 c ∧ h = chArg c.packet % 32 ∧
     first = chArg c.packet / 2 ^ 16 % 256 ∧ member = bit (chArg c.packet) 8 ∧ p = chPayload c.packet ∧ n = p.length / 8 ∧ h ≤ 25 ∧
     first + n ≤ 256 ∧ (∀ i, i < 4 * n → fld p (2 * i) 2 < 128) ∧ ∃ i, i < 4 * n ∧ routeOk (fld p (2 * i) 2) = false) ∧
    (∃ (s : State), ∃ id, ∃ (c : Cmd), ∃ h, ∃ first, ∃ n, ∃ member, ∃ (p : Bytes), s.canRun id 0x0502 c ∧ h = chArg c.packet % 32 ∧
     first = chArg c.packet / 2 ^ 16 % 256 ∧ member = bit (chArg c.packet) 8 ∧ p = chPayload c.packet ∧ n = p.length / 8 ∧ h ≤ 25 ∧
     first + n ≤ 256 ∧ (∀ i, i < 4 * n → fld p (2 * i) 2 < 128) ∧ (∀ i, i < 4 * n → routeOk (fld p (2 * i) 2) = true)) ∧
    (∃ (s : State), ∃ id, ∃ (c : Cmd), ∃ p, s.canRun id 0x0503 c ∧ p = chArg c.packet % 32 ∧ p < 24 ∧
     chArg c.packet / 2 ^ 8 % 8 = 0 ∧ (s.port p).state = .disabled) ∧
    (∃ (s : State), ∃ id, ∃ (c : Cmd), ∃ p, s.canRun id 0x0503 c ∧ p = chArg c.packet % 32 ∧ p < 24 ∧
     chArg c.packet / 2 ^ 8 % 8 = 0 ∧ (s.port p).state ≠ .disabled) ∧
    (∃ (s : State), ∃ id, ∃ (c : Cmd), ∃ p, s.canRun id 0x0503 c ∧ p = chArg c.packet % 32 ∧ p < 24 ∧
     chArg c.packet / 2 ^ 8 % 8 = 1 ∧ (s.port p).state = .disabled ∧ s.mod.failedPackage = false ∧ s.fab.node ≠ 0xFFFF ∧
     s.fab.routesWritten ≠ []) ∧
    (∃ (s : State), ∃ id, ∃ (c : Cmd), ∃ p, s.canRun id 0x0503 c ∧ p = chArg c.packet % 32 ∧ p < 24 ∧
     chArg c.packet / 2 ^ 8 % 8 = 1 ∧ (s.port p).state = .disabled ∧
     (s.mod.failedPackage = true ∨ s.fab.node = 0xFFFF ∨ s.fab.routesWritten = [])) ∧
    (∃ (s : State), ∃ id, ∃ (c : Cmd), ∃ p, s.canRun id 0x0503 c ∧ p = chArg c.packet % 32 ∧ p < 24 ∧
     chArg c.packet / 2 ^ 8 % 8 = 1 ∧ (s.port p).state ≠ .disabled ∧ (s.port p).state ≠ .quarantined) ∧
    (∃ (s : State), ∃ id, ∃ (c : Cmd), ∃ p, s.canRun id 0x0503 c ∧ p = chArg c.packet % 32 ∧ p < 24 ∧
     (chArg c.packet / 2 ^ 8 % 8 = 1 ∨ chArg c.packet / 2 ^ 8 % 8 = 2) ∧ (s.port p).state = .quarantined) ∧
    (∃ (s : State), ∃ id, ∃ (c : Cmd), ∃ p, s.canRun id 0x0503 c ∧ p = chArg c.packet % 32 ∧ p < 24 ∧
     chArg c.packet / 2 ^ 8 % 8 = 2 ∧ (s.port p).state ≠ .quarantined) ∧
    (∃ (s : State), ∃ id, ∃ (c : Cmd), ∃ p, s.canRun id 0x0503 c ∧ p = chArg c.packet % 32 ∧ p < 24 ∧ chArg c.packet / 2 ^ 8 % 8 = 3) ∧
    (∃ (s : State), ∃ id, ∃ (c : Cmd), ∃ p, s.canRun id 0x0503 c ∧ p = chArg c.packet % 32 ∧ p < 24 ∧ 4 ≤ chArg c.packet / 2 ^ 8 % 8) ∧
    (∃ (s : State), ∃ id, ∃ (c : Cmd), s.canRun id 0x0503 c ∧ 24 ≤ chArg c.packet % 32) ∧
    (∃ (s : State), ∃ id, ∃ (c : Cmd), ∃ (p : Bytes), ∃ (h : HubParams), s.canRun id 0x0504 c ∧ chPayload c.packet = p ∧
     h = { w1 := byteAt p 1, w2 := byteAt p 2, w3 := byteAt p 3, divert := fld p 4 2, gap := fld p 8 4, tc2Limit := fld p 12 4, resend := fld p 16 4 } ∧
     (zeros p 6 8 = false ∨ zeros p 20 24 = false)) ∧
    (∃ (s : State), ∃ id, ∃ (c : Cmd), ∃ (p : Bytes), ∃ (h : HubParams), s.canRun id 0x0504 c ∧ chPayload c.packet = p ∧
     h = { w1 := byteAt p 1, w2 := byteAt p 2, w3 := byteAt p 3, divert := fld p 4 2, gap := fld p 8 4, tc2Limit := fld p 12 4, resend := fld p 16 4 } ∧
     zeros p 6 8 = true ∧ zeros p 20 24 = true ∧ (byteAt p 0 < 2 ∧ 1 ≤ h.w1 ∧ h.w1 ≤ 15 ∧ 1 ≤ h.w2 ∧ h.w2 ≤ 15 ∧ 1 ≤ h.w3 ∧
     h.w3 ≤ 15 ∧ 8 ≤ h.divert ∧ h.divert ≤ 1024 ∧ 10 ≤ h.gap ∧ h.gap ≤ 50000 ∧ 100 ≤ h.tc2Limit ∧ h.tc2Limit ≤ 100000 ∧
     20 ≤ h.resend ∧ h.resend ≤ 20000)) ∧
    (∃ (s : State), ∃ id, ∃ (c : Cmd), ∃ (p : Bytes), ∃ (h : HubParams), s.canRun id 0x0504 c ∧ chPayload c.packet = p ∧
     h = { w1 := byteAt p 1, w2 := byteAt p 2, w3 := byteAt p 3, divert := fld p 4 2, gap := fld p 8 4, tc2Limit := fld p 12 4, resend := fld p 16 4 } ∧
     zeros p 6 8 = true ∧ zeros p 20 24 = true ∧
     (2 ≤ byteAt p 0 ∨ h.w1 = 0 ∨ 15 < h.w1 ∨ h.w2 = 0 ∨ 15 < h.w2 ∨ h.w3 = 0 ∨ 15 < h.w3 ∨ h.divert < 8 ∨ 1024 < h.divert ∨ h.gap < 10 ∨ 50000 < h.gap ∨ h.tc2Limit < 100 ∨ 100000 < h.tc2Limit ∨ h.resend < 20 ∨ 20000 < h.resend)) ∧
    (∃ (s : State), ∃ id, ∃ (c : Cmd), ∃ (x : Seat), ∃ n, ∃ (r : Bytes), ∃ k, ∃ m, s.canRun id 0x0506 c ∧ n = chSeat c.packet ∧
     s.seat? n = some x ∧ chPayload c.packet = r ∧ k = fld r 0 2 ∧ m = grMembers r ∧ (groupFieldsOk r = false ∨ ∃ g,
     FMap.find? s.ni.groups k = some g ∧ g.seat ≠ n)) ∧
    (∃ (s : State), ∃ id, ∃ (c : Cmd), ∃ (x : Seat), ∃ n, ∃ (r : Bytes), ∃ k, ∃ m, s.canRun id 0x0506 c ∧ n = chSeat c.packet ∧
     s.seat? n = some x ∧ chPayload c.packet = r ∧ k = fld r 0 2 ∧ m = grMembers r ∧ groupFieldsOk r = true ∧ (∀ g,
     FMap.find? s.ni.groups k = some g → g.seat = n) ∧
     (s.quotaAddr x (grNodes r) (2 * m) = none ∨ s.quotaAddr x (grRxBase r) (grRxLen r) = none ∨ s.descAddr x (grRecords r) (64 * recordSize m) = none)) ∧
    (∃ (s : State), ∃ id, ∃ (c : Cmd), ∃ (x : Seat), ∃ n, ∃ (r : Bytes), ∃ k, ∃ m, s.canRun id 0x0506 c ∧ n = chSeat c.packet ∧
     s.seat? n = some x ∧ chPayload c.packet = r ∧ k = fld r 0 2 ∧ m = grMembers r ∧ groupFieldsOk r = true ∧ (∀ g,
     FMap.find? s.ni.groups k = some g → g.seat = n) ∧ ∃ a, ∃ b, ∃ e, s.quotaAddr x (grNodes r) (2 * m) = some a ∧
     s.quotaAddr x (grRxBase r) (grRxLen r) = some b ∧ s.descAddr x (grRecords r) (64 * recordSize m) = some e ∧ ∃ q,
     s.rangePoison a (2 * m) = some q) ∧
    (∃ (s : State), ∃ id, ∃ (c : Cmd), ∃ (x : Seat), ∃ n, ∃ (r : Bytes), ∃ k, ∃ m, s.canRun id 0x0506 c ∧ n = chSeat c.packet ∧
     s.seat? n = some x ∧ chPayload c.packet = r ∧ k = fld r 0 2 ∧ m = grMembers r ∧ groupFieldsOk r = true ∧ (∀ g,
     FMap.find? s.ni.groups k = some g → g.seat = n) ∧ ∃ a, ∃ b, ∃ e, s.quotaAddr x (grNodes r) (2 * m) = some a ∧
     s.quotaAddr x (grRxBase r) (grRxLen r) = some b ∧ s.descAddr x (grRecords r) (64 * recordSize m) = some e ∧
     s.rangePoison a (2 * m) = none ∧
     ((listedNodes s a m)[grRank r]? ≠ some s.fab.node ∨ 0xFFFF ∈ listedNodes s a m ∨ ¬ (listedNodes s a m).Nodup)) ∧
    (∃ (s : State), ∃ id, ∃ (c : Cmd), ∃ (x : Seat), ∃ n, ∃ (r : Bytes), ∃ k, ∃ m, s.canRun id 0x0506 c ∧ n = chSeat c.packet ∧
     s.seat? n = some x ∧ chPayload c.packet = r ∧ k = fld r 0 2 ∧ m = grMembers r ∧ groupFieldsOk r = true ∧ (∀ g,
     FMap.find? s.ni.groups k = some g → g.seat = n) ∧ ∃ a, ∃ b, ∃ e, s.quotaAddr x (grNodes r) (2 * m) = some a ∧
     s.quotaAddr x (grRxBase r) (grRxLen r) = some b ∧ s.descAddr x (grRecords r) (64 * recordSize m) = some e ∧
     s.rangePoison a (2 * m) = none ∧ (listedNodes s a m)[grRank r]? = some s.fab.node ∧ 0xFFFF ∉ listedNodes s a m ∧
     (listedNodes s a m).Nodup ∧ recGroups x.record ≤ otherGroups s n k) ∧
    (∃ (s : State), ∃ id, ∃ (c : Cmd), ∃ (x : Seat), ∃ n, ∃ (r : Bytes), ∃ k, ∃ m, s.canRun id 0x0506 c ∧ n = chSeat c.packet ∧
     s.seat? n = some x ∧ chPayload c.packet = r ∧ k = fld r 0 2 ∧ m = grMembers r ∧ groupFieldsOk r = true ∧ (∀ g,
     FMap.find? s.ni.groups k = some g → g.seat = n) ∧ ∃ a, ∃ b, ∃ e, s.quotaAddr x (grNodes r) (2 * m) = some a ∧
     s.quotaAddr x (grRxBase r) (grRxLen r) = some b ∧ s.descAddr x (grRecords r) (64 * recordSize m) = some e ∧
     s.rangePoison a (2 * m) = none ∧ (listedNodes s a m)[grRank r]? = some s.fab.node ∧ 0xFFFF ∉ listedNodes s a m ∧
     (listedNodes s a m).Nodup ∧ otherGroups s n k < recGroups x.record ∧ ∃ g, FMap.find? s.ni.groups k = some g ∧
     (g.call ≠ none ∨ g.waiting ≠ [])) ∧
    (∃ (s : State), ∃ id, ∃ (c : Cmd), ∃ (x : Seat), ∃ n, ∃ (r : Bytes), ∃ k, ∃ m, s.canRun id 0x0506 c ∧ n = chSeat c.packet ∧
     s.seat? n = some x ∧ chPayload c.packet = r ∧ k = fld r 0 2 ∧ m = grMembers r ∧ groupFieldsOk r = true ∧ (∀ g,
     FMap.find? s.ni.groups k = some g → g.seat = n) ∧ ∃ a, ∃ b, ∃ e, s.quotaAddr x (grNodes r) (2 * m) = some a ∧
     s.quotaAddr x (grRxBase r) (grRxLen r) = some b ∧ s.descAddr x (grRecords r) (64 * recordSize m) = some e ∧
     s.rangePoison a (2 * m) = none ∧ (listedNodes s a m)[grRank r]? = some s.fab.node ∧ 0xFFFF ∉ listedNodes s a m ∧
     (listedNodes s a m).Nodup ∧ otherGroups s n k < recGroups x.record ∧ (∀ g, FMap.find? s.ni.groups k = some g → g.call = none ∧
     g.waiting = [])) ∧
    (∃ (s : State), ∃ id, ∃ (c : Cmd), ∃ (x : Seat), ∃ k, s.canRun id 0x0507 c ∧ s.seat? (chSeat c.packet) = some x ∧
     k = chArg c.packet % 1024 ∧ (∀ g, FMap.find? s.ni.groups k = some g → g.seat ≠ chSeat c.packet)) ∧
    (∃ (s : State), ∃ id, ∃ (c : Cmd), ∃ (x : Seat), ∃ k, s.canRun id 0x0507 c ∧ s.seat? (chSeat c.packet) = some x ∧
     k = chArg c.packet % 1024 ∧ ∃ g, FMap.find? s.ni.groups k = some g ∧ g.seat = chSeat c.packet ∧
     (g.call ≠ none ∨ g.waiting ≠ [])) ∧
    (∃ (s : State), ∃ id, ∃ (c : Cmd), ∃ (x : Seat), ∃ k, s.canRun id 0x0507 c ∧ s.seat? (chSeat c.packet) = some x ∧
     k = chArg c.packet % 1024 ∧ ∃ g, FMap.find? s.ni.groups k = some g ∧ g.seat = chSeat c.packet ∧ g.call = none ∧ g.waiting = []) ∧
    (∃ (s : State), ∃ id, ∃ (c : Cmd), ∃ (x : Seat), ∃ k, s.canRun id 0x0508 c ∧ s.seat? (chSeat c.packet) = some x ∧
     k = chArg c.packet % 1024 ∧ (∀ g, FMap.find? s.ni.groups k = some g → g.seat ≠ chSeat c.packet)) ∧
    (∃ (s : State), ∃ id, ∃ (c : Cmd), ∃ (x : Seat), ∃ k, s.canRun id 0x0508 c ∧ s.seat? (chSeat c.packet) = some x ∧
     k = chArg c.packet % 1024 ∧ ∃ g, FMap.find? s.ni.groups k = some g ∧ g.seat = chSeat c.packet ∧
     (g.call ≠ none ∨ g.waiting ≠ [])) ∧
    (∃ (s : State), ∃ id, ∃ (c : Cmd), ∃ (x : Seat), ∃ k, s.canRun id 0x0508 c ∧ s.seat? (chSeat c.packet) = some x ∧
     k = chArg c.packet % 1024 ∧ ∃ g, FMap.find? s.ni.groups k = some g ∧ g.seat = chSeat c.packet ∧ g.call = none ∧ g.waiting = []) :=
  ⟨⟨asked live 0x0501 0 5 [], 0, _, ⟨_, ⟨rfl, rfl, rfl, rfl, by decide⟩, by decide, by decide +kernel⟩, (by decide), by decide⟩,
   ⟨asked live 0x0501 0 0xFFFF [], 0, _, ⟨_, ⟨rfl, rfl, rfl, rfl, by decide⟩, by decide, by decide +kernel⟩, by decide, by decide⟩,
   ⟨asked (portIs { state := .up }) 0x0501 0 5 [], 0, _, ⟨_, ⟨rfl, rfl, rfl, rfl, by decide⟩, by decide, by decide +kernel⟩, 2,
    by decide, by decide⟩,
   ⟨asked live 0x0502 0 26 (List.replicate 8 0), 0, _, _, _, _, _, _, ⟨_, ⟨rfl, rfl, rfl, rfl, by decide⟩, by decide,
    by decide +kernel⟩, (rfl), (rfl), (rfl), (rfl), (rfl), (.inl (by decide +kernel))⟩,
   ⟨asked live 0x0502 0 25 (fields 8 [(6, 2, 128)]), 0, _, _, _, _, _, _, ⟨_, ⟨rfl, rfl, rfl, rfl, by decide⟩, by decide,
    by decide +kernel⟩, (rfl), (rfl), (rfl), (rfl), (rfl), (by decide +kernel), (by decide +kernel), 3, (by decide +kernel),
    (by decide +kernel)⟩,
   ⟨asked live 0x0502 0 25 (fields 8 [(6, 2, 56)]), 0, _, _, _, _, _, _, ⟨_, ⟨rfl, rfl, rfl, rfl, by decide⟩, by decide,
    by decide +kernel⟩, (rfl), (rfl), (rfl), (rfl), (rfl), (by decide +kernel), (by decide +kernel), (by decide +kernel), 3,
    (by decide +kernel), (by decide +kernel)⟩,
   ⟨asked (seated goodSeat) 0x0502 1 0 (List.replicate 64 0), 0, _, _, _, _, _, _, ⟨_, ⟨rfl, rfl, rfl, rfl, by decide⟩, by decide,
    by decide +kernel⟩, rfl, rfl, rfl, rfl, rfl, by decide, by decide, by decide, by decide⟩,
   ⟨asked (seated goodSeat) 0x0503 1 0 [], 0, _, _, ⟨_, ⟨rfl, rfl, rfl, rfl, by decide⟩, by decide, by decide +kernel⟩, rfl,
    by decide, by decide, by decide⟩,
   ⟨asked { portIs { state := .up } with mod := live.mod } 0x0503 0 2 [], 0, _, 2, ⟨_, ⟨rfl, rfl, rfl, rfl, by decide⟩, by decide,
    by decide +kernel⟩, (rfl), (by decide +kernel), (by decide +kernel), (by decide +kernel)⟩,
   ⟨asked { live with fab := { live.fab with node := 3, routesWritten := [2] } } 0x0503 0 0x102 [], 0, _, 2, ⟨_, ⟨rfl, rfl, rfl,
    rfl, by decide⟩, by decide, by decide +kernel⟩, (rfl), (by decide +kernel), (by decide +kernel), (by decide +kernel), by decide,
    by decide, by decide⟩,
   ⟨asked live 0x0503 0 0x102 [], 0, _, 2, ⟨_, ⟨rfl, rfl, rfl, rfl, by decide⟩, by decide, by decide +kernel⟩, (rfl),
    (by decide +kernel), (by decide +kernel), (by decide +kernel), (.inr (.inl (by decide +kernel)))⟩,
   ⟨asked { portIs { state := .up } with mod := live.mod } 0x0503 0 0x102 [], 0, _, 2, ⟨_, ⟨rfl, rfl, rfl, rfl, by decide⟩,
    by decide, by decide +kernel⟩, (rfl), (by decide +kernel), (by decide +kernel), (by decide +kernel), (by decide +kernel)⟩,
   ⟨asked { portIs { state := .quarantined } with mod := live.mod } 0x0503 0 0x202 [], 0, _, 2, ⟨_, ⟨rfl, rfl, rfl, rfl,
    by decide⟩, by decide, by decide +kernel⟩, (rfl), (by decide +kernel), (.inr (by decide +kernel)), (by decide +kernel)⟩,
   ⟨asked { portIs { state := .up } with mod := live.mod } 0x0503 0 0x202 [], 0, _, 2, ⟨_, ⟨rfl, rfl, rfl, rfl, by decide⟩,
    by decide, by decide +kernel⟩, (rfl), (by decide +kernel), (by decide +kernel), (by decide +kernel)⟩,
   ⟨asked live 0x0503 0 0x302 [], 0, _, 2, ⟨_, ⟨rfl, rfl, rfl, rfl, by decide⟩, by decide, by decide +kernel⟩, (rfl),
    (by decide +kernel), (by decide +kernel)⟩,
   ⟨asked live 0x0503 0 0x402 [], 0, _, 2, ⟨_, ⟨rfl, rfl, rfl, rfl, by decide⟩, by decide, by decide +kernel⟩, (rfl),
    (by decide +kernel), (by decide +kernel)⟩,
   ⟨asked live 0x0503 0 0x118 [], 0, _, ⟨_, ⟨rfl, rfl, rfl, rfl, by decide⟩, by decide, by decide +kernel⟩, (by decide +kernel)⟩,
   ⟨asked (seated goodSeat) 0x0504 1 0 (List.replicate 24 255), 0, _, _, _, ⟨_, ⟨rfl, rfl, rfl, rfl, by decide⟩, by decide,
    by decide +kernel⟩, rfl, rfl, by decide⟩,
   ⟨asked live 0x0504 0 0 (fields 24 [(1, 1, 1), (2, 1, 2), (3, 1, 3), (4, 2, 64), (8, 4, 100), (12, 4, 1000), (16, 4, 100)]), 0,
    _, _, _, ⟨_, ⟨rfl, rfl, rfl, rfl, by decide⟩, by decide, by decide +kernel⟩, (rfl), (rfl), (by decide +kernel),
    (by decide +kernel), (by decide +kernel)⟩,
   ⟨asked (seated goodSeat) 0x0504 1 0 (1 :: List.replicate 23 0), 0, _, _, _, ⟨_, ⟨rfl, rfl, rfl, rfl, by decide⟩, by decide,
    by decide +kernel⟩, rfl, rfl, by decide, by decide, by decide⟩,
   ⟨asked (seated goodSeat) 0x0506 1 0 (1 :: List.replicate 63 0), 0, _, _, _, _, _, _, ⟨_, ⟨rfl, rfl, rfl, rfl, by decide⟩,
    by decide, by decide +kernel⟩, rfl, rfl, rfl, rfl, rfl, by decide⟩,
   ⟨asked (withBytes (seated goodSeat) [(0, [0, 0, 5, 0])]) 0x0506 1 0 (fields 64 [(0, 2, 3), (4, 2, 2), (6, 1, 2), (8, 4, 10),
    (12, 4, 1000), (16, 8, 0x1900000000), (32, 8, 4096), (40, 8, 8192)]), 0, _, _, 1, _, _, _, ⟨_, ⟨rfl, rfl, rfl, rfl, by decide⟩,
    by decide, by decide +kernel⟩, (rfl), (rfl), (rfl), (rfl), (rfl), (by decide +kernel), (fun _ h => nomatch h),
    (.inl (by decide +kernel))⟩,
   ⟨asked { (withBytes (seated goodSeat) [(0, [0, 0, 5, 0])]) with poison := [(0, 2)] } 0x0506 1 0 groupRecord, 0, _, _, 1, _, _,
    _, ⟨_, ⟨rfl, rfl, rfl, rfl, by decide⟩, by decide, by decide +kernel⟩, (rfl), (rfl), (rfl), (rfl), (rfl), (by decide +kernel),
    (fun _ h => nomatch h), 0, 4096, 8192, (by decide +kernel), (by decide +kernel), (by decide +kernel), 2, (by decide +kernel)⟩,
   ⟨asked (withBytes (seated goodSeat) [(0, [1, 0, 5, 0])]) 0x0506 1 0 groupRecord, 0, _, _, 1, _, _, _, ⟨_, ⟨rfl, rfl, rfl, rfl,
    by decide⟩, by decide, by decide +kernel⟩, (rfl), (rfl), (rfl), (rfl), (rfl), (by decide +kernel), (fun _ h => nomatch h), 0,
    4096, 8192, (by decide +kernel), (by decide +kernel), (by decide +kernel), (by decide +kernel), (.inl (by decide +kernel))⟩,
   ⟨asked (withBytes (seated { goodSeat with record := goodRecord.take 44 ++ [0, 0] ++ goodRecord.drop 46 }) [(0, [0, 0, 5,
    0])]) 0x0506 1 0 groupRecord, 0, _, _, 1, _, _, _, ⟨_, ⟨rfl, rfl, rfl, rfl, by decide⟩, by decide, by decide +kernel⟩, (rfl),
    (rfl), (rfl), (rfl), (rfl), (by decide +kernel), (fun _ h => nomatch h), 0, 4096, 8192, (by decide +kernel),
    (by decide +kernel), (by decide +kernel), (by decide +kernel), (by decide +kernel), (by decide +kernel), (by decide +kernel),
    (by decide +kernel)⟩,
   ⟨asked { (withBytes (seated goodSeat) [(0, [0, 0, 5, 0])]) with ni := { groups := [(3, { group0 with call := some openCall })] } } 0x0506 1 0 groupRecord,
    0, _, _, 1, _, _, _, ⟨_, ⟨rfl, rfl, rfl, rfl, by decide⟩, by decide, by decide +kernel⟩, (rfl), (rfl), (rfl), (rfl), (rfl),
    (by decide +kernel), (fun _ h => by cases h; rfl), 0, 4096, 8192, (by decide +kernel), (by decide +kernel), (by decide +kernel),
    (by decide +kernel), (by decide +kernel), (by decide +kernel), (by decide +kernel), (by decide +kernel), _, (rfl),
    (.inl (fun h => nomatch h))⟩,
   ⟨asked { (withBytes (seated goodSeat) [(0, [0, 0, 5, 0])]) with ni := { groups := [(3, group0)] } } 0x0506 1 0 groupRecord, 0,
    _, _, 1, _, _, _, ⟨_, ⟨rfl, rfl, rfl, rfl, by decide⟩, by decide, by decide +kernel⟩, (rfl), (rfl), (rfl), (rfl), (rfl),
    (by decide +kernel), (fun _ h => by cases h; rfl), 0, 4096, 8192, (by decide +kernel), (by decide +kernel), (by decide +kernel),
    (by decide +kernel), (by decide +kernel), (by decide +kernel), (by decide +kernel), (by decide +kernel),
    (fun _ h => by cases h; exact ⟨rfl, rfl⟩)⟩,
   ⟨asked (seated { goodSeat with turnBegun := true, state := .running }) 0x0507 1 0 [], 0, _, _, _, ⟨_, ⟨rfl, rfl, rfl, rfl,
    by decide⟩, by decide, by decide +kernel⟩, rfl, rfl, by decide⟩,
   ⟨asked { seated goodSeat with ni := { groups := [(3, { group0 with call := some openCall })] } } 0x0507 1 3 [], 0, _, _, 3, ⟨_,
    ⟨rfl, rfl, rfl, rfl, by decide⟩, by decide, by decide +kernel⟩, rfl, (rfl), _, (rfl), (rfl), (.inl (fun h => nomatch h))⟩,
   ⟨asked { seated goodSeat with ni := { groups := [(3, group0)] } } 0x0507 1 3 [], 0, _, _, 3, ⟨_, ⟨rfl, rfl, rfl, rfl,
    by decide⟩, by decide, by decide +kernel⟩, rfl, (rfl), _, (rfl), (rfl), by decide, by decide⟩,
   ⟨asked (seated { goodSeat with turnBegun := true, state := .running }) 0x0508 1 0 [], 0, _, _, _, ⟨_, ⟨rfl, rfl, rfl, rfl,
    by decide⟩, by decide, by decide +kernel⟩, rfl, rfl, by decide⟩,
   ⟨asked { seated goodSeat with ni := { groups := [(3, { group0 with call := some openCall })] } } 0x0508 1 3 [], 0, _, _, 3, ⟨_,
    ⟨rfl, rfl, rfl, rfl, by decide⟩, by decide, by decide +kernel⟩, rfl, (rfl), _, (rfl), (rfl), (.inl (fun h => nomatch h))⟩,
   ⟨asked { seated goodSeat with ni := { groups := [(3, group0)] } } 0x0508 1 3 [], 0, _, _, 3, ⟨_, ⟨rfl, rfl, rfl, rfl,
    by decide⟩, by decide, by decide +kernel⟩, rfl, (rfl), _, (rfl), (rfl), by decide, by decide⟩⟩

theorem witness_NamespaceCommandsTakeEffect :
    (∃ (s : State), ∃ id, ∃ (c : Cmd), ∃ k, ∃ p, s.canRun id 0x0601 c ∧ s.flash.available = true ∧ k = chArg c.packet ∧
     p = c.port?.getD 0 ∧ k = 0) ∧
    (∃ (s : State), ∃ id, ∃ (c : Cmd), ∃ k, ∃ p, s.canRun id 0x0601 c ∧ s.flash.available = true ∧ k = chArg c.packet ∧
     p = c.port?.getD 0 ∧ 0 < k ∧ s.extentsFree < k) ∧
    (∃ (s : State), ∃ id, ∃ (c : Cmd), ∃ k, ∃ p, s.canRun id 0x0601 c ∧ s.flash.available = true ∧ k = chArg c.packet ∧
     p = c.port?.getD 0 ∧ 0 < k ∧ k ≤ s.extentsFree ∧ (s.allot p).extents < s.extentsOf p + k) ∧
    (∃ (s : State) (id : Nat) (c : Cmd) (k p : Nat), s.canRun id 0x0601 c ∧ s.flash.available = true ∧ k = chArg c.packet ∧
     p = c.port?.getD 0 ∧ 0 < k ∧ k ≤ s.extentsFree ∧ s.extentsOf p + k ≤ (s.allot p).extents ∧ (∀ m, m < 65536 →
     (FMap.find? s.flash.live.nss m).isSome = true)) ∧
    (∃ (s : State), ∃ id, ∃ (c : Cmd), ∃ k, ∃ p, s.canRun id 0x0601 c ∧ s.flash.available = true ∧ k = chArg c.packet ∧
     p = c.port?.getD 0 ∧ 0 < k ∧ k ≤ s.extentsFree ∧ s.extentsOf p + k ≤ (s.allot p).extents ∧ ∃ n, n < 65536 ∧
     FMap.find? s.flash.live.nss n = none ∧ (∀ m, m < n → (FMap.find? s.flash.live.nss m).isSome = true)) ∧
    (∃ (s : State), ∃ id, ∃ (c : Cmd), ∃ n, s.canRun id 0x0602 c ∧ s.flash.available = true ∧ n = chArg c.packet ∧
     FMap.find? s.flash.live.nss n = none) ∧
    (∃ (s : State), ∃ id, ∃ (c : Cmd), ∃ n, s.canRun id 0x0602 c ∧ s.flash.available = true ∧ n = chArg c.packet ∧ ∃ v,
     FMap.find? s.flash.live.nss n = some v ∧ v.port ≠ c.port?.getD 0) ∧
    (∃ (s : State), ∃ id, ∃ (c : Cmd), ∃ n, s.canRun id 0x0602 c ∧ s.flash.available = true ∧ n = chArg c.packet ∧ ∃ v,
     FMap.find? s.flash.live.nss n = some v ∧ v.port = c.port?.getD 0 ∧ s.nsSeats n ≠ []) ∧
    (∃ (s : State), ∃ id, ∃ (c : Cmd), ∃ n, s.canRun id 0x0602 c ∧ s.flash.available = true ∧ n = chArg c.packet ∧ ∃ v,
     FMap.find? s.flash.live.nss n = some v ∧ v.port = c.port?.getD 0 ∧ s.nsSeats n = []) ∧
    (∃ (s : State), ∃ id, ∃ (c : Cmd), ∃ (x : Seat), ∃ n, s.canRun id 0x0603 c ∧ s.seat? (chSeat c.packet) = some x ∧
     s.flash.available = true ∧ n = chArg c.packet % 65536 ∧ FMap.find? s.flash.live.nss n = none) ∧
    (∃ (s : State), ∃ id, ∃ (c : Cmd), ∃ (x : Seat), ∃ n, s.canRun id 0x0603 c ∧ s.seat? (chSeat c.packet) = some x ∧
     s.flash.available = true ∧ n = chArg c.packet % 65536 ∧ ∃ v, FMap.find? s.flash.live.nss n = some v ∧
     v.port ≠ chSeat c.packet / 16) ∧
    (∃ (s : State), ∃ id, ∃ (c : Cmd), ∃ (x : Seat), ∃ n, s.canRun id 0x0603 c ∧ s.seat? (chSeat c.packet) = some x ∧
     s.flash.available = true ∧ n = chArg c.packet % 65536 ∧ ∃ v, FMap.find? s.flash.live.nss n = some v ∧
     v.port = chSeat c.packet / 16 ∧ (x.ns.isSome = true ∨ (bit (chArg c.packet) 16 = true ∧
     s.nsSeats n ≠ []) ∨ (∃ ks ∈ s.nsSeats n, ks.2 = true))) ∧
    (∃ (s : State), ∃ id, ∃ (c : Cmd), ∃ (x : Seat), ∃ n, s.canRun id 0x0603 c ∧ s.seat? (chSeat c.packet) = some x ∧
     s.flash.available = true ∧ n = chArg c.packet % 65536 ∧ ∃ v, FMap.find? s.flash.live.nss n = some v ∧
     v.port = chSeat c.packet / 16 ∧ x.ns = none ∧ (bit (chArg c.packet) 16 = false ∨ s.nsSeats n = []) ∧ (∀ ks ∈ s.nsSeats n,
     ks.2 = false)) ∧
    (∃ (s : State), ∃ id, ∃ (c : Cmd), ∃ (x : Seat), s.canRun id 0x0604 c ∧ s.seat? (chSeat c.packet) = some x ∧
     s.flash.available = true ∧ x.ns = none) ∧
    (∃ (s : State), ∃ id, ∃ (c : Cmd), ∃ (x : Seat), s.canRun id 0x0604 c ∧ s.seat? (chSeat c.packet) = some x ∧
     s.flash.available = true ∧ x.ns.isSome = true ∧ s.fillsOpen (chSeat c.packet) = true) ∧
    (∃ (s : State), ∃ id, ∃ (c : Cmd), ∃ (x : Seat), s.canRun id 0x0604 c ∧ s.seat? (chSeat c.packet) = some x ∧
     s.flash.available = true ∧ x.ns.isSome = true ∧ s.fillsOpen (chSeat c.packet) = false) ∧
    (∃ (s : State), ∃ id, ∃ (c : Cmd), s.canRun id 0x0607 c ∧ s.flash.available = true) ∧
    (∃ (s : State), ∃ id, ∃ (c : Cmd), s.flash.available = false ∧ s.canRun id 0x0601 c) ∧
    (∃ (s : State), ∃ id, ∃ (c : Cmd), s.flash.available = false ∧ s.canRun id 0x0602 c) ∧
    (∃ (s : State), ∃ id, ∃ (c : Cmd), s.flash.available = false ∧ s.canRun id 0x0603 c) ∧
    (∃ (s : State), ∃ id, ∃ (c : Cmd), s.flash.available = false ∧ s.canRun id 0x0604 c) ∧
    (∃ (s : State), ∃ id, ∃ (c : Cmd), s.flash.available = false ∧ s.canRun id 0x0605 c) ∧
    (∃ (s : State), ∃ id, ∃ (c : Cmd), s.flash.available = false ∧ s.canRun id 0x0606 c) ∧
    (∃ (s : State), ∃ id, ∃ (c : Cmd), s.flash.available = false ∧ s.canRun id 0x0607 c) :=
  ⟨⟨asked { live with flash := { available := true }, host := built.host } 0x0601 0 0 [], 0, _, _, _, ⟨_, ⟨rfl, rfl, rfl, rfl,
    by decide⟩, by decide, by decide +kernel⟩, (rfl), (rfl), (rfl), (by decide +kernel)⟩,
   ⟨asked { live with flash := { available := true }, host := built.host } 0x0601 0 0xFFFFFFFF [], 0, _, _, _, ⟨_, ⟨rfl, rfl, rfl,
    rfl, by decide⟩, by decide, by decide +kernel⟩, (rfl), (rfl), (rfl), (by decide +kernel), (by decide +kernel)⟩,
   ⟨asked { live with flash := { available := true } } 0x0601 0 1 [], 0, _, _, _, ⟨_, ⟨rfl, rfl, rfl, rfl, by decide⟩, by decide,
    by decide +kernel⟩, (rfl), (rfl), (rfl), (by decide +kernel), (by decide +kernel), (by decide +kernel)⟩,
   crowded_full.elim (fun s h => h.elim (fun c h => ⟨s, 0, c, 1, _, h.1, h.2.1, h.2.2.1, rfl, h.2.2.2.1, h.2.2.2.2.1,
    h.2.2.2.2.2.1, h.2.2.2.2.2.2⟩)),
   ⟨asked { live with flash := { available := true }, host := built.host } 0x0601 0 1 [], 0, _, _, _, ⟨_, ⟨rfl, rfl, rfl, rfl,
    by decide⟩, by decide, by decide +kernel⟩, (rfl), (rfl), (rfl), (by decide +kernel), (by decide +kernel), (by decide +kernel),
    0, (by decide +kernel), (rfl), (fun _ h => absurd h (Nat.not_lt_zero _))⟩,
   ⟨asked { seated goodSeat with flash := { available := true, live := { nss := [] } } } 0x0602 0 0 [], 0, _, _, ⟨_, ⟨rfl, rfl,
    rfl, rfl, by decide⟩, by decide, by decide +kernel⟩, (rfl), (rfl), (rfl)⟩,
   ⟨asked { seated goodSeat with flash := { available := true, live := { nss := [(0, ⟨1, 2⟩)] } } } 0x0602 0 0 [], 0, _, _, ⟨_,
    ⟨rfl, rfl, rfl, rfl, by decide⟩, by decide, by decide +kernel⟩, (rfl), (rfl), _, (rfl), (by decide +kernel)⟩,
   ⟨asked { seated { goodSeat with ns := some (0, false) } with flash := { available := true, live := { nss := [(0, ⟨0, 2⟩)] } } } 0x0602 0 0 [],
    0, _, _, ⟨_, ⟨rfl, rfl, rfl, rfl, by decide⟩, by decide, by decide +kernel⟩, (rfl), (rfl), _, (rfl), (by decide +kernel),
    (by decide +kernel)⟩,
   ⟨asked { seated goodSeat with flash := { available := true, live := { nss := [(0, ⟨0, 2⟩)] } } } 0x0602 0 0 [], 0, _, _, ⟨_,
    ⟨rfl, rfl, rfl, rfl, by decide⟩, by decide, by decide +kernel⟩, (rfl), (rfl), _, (rfl), (by decide +kernel),
    (by decide +kernel)⟩,
   ⟨asked { seated goodSeat with flash := { available := true, live := { nss := [] } } } 0x0603 1 0 [], 0, _, _, _, ⟨_, ⟨rfl, rfl,
    rfl, rfl, by decide⟩, by decide, by decide +kernel⟩, (rfl), (rfl), (rfl), (rfl)⟩,
   ⟨asked { seated goodSeat with flash := { available := true, live := { nss := [(0, ⟨1, 2⟩)] } } } 0x0603 1 0 [], 0, _, _, _, ⟨_,
    ⟨rfl, rfl, rfl, rfl, by decide⟩, by decide, by decide +kernel⟩, (rfl), (rfl), (rfl), _, (rfl), (by decide +kernel)⟩,
   ⟨asked { seated { goodSeat with ns := some (0, false) } with flash := { available := true, live := { nss := [(0, ⟨0, 2⟩)] } } } 0x0603 1 0 [],
    0, _, _, _, ⟨_, ⟨rfl, rfl, rfl, rfl, by decide⟩, by decide, by decide +kernel⟩, (rfl), (rfl), (rfl), _, (rfl),
    (by decide +kernel), (.inl rfl)⟩,
   ⟨asked { seated goodSeat with flash := { available := true, live := { nss := [(0, ⟨0, 2⟩)] } } } 0x0603 1 0 [], 0, _, _, _, ⟨_,
    ⟨rfl, rfl, rfl, rfl, by decide⟩, by decide, by decide +kernel⟩, (rfl), (rfl), (rfl), _, (rfl), (by decide +kernel), (rfl),
    (.inl (by decide +kernel)), (by decide +kernel)⟩,
   ⟨asked { seated goodSeat with flash := { available := true, live := { nss := [] } } } 0x0604 1 0 [], 0, _, _, ⟨_, ⟨rfl, rfl,
    rfl, rfl, by decide⟩, by decide, by decide +kernel⟩, rfl, (rfl), (rfl)⟩,
   ⟨asked { flashy with flash := { flashy.flash with fills := [(0, fill1)] } } 0x0604 1 0 [], 0, _, _, ⟨_, ⟨rfl, rfl, rfl, rfl,
    by decide⟩, by decide, by decide +kernel⟩, rfl, (rfl), (rfl), (by decide +kernel)⟩,
   ⟨asked flashy 0x0604 1 0 [], 0, _, _, ⟨_, ⟨rfl, rfl, rfl, rfl, by decide⟩, by decide, by decide +kernel⟩, rfl, (rfl), (rfl),
    (by decide +kernel)⟩,
   ⟨asked flashy 0x0607 0 0 [], 0, _, ⟨_, ⟨rfl, rfl, rfl, rfl, by decide⟩, by decide, by decide +kernel⟩, by decide⟩,
   ⟨asked live 1537 0 1 [], 0, _, by decide, ⟨_, ⟨rfl, rfl, rfl, rfl, by decide⟩, by decide, by decide +kernel⟩⟩,
   ⟨asked live 1538 0 0 [], 0, _, by decide, ⟨_, ⟨rfl, rfl, rfl, rfl, by decide⟩, by decide, by decide +kernel⟩⟩,
   ⟨asked (seated goodSeat) 1539 1 0 [], 0, _, by decide, ⟨_, ⟨rfl, rfl, rfl, rfl, by decide⟩, by decide, by decide +kernel⟩⟩,
   ⟨asked (seated goodSeat) 1540 1 0 [], 0, _, by decide, ⟨_, ⟨rfl, rfl, rfl, rfl, by decide⟩, by decide, by decide +kernel⟩⟩,
   ⟨asked (seated goodSeat) 1541 1 0 (fields 24 []), 0, _, by decide, ⟨_, ⟨rfl, rfl, rfl, rfl, by decide⟩, by decide,
    by decide +kernel⟩⟩,
   ⟨asked (seated goodSeat) 1542 1 0 (fields 16 []), 0, _, by decide, ⟨_, ⟨rfl, rfl, rfl, rfl, by decide⟩, by decide,
    by decide +kernel⟩⟩,
   ⟨asked live 1543 0 0 [], 0, _, by decide, ⟨_, ⟨rfl, rfl, rfl, rfl, by decide⟩, by decide, by decide +kernel⟩⟩⟩

theorem witness_StoreCommandsWriteUnits :
    (∃ (s : State), ∃ id, ∃ (c : Cmd), ∃ (x : Seat), ∃ (p : Bytes), ∃ off, ∃ src, ∃ len, s.canRun id 0x0605 c ∧
     s.seat? (chSeat c.packet) = some x ∧ s.flash.available = true ∧ p = chPayload c.packet ∧ off = fld p 0 8 ∧ src = fld p 8 8 ∧
     len = fld p 16 8) ∧
    (∃ (s : State), ∃ id, ∃ (c : Cmd), ∃ (x : Seat), ∃ (p : Bytes), ∃ off, ∃ len, s.canRun id 0x0606 c ∧
     s.seat? (chSeat c.packet) = some x ∧ s.flash.available = true ∧ p = chPayload c.packet ∧ off = fld p 0 8 ∧ len = fld p 8 8) ∧
    (∃ (s : State), ∃ id, ∃ (c : Cmd), s.canRun id 0x0608 c) :=
  ⟨⟨asked flashy 0x0605 1 0 (fields 24 [(16, 8, 4096)]), 0, _, _, _, _, _, _, ⟨_, ⟨rfl, rfl, rfl, rfl, by decide⟩, by decide,
    by decide +kernel⟩, rfl, (rfl), (rfl), (rfl), (rfl), (rfl)⟩,
   ⟨asked flashy 0x0606 1 0 (fields 16 [(8, 8, 4096)]), 0, _, _, _, _, _, ⟨_, ⟨rfl, rfl, rfl, rfl, by decide⟩, by decide,
    by decide +kernel⟩, rfl, (rfl), (rfl), (rfl), (rfl)⟩,
   ⟨asked live 0x0608 0 0 [], 0, _, ⟨_, ⟨rfl, rfl, rfl, rfl, by decide⟩, by decide, by decide +kernel⟩⟩⟩

theorem witness_RecordsAndTilesByCommand :
    (∃ (s : State), ∃ id, ∃ (c : Cmd), ∃ (x : Seat), s.canRun id 0x0701 c ∧ s.seat? (chSeat c.packet) = some x) ∧
    (∃ (s : State), ∃ id, ∃ (c : Cmd), ∃ (x : Seat), ∃ n, ∃ k, s.canRun id 0x0703 c ∧ n = chSeat c.packet ∧ s.seat? n = some x ∧
     k = chArg c.packet / 256 % 256 ∧ bit (chArg c.packet) 0 = true) ∧
    (∃ (s : State), ∃ id, ∃ (c : Cmd), ∃ (x : Seat), ∃ n, ∃ k, s.canRun id 0x0703 c ∧ n = chSeat c.packet ∧ s.seat? n = some x ∧
     k = chArg c.packet / 256 % 256 ∧ bit (chArg c.packet) 0 = false ∧ bit (chArg c.packet) 1 = true ∧ c.isMgmt = false ∧
     c.isPhysical = false) ∧
    (∃ (s : State), ∃ id, ∃ (c : Cmd), ∃ (x : Seat), ∃ n, ∃ k, s.canRun id 0x0703 c ∧ n = chSeat c.packet ∧ s.seat? n = some x ∧
     k = chArg c.packet / 256 % 256 ∧ bit (chArg c.packet) 0 = false ∧ bit (chArg c.packet) 1 = true ∧
     (c.isMgmt = true ∨ c.isPhysical = true)) ∧
    (∃ (s : State), ∃ id, ∃ (c : Cmd), ∃ (x : Seat), ∃ n, ∃ k, s.canRun id 0x0703 c ∧ n = chSeat c.packet ∧ s.seat? n = some x ∧
     k = chArg c.packet / 256 % 256 ∧ bit (chArg c.packet) 0 = false ∧ bit (chArg c.packet) 1 = false) ∧
    (∃ (s : State), ∃ id, ∃ (c : Cmd), ∃ (x : Seat), ∃ n, ∃ (p : Bytes), s.canRun id 0x0702 c ∧ n = chSeat c.packet ∧
     s.seat? n = some x ∧ chPayload c.packet = p ∧ ∃ st, s.pmcSelectCheck c x p = some st) ∧
    (∃ (s : State), ∃ id, ∃ (c : Cmd), ∃ (x : Seat), ∃ n, ∃ (p : Bytes), s.canRun id 0x0702 c ∧ n = chSeat c.packet ∧
     s.seat? n = some x ∧ chPayload c.packet = p ∧ s.pmcSelectCheck c x p = none) ∧
    (∃ (s : State), ∃ id, ∃ (c : Cmd), ∃ k, s.canRun id 0x0801 c ∧ k = chArg c.packet ∧ c.port? = none) ∧
    (∃ (s : State), ∃ id, ∃ (c : Cmd), ∃ k, s.canRun id 0x0801 c ∧ k = chArg c.packet ∧ ∃ p, c.port? = some p) ∧
    (∃ (s : State), ∃ id, ∃ (c : Cmd), s.canRun id 0x0802 c) ∧
    (∃ (s : State), ∃ id, ∃ (c : Cmd), ∃ q, s.canRun id 0x0803 c ∧ q = chArg c.packet ∧ q < 1024 ∧ (s.ptile q).fence = none) ∧
    (∃ (s : State), ∃ id, ∃ (c : Cmd), ∃ q, s.canRun id 0x0803 c ∧ q = chArg c.packet ∧ (1024 ≤ q ∨ (s.ptile q).fence.isSome = true)) ∧
    (∃ (s : State), ∃ id, ∃ (c : Cmd), ∃ q, s.canRun id 0x0804 c ∧ q = chArg c.packet ∧ (s.ptile q).fence.isSome = true ∧
     (s.ptile q).retired = false) ∧
    (∃ (s : State), ∃ id, ∃ (c : Cmd), ∃ q, s.canRun id 0x0804 c ∧ q = chArg c.packet ∧
     ((s.ptile q).fence = none ∨ (s.ptile q).retired = true)) :=
  ⟨⟨asked (seated goodSeat) 0x0701 1 0 [], 0, _, _, ⟨_, ⟨rfl, rfl, rfl, rfl, by decide⟩, by decide, by decide +kernel⟩, rfl⟩,
   ⟨asked (seated { goodSeat with turnBegun := true, state := .running }) 0x0703 1 1 [], 0, _, _, _, _, ⟨_, ⟨rfl, rfl, rfl, rfl,
    by decide⟩, by decide, by decide +kernel⟩, rfl, rfl, rfl, by decide⟩,
   ⟨{ seated goodSeat with host := { built.host with cmds := [{ id := 0, issuer := .ring 1 0, packet := packet 0x0703 1 2 [], sqHead := 0, begun := false, discard := false, acceptedAt := 0 }], nextCmd := 1 } },
    0, _, _, 1, _, ⟨_, ⟨rfl, rfl, rfl, rfl, by decide⟩, by decide, by decide +kernel⟩, (rfl), (rfl), (rfl), by decide, by decide,
    by decide, by decide⟩,
   ⟨asked (seated goodSeat) 0x0703 1 2 [], 0, _, _, 1, _, ⟨_, ⟨rfl, rfl, rfl, rfl, by decide⟩, by decide, by decide +kernel⟩,
    (rfl), (rfl), (rfl), by decide, by decide, (.inl rfl)⟩,
   ⟨asked (seated { goodSeat with turnBegun := true, state := .running }) 0x0703 1 0 [], 0, _, _, _, _, ⟨_, ⟨rfl, rfl, rfl, rfl,
    by decide⟩, by decide, by decide +kernel⟩, rfl, rfl, rfl, by decide, by decide⟩,
   ⟨asked (seated goodSeat) 0x0702 1 0 (1 :: List.replicate 151 0), 0, _, _, _, _, ⟨_, ⟨rfl, rfl, rfl, rfl, by decide⟩, by decide,
    by decide +kernel⟩, rfl, rfl, rfl, _, rfl⟩,
   ⟨asked (seated goodSeat) 0x0702 1 0 (List.replicate 152 0), 0, _, _, _, _, ⟨_, ⟨rfl, rfl, rfl, rfl, by decide⟩, by decide,
    by decide +kernel⟩, rfl, rfl, rfl, by decide⟩,
   ⟨asked (seated goodSeat) 0x0801 1 0 [], 0, _, _, ⟨_, ⟨rfl, rfl, rfl, rfl, by decide⟩, by decide, by decide +kernel⟩, rfl,
    by decide⟩,
   ⟨{ live with host := { cmds := [{ id := 0, issuer := .ring 0 0, packet := packet 0x0801 0 0 [], sqHead := 0, begun := false, discard := false, acceptedAt := 0 }], nextCmd := 1, configured := [true, false] } },
    0, _, _, ⟨_, ⟨rfl, rfl, rfl, rfl, by decide⟩, by decide, by decide +kernel⟩, (rfl), 0, (rfl)⟩,
   ⟨asked live 0x0802 0 0 [], 0, _, ⟨_, ⟨rfl, rfl, rfl, rfl, by decide⟩, by decide, by decide +kernel⟩⟩,
   ⟨asked (inState .init) 0x0803 0 0 [], 0, _, _, ⟨_, ⟨rfl, rfl, rfl, rfl, by decide⟩, by decide, by decide +kernel⟩, rfl,
    by decide, by decide⟩,
   ⟨asked { live with units := { ptiles := [(5, { fence := some .command })] } } 0x0803 0 5 [], 0, _, _, ⟨_, ⟨rfl, rfl, rfl, rfl,
    by decide⟩, by decide, by decide +kernel⟩, (rfl), (.inr (by decide +kernel))⟩,
   ⟨asked { live with units := { ptiles := [(5, { fence := some .command })] } } 0x0804 0 5 [], 0, _, 5, ⟨_, ⟨rfl, rfl, rfl, rfl,
    by decide⟩, by decide, by decide +kernel⟩, (rfl), by decide, by decide⟩,
   ⟨asked (seated { goodSeat with turnBegun := true, state := .running }) 0x0804 1 0 [], 0, _, _, ⟨_, ⟨rfl, rfl, rfl, rfl,
    by decide⟩, by decide, by decide +kernel⟩, rfl, by decide⟩⟩

theorem witness_LimitsAndShutdownByCommand :
    (∃ (s : State), ∃ id, ∃ (c : Cmd), ∃ (p : Bytes), ∃ n, s.canRun id 0x0806 c ∧ chPayload c.packet = p ∧ n = p.length / 16 ∧
     (p.length = 0 ∨ p.length % 16 ≠ 0 ∨ ∃ i, i < n ∧ (zeros (boundRecord p i) 2 4 = false ∨ zeros (boundRecord p i) 12 16 = false))) ∧
    (∃ (s : State), ∃ id, ∃ (c : Cmd), ∃ (p : Bytes), ∃ n, s.canRun id 0x0806 c ∧ chPayload c.packet = p ∧ n = p.length / 16 ∧
     0 < p.length ∧ p.length % 16 = 0 ∧ (∀ i, i < n → zeros (boundRecord p i) 2 4 = true ∧ zeros (boundRecord p i) 12 16 = true) ∧
     (∃ i, i < n ∧
     (monitorExists (fld (boundRecord p i) 0 2) = false ∨ warnInside (s.boundsOf (boundRecord p i)).2 = false ∨ settable (fld (boundRecord p i) 0 2) (s.boundsOf (boundRecord p i)).2 = false))) ∧
    (∃ (s : State), ∃ id, ∃ (c : Cmd), ∃ (p : Bytes), ∃ n, s.canRun id 0x0806 c ∧ chPayload c.packet = p ∧ n = p.length / 16 ∧
     0 < p.length ∧ p.length % 16 = 0 ∧ (∀ i, i < n → zeros (boundRecord p i) 2 4 = true ∧ zeros (boundRecord p i) 12 16 = true) ∧
     (∀ i, i < n → monitorExists (fld (boundRecord p i) 0 2) = true ∧ warnInside (s.boundsOf (boundRecord p i)).2 = true ∧
     settable (fld (boundRecord p i) 0 2) (s.boundsOf (boundRecord p i)).2 = true)) ∧
    (∃ (s : State), ∃ id, ∃ (c : Cmd), s.canRun id 0x0808 c ∧ s.seats ≠ []) ∧
    (∃ (s : State), ∃ id, ∃ (c : Cmd), s.canRun id 0x0808 c ∧ s.seats = []) :=
  ⟨⟨asked (seated goodSeat) 0x0806 1 0 (List.replicate 64 255), 0, _, _, _, ⟨_, ⟨rfl, rfl, rfl, rfl, by decide⟩, by decide,
    by decide +kernel⟩, rfl, rfl, by decide⟩,
   ⟨asked (seated goodSeat) 0x0806 1 0 (1 :: List.replicate 63 0), 0, _, _, _, ⟨_, ⟨rfl, rfl, rfl, rfl, by decide⟩, by decide,
    by decide +kernel⟩, rfl, rfl, by decide, by decide, by decide, by decide⟩,
   ⟨asked live 0x0806 0 0 (fields 16 [(0, 2, 0x1000), (4, 2, 0x8000), (6, 2, 720), (8, 2, 0x8000), (10, 2, 800)]), 0, _, _, 1, ⟨_,
    ⟨rfl, rfl, rfl, rfl, by decide⟩, by decide, by decide +kernel⟩, (rfl), (rfl), (by decide +kernel), (by decide +kernel),
    (by decide +kernel), (by decide +kernel)⟩,
   ⟨asked (seated { goodSeat with turnBegun := true, state := .running }) 0x0808 1 0 [], 0, _, ⟨_, ⟨rfl, rfl, rfl, rfl, by decide⟩,
    by decide, by decide +kernel⟩, by decide⟩,
   ⟨asked live 0x0808 0 0 [], 0, _, ⟨_, ⟨rfl, rfl, rfl, rfl, by decide⟩, by decide, by decide +kernel⟩, by decide⟩⟩

theorem witness_FirmwareAndSecurityByCommand :
    (∃ (s : State), ∃ id, ∃ (c : Cmd), s.canRun id 0x0901 c) ∧
    (∃ (s : State), ∃ id, ∃ (c : Cmd), ∃ (p : Bytes), ∃ o, s.canRun id 0x0902 c ∧ chPayload c.packet = p ∧ o = chArg c.packet ∧
     p.length % 64 ≠ 0) ∧
    (∃ (s : State), ∃ id, ∃ (c : Cmd), ∃ (p : Bytes), ∃ o, s.canRun id 0x0902 c ∧ chPayload c.packet = p ∧ o = chArg c.packet ∧
     p.length % 64 = 0 ∧ (o % 64 ≠ 0 ∨ slotSize < o + p.length)) ∧
    (∃ (s : State), ∃ id, ∃ (c : Cmd), ∃ (p : Bytes), ∃ o, s.canRun id 0x0902 c ∧ chPayload c.packet = p ∧ o = chArg c.packet ∧
     p.length % 64 = 0 ∧ o % 64 = 0 ∧ o + p.length ≤ slotSize) ∧
    (∃ (s : State), ∃ id, ∃ (c : Cmd), s.canRun id 0x0903 c ∧ s.imageOk (bit (chArg c.packet) 0) = true) ∧
    (∃ (s : State), ∃ id, ∃ (c : Cmd), s.canRun id 0x0903 c ∧ s.imageOk (bit (chArg c.packet) 0) = false) ∧
    (∃ (s : State), ∃ id, ∃ (c : Cmd), s.canRun id 0x0A01 c) ∧
    (∃ (s : State), ∃ id, ∃ (c : Cmd), ∃ (p : Bytes), s.canRun id 0x0A02 c ∧ chPayload c.packet = p ∧
     (byteAt p 1 ≠ 0 ∨ zeros p 6 8 = false)) ∧
    (∃ (s : State), ∃ id, ∃ (c : Cmd), ∃ (p : Bytes), s.canRun id 0x0A02 c ∧ chPayload c.packet = p ∧ byteAt p 1 = 0 ∧
     zeros p 6 8 = true ∧ 8 < byteAt p 0) ∧
    (∃ (s : State), ∃ id, ∃ (c : Cmd), ∃ (p : Bytes), s.canRun id 0x0A02 c ∧ chPayload c.packet = p ∧ byteAt p 1 = 0 ∧
     zeros p 6 8 = true ∧ byteAt p 0 ≤ 8) ∧
    (∃ (s : State), ∃ id, ∃ (c : Cmd), s.canRun id 0x0A03 c) ∧
    (∃ (s : State), ∃ id, ∃ (c : Cmd), ∃ (p : Bytes), s.canRun id 0x0A04 c ∧ p = chPayload c.packet ∧ 4 ≤ fld p 4 4) ∧
    (∃ (s : State), ∃ id, ∃ (c : Cmd), ∃ (p : Bytes), s.canRun id 0x0A04 c ∧ p = chPayload c.packet ∧ fld p 4 4 < 4 ∧
     s.unlockValid p = false) ∧
    ((Config.signatureValid 1 (fld (chPayload (packet 0x0A04 0 0 unlock1)) 56 8) (Sha.sha384 ((chPayload (packet 0x0A04 0 0 unlock1)).take 64)) (((chPayload (packet 0x0A04 0 0 unlock1)).drop 64).take 96) = true →
     ∃ (s : State) (id : Nat) (c : Cmd) (p : Bytes), s.canRun id 0x0A04 c ∧ p = chPayload c.packet ∧ fld p 4 4 < 4 ∧
     s.unlockValid p = true)) :=
  ⟨⟨asked live 0x0901 0 0 [], 0, _, ⟨_, ⟨rfl, rfl, rfl, rfl, by decide⟩, by decide, by decide +kernel⟩⟩,
   ⟨asked live 0x0902 0 64 [1], 0, _, _, _, ⟨_, ⟨rfl, rfl, rfl, rfl, by decide⟩, by decide, by decide +kernel⟩, (rfl), (rfl),
    (by decide +kernel)⟩,
   ⟨asked (seated goodSeat) 0x0902 1 1 (List.replicate 64 0), 0, _, _, _, ⟨_, ⟨rfl, rfl, rfl, rfl, by decide⟩, by decide,
    by decide +kernel⟩, rfl, rfl, by decide, by decide⟩,
   ⟨asked (seated goodSeat) 0x0902 1 0 (fields 64 [(4, 4, 1)]), 0, _, _, _, ⟨_, ⟨rfl, rfl, rfl, rfl, by decide⟩, by decide,
    by decide +kernel⟩, rfl, rfl, by decide, by decide, by decide⟩,
   ⟨asked live 0x0903 0 0 [], 0, _, ⟨_, ⟨rfl, rfl, rfl, rfl, by decide⟩, by decide, by decide +kernel⟩, by decide⟩,
   ⟨asked { live with fw := { minSvn := 5 } } 0x0903 0 0 [], 0, _, ⟨_, ⟨rfl, rfl, rfl, rfl, by decide⟩, by decide,
    by decide +kernel⟩, by decide⟩,
   ⟨asked live 0x0A01 0 1 [], 0, _, ⟨_, ⟨rfl, rfl, rfl, rfl, by decide⟩, by decide, by decide +kernel⟩⟩,
   ⟨asked (seated goodSeat) 0x0A02 1 0 (List.replicate 24 255), 0, _, _, ⟨_, ⟨rfl, rfl, rfl, rfl, by decide⟩, by decide,
    by decide +kernel⟩, rfl, by decide⟩,
   ⟨asked live 0x0A02 0 0 (fields 24 [(0, 1, 9)]), 0, _, _, ⟨_, ⟨rfl, rfl, rfl, rfl, by decide⟩, by decide, by decide +kernel⟩,
    (rfl), (by decide +kernel), (by decide +kernel), (by decide +kernel)⟩,
   ⟨asked (seated goodSeat) 0x0A02 1 0 (fields 24 [(4, 4, 1)]), 0, _, _, ⟨_, ⟨rfl, rfl, rfl, rfl, by decide⟩, by decide,
    by decide +kernel⟩, rfl, by decide, by decide, by decide⟩,
   ⟨asked live 0x0A03 0 0 [], 0, _, ⟨_, ⟨rfl, rfl, rfl, rfl, by decide⟩, by decide, by decide +kernel⟩⟩,
   ⟨asked (seated goodSeat) 0x0A04 1 0 (List.replicate 160 255), 0, _, _, ⟨_, ⟨rfl, rfl, rfl, rfl, by decide⟩, by decide,
    by decide +kernel⟩, rfl, by decide⟩,
   ⟨asked (seated goodSeat) 0x0A04 1 0 (fields 160 [(4, 4, 1)]), 0, _, _, ⟨_, ⟨rfl, rfl, rfl, rfl, by decide⟩, by decide,
    by decide +kernel⟩, rfl, by decide, by decide⟩,
   fun h => ⟨asked { live with sec := { nonce := some (List.replicate 32 0) } } 0x0A04 0 0 unlock1, 0, _, _, ⟨_, ⟨rfl, rfl, rfl,
    rfl, by decide⟩, by decide, by decide +kernel⟩, rfl, by decide +kernel, Bool.and_eq_true_iff.mpr ⟨by decide +kernel, h⟩⟩⟩

theorem witness_RingPairsFollowTheirRegisters :
    (∃ (s : State), ∃ fn, ∃ q, ∃ (v : W64), ∃ (i : Instr), ringServed s fn q ∧ (i = .ringEnable fn q v ∨ i = .ringReset fn q v) ∧
     (v.getLsbD 1 = true ∨ (v.getLsbD 0 = false ∧ ((s.ring fn q).state = .enabled ∨ (s.ring fn q).state = .error)))) ∧
    (∃ (s : State), ∃ fn, ∃ q, ∃ (v : W64), ∃ (i : Instr), ringServed s fn q ∧ (i = .ringEnable fn q v ∨ i = .ringReset fn q v) ∧
     v.getLsbD 1 = false ∧ v.getLsbD 0 = true ∧ (s.ring fn q).state = .disabled) ∧
    (∃ (s : State), ∃ fn, ∃ q, ∃ (v : W64), ∃ (i : Instr), ringServed s fn q ∧ (i = .ringEnable fn q v ∨ i = .ringReset fn q v) ∧
     v.getLsbD 1 = false ∧ ((v.getLsbD 0 = true ∧ (s.ring fn q).state ≠ .disabled) ∨ (v.getLsbD 0 = false ∧
     (s.ring fn q).state ≠ .enabled ∧ (s.ring fn q).state ≠ .error))) ∧
    (∃ (s : State), ∃ fn, ∃ q, ∃ (v : W64), ringServed s fn q ∧ (s.ring fn q).state = .enabled ∧ v.toNat < rqSq (s.ring fn q).cfg) ∧
    (∃ (s : State), ∃ fn, ∃ q, ∃ (v : W64), ringServed s fn q ∧ (s.ring fn q).state = .enabled ∧ rqSq (s.ring fn q).cfg ≤ v.toNat) ∧
    (∃ (s : State), ∃ fn, ∃ q, ringServed s fn q ∧ (s.ring fn q).state ≠ .enabled) ∧
    (∃ (s : State), ∃ fn, ∃ q, ∃ (v : W64), ∃ r, ∃ h, ∃ size, ringServed s fn q ∧ r = s.ring fn q ∧ r.state = .enabled ∧
     h = v.toNat % 65536 ∧ size = rqCq r.cfg ∧ h = r.cqHead) ∧
    (∃ (s : State), ∃ fn, ∃ q, ∃ (v : W64), ∃ r, ∃ h, ∃ size, ringServed s fn q ∧ r = s.ring fn q ∧ r.state = .enabled ∧
     h = v.toNat % 65536 ∧ size = rqCq r.cfg ∧ h ≠ r.cqHead ∧ h < size ∧
     (h + size - r.cqHead) % size ≤ (r.cqTail + size - r.cqHead) % size) ∧
    (∃ (s : State), ∃ fn, ∃ q, ∃ (v : W64), ∃ r, ∃ h, ∃ size, ringServed s fn q ∧ r = s.ring fn q ∧ r.state = .enabled ∧
     h = v.toNat % 65536 ∧ size = rqCq r.cfg ∧ h ≠ r.cqHead ∧
     (size ≤ h ∨ (r.cqTail + size - r.cqHead) % size < (h + size - r.cqHead) % size)) ∧
    (∃ (s : State), ∃ fn, ∃ q, q < 4 ∧ q < (s.fn fn).rings.length ∧ (s.ring fn q).state = .resetting ∧ (∀ c ∈ s.host.cmds,
     c.issuer ≠ .ring fn q)) ∧
    (∃ (s : State), ∃ fn, ∃ q, q < 4 ∧ q < (s.fn fn).rings.length ∧ ((s.ring fn q).state ≠ .resetting ∨ ∃ c ∈ s.host.cmds,
     c.issuer = .ring fn q)) ∧
    (∃ (s : State), ∃ fn, ∃ q, (s.hostServed fn = false ∨ 4 ≤ q)) :=
  ⟨⟨ringed ring64, 0, 0, 2, _, (⟨by decide, by decide, by decide⟩), (.inl rfl), (.inl (by decide))⟩,
   ⟨ringed { ring64 with state := .disabled }, 0, 0, 1, _, (⟨by decide, by decide, by decide⟩), (.inl rfl), by decide, by decide,
    by decide⟩,
   ⟨ringed ring64, 0, 0, 1, _, (⟨by decide, by decide, by decide⟩), (.inl rfl), by decide, (.inl ⟨by decide, by decide⟩)⟩,
   ⟨ringed ring64, 0, 0, 63, (⟨by decide, by decide, by decide⟩), by decide, by decide⟩,
   ⟨ringed ring64, 0, 0, 64, (⟨by decide, by decide, by decide⟩), by decide, by decide⟩,
   ⟨ringed { ring64 with state := .disabled }, 0, 0, (⟨by decide, by decide, by decide⟩), by decide⟩,
   ⟨ringed ring64, 0, 0, 0, _, _, _, (⟨by decide, by decide, by decide⟩), (rfl), by decide, (rfl), (rfl), (rfl)⟩,
   ⟨ringed { ring64 with cqTail := 1 }, 0, 0, 1, _, _, _, (⟨by decide, by decide, by decide⟩), (rfl), by decide, (rfl), (rfl),
    by decide, by decide, by decide⟩,
   ⟨ringed { ring64 with cqTail := 1 }, 0, 0, 2, _, _, _, (⟨by decide, by decide, by decide⟩), (rfl), by decide, (rfl), (rfl),
    by decide, (.inr (by decide))⟩,
   ⟨ringed { ring64 with state := .resetting }, 0, 0, by decide, by decide, by decide, (fun _ h => nomatch h)⟩,
   ⟨ringed ring64, 0, 0, by decide, by decide, (.inl (by decide))⟩,
   ⟨ringed ring64, 0, 4, by decide⟩⟩

theorem witness_RingsAcceptCommands :
    (∃ (s : State), ∃ fn, ∃ q, ∃ b, ∃ n, ∃ (r : Ring), fn < 64 ∧ q < 4 ∧ s.fnPresent fn = true ∧ q < (s.fn fn).rings.length ∧
     r = s.ring fn q ∧ s.nextPacket fn q = some (b, n) ∧ (¬ entryFree r ∨ (chFence b = true ∧ 0 < r.outstanding))) ∧
    (∃ (s : State), ∃ fn, ∃ q, ∃ b, ∃ n, ∃ (r : Ring), fn < 64 ∧ q < 4 ∧ s.fnPresent fn = true ∧ q < (s.fn fn).rings.length ∧
     r = s.ring fn q ∧ s.nextPacket fn q = some (b, n) ∧ entryFree r ∧ (chFence b = false ∨ r.outstanding = 0) ∧ ∃ o,
     chLenOk b = true ∧ s.headerCheck (.ring fn q) b = none ∧ opRow (chOpcode b) = some o ∧ ((chOpcode b = 0x0401 ∧
     s.launchRoom (chSeat b) = false) ∨ (o.hw = false ∧ s.refereeRoom = false))) ∧
    (∃ (s : State), ∃ fn, ∃ q, ∃ b, ∃ n, ∃ (r : Ring), fn < 64 ∧ q < 4 ∧ s.fnPresent fn = true ∧ q < (s.fn fn).rings.length ∧
     r = s.ring fn q ∧ s.nextPacket fn q = some (b, n) ∧ entryFree r ∧ (chFence b = false ∨ r.outstanding = 0) ∧ ∃ o,
     chLenOk b = true ∧ s.headerCheck (.ring fn q) b = none ∧ opRow (chOpcode b) = some o ∧ (chOpcode b = 0x0401 →
     s.launchRoom (chSeat b) = true) ∧ (o.hw = false → s.refereeRoom = true)) ∧
    (∃ (s : State), ∃ fn, ∃ q, ∃ b, ∃ n, ∃ (r : Ring), fn < 64 ∧ q < 4 ∧ s.fnPresent fn = true ∧ q < (s.fn fn).rings.length ∧
     r = s.ring fn q ∧ s.nextPacket fn q = some (b, n) ∧ entryFree r ∧ (chFence b = false ∨ r.outstanding = 0) ∧ ∃ st,
     (if chLenOk b then s.headerCheck (.ring fn q) b else some .cmdInvalid) = some st) ∧
    (∃ (s : State), ∃ fn, ∃ q, (64 ≤ fn ∨ 4 ≤ q ∨ s.fnPresent fn = false ∨ s.nextPacket fn q = none)) ∧
    (∃ (s : State), ∃ fn, ∃ q, ∃ v, fn < 64 ∧ q < 4 ∧ q < (s.fn fn).rings.length ∧ 0 < (s.ring fn q).unsignalled ∧
     v = rqVector (s.ring fn q).cfg) ∧
    (∃ (s : State), ∃ fn, ∃ q, (64 ≤ fn ∨ 4 ≤ q ∨ (s.ring fn q).unsignalled = 0)) :=
  ⟨⟨(ringed { ring64 with sqTail := 1, cqTail := 63 }).hostWrite 0 0x1000 (packet 0x0101 0 0 []), 0, 0, packet 0x0101 0 0 [], 1, _,
    by decide, by decide, (by decide +kernel), (by decide +kernel), (rfl), (by decide +kernel),
    (.inl (by unfold entryFree; decide +kernel))⟩,
   ⟨({ seated { goodSeat with launches := List.replicate 1024 ⟨0, 0, false, true⟩ } with host := (ringed { ring64 with sqTail := 1 }).host }).hostWrite 0 0x1000 (packet 0x0401 1 0 []),
    0, 0, packet 0x0401 1 0 [], 1, _, by decide, by decide, (by decide +kernel), (by decide +kernel), (rfl), (by decide +kernel),
    (by unfold entryFree; decide +kernel), (.inl (by decide +kernel)), _, (by decide +kernel), (by decide +kernel), (rfl),
    (.inl ⟨by decide +kernel, by decide +kernel⟩)⟩,
   ⟨(ringed { ring64 with sqTail := 1 }).hostWrite 0 0x1000 (packet 0x0101 0 0 []), 0, 0, packet 0x0101 0 0 [], 1, _, by decide,
    by decide, (by decide +kernel), (by decide +kernel), (rfl), (by decide +kernel), (by unfold entryFree; decide +kernel),
    (.inl (by decide +kernel)), _, (by decide +kernel), (by decide +kernel), (rfl), (by decide +kernel), (by decide +kernel)⟩,
   ⟨(ringed { ring64 with sqTail := 1 }).hostWrite 0 0x1000 (packet 0x0999 0 0 []), 0, 0, packet 0x0999 0 0 [], 1, _, by decide,
    by decide, (by decide +kernel), (by decide +kernel), (rfl), (by decide +kernel), (by unfold entryFree; decide +kernel),
    (.inl (by decide +kernel)), _, (rfl)⟩,
   ⟨live, 64, 0, by decide⟩,
   ⟨ringed { ring64 with unsignalled := 1 }, 0, 0, _, by decide, by decide, by decide, by decide, (rfl)⟩,
   ⟨live, 0, 4, by decide⟩⟩

theorem witness_RegisterWritesTakeEffect :
    (∃ (s : State), ∃ fn, s.hostServed fn = true) ∧
    (∃ (s : State), ∃ fn, ∃ (v : W64), s.hostServed fn = true ∧ v.setWidth 7 &&& (s.fn fn).evtStatus = 0) ∧
    (∃ (s : State), ∃ fn, ∃ (v : W64), s.hostServed fn = true ∧ v.setWidth 7 &&& (s.fn fn).evtStatus ≠ 0) ∧
    (∃ (s : State), ∃ fn, s.hostServed fn = true) ∧
    (∃ (s : State), ∃ fn, ∃ v, ∃ (f : Func), s.hostServed fn = true ∧
     f = (if v < 128 then { s.fn fn with msix := FMap.put {} (s.fn fn).msix v { FMap.get {} (s.fn fn).msix v with masked := false } } else { s.fn fn with msixMasked := false }) ∧
     f.msixMasked = true) ∧
    (∃ (s : State), ∃ fn, ∃ v, ∃ (f : Func), s.hostServed fn = true ∧
     f = (if v < 128 then { s.fn fn with msix := FMap.put {} (s.fn fn).msix v { FMap.get {} (s.fn fn).msix v with masked := false } } else { s.fn fn with msixMasked := false }) ∧
     f.msixMasked = false) ∧
    (∃ i, i < 16) ∧
    (∃ i, 16 ≤ i) ∧
    (∃ (s : State) (fn : Nat) (v : W64) (x : Seat), s.seat? fn = some x ∧ v.getLsbD 0 = true) ∧
    (∃ (s : State) (fn q : Nat), s.hostServed fn = true ∧ q < 4) ∧
    (∃ (s : State), ∃ fn, ∃ off, ∃ size, s.hostServed fn = true ∧ off < 65536 ∧ ¬(size = 8 ∧ off % 8 = 0) ∧ ¬(size = 4 ∧
     off % 4 = 0)) ∧
    (∃ (s : State), ∃ fn, ∃ off, ∃ size, (s.hostServed fn = false ∨ 65536 ≤ off ∨ ((size = 8 ∨ size = 4) ∧ off % size = 0 ∧
     off < 0x1000 ∧ off / 8 ≠ 7))) ∧
    (∃ (s : State), ∃ fn, s.hostServed fn = false) :=
  ⟨⟨live, 0, by decide⟩,
   ⟨live, 0, 3, by decide, by decide⟩,
   ⟨{ live with host := { functions := [(0, { evtStatus := 2 })] } }, 0, 3, by decide, by decide⟩,
   ⟨live, 32, by decide⟩,
   ⟨{ live with host := { functions := [(0, { msix := [(127, {})], msixPending := [127], msixMasked := true })] } }, 0, 127, _,
    by decide, (rfl), (by decide +kernel)⟩,
   ⟨{ live with host := { functions := [(0, { msix := [(127, {})], msixPending := [127] })] } }, 0, 127, _, by decide, (rfl),
    (by decide +kernel)⟩,
   ⟨15, by decide⟩,
   ⟨16, by decide⟩,
   ⟨seated goodSeat, 1, 1, _, rfl, by decide⟩,
   ⟨live, 0, 3, by decide, by decide⟩,
   ⟨live, 0, 65535, 8, by decide, by decide, by decide, by decide⟩,
   ⟨live, 0, 65536, 8, by decide⟩,
   ⟨live, 64, by decide⟩⟩

theorem witness_HostAccessesAndPortResets :
    (∃ (s : State), ∃ fn, ∃ o, ∃ n, ∃ a, ∃ p, fn < 64 ∧ s.fnPresent fn = true ∧ s.mod.state = .ready ∧ s.bar2Reach fn o n = .ok (a,
     p)) ∧
    (∃ (s : State), ∃ fn, ∃ o, ∃ (b : Bytes), ∃ a, ∃ p, fn < 64 ∧ s.fnPresent fn = true ∧ s.mod.state = .ready ∧
     s.bar2Reach fn o b.length = .ok (a, p)) ∧
    (∃ (s : State) (fn o n : Nat) (r : PcieReply) (b : Bytes), fn < 64 ∧ s.fnPresent fn = true ∧ s.mod.state = .ready ∧
     s.bar2Reach fn o n = .error r ∧ b.length = n) ∧
    (∃ (s : State), ∃ fn, fn < 64 ∧ s.fnPresent fn = true ∧ s.mod.state = .ready) ∧
    (∃ (s : State), ∃ fn, ∃ (i : Instr), ((∃ o n, i = Instr.bar2Read fn o n) ∨ (∃ o b, i = .bar2Write fn o b) ∨ (∃ o,
     i = .bar2Atomicop fn o)) ∧ fn < 64 ∧ s.fnPresent fn = true ∧ s.mod.state ≠ .ready) ∧
    (∃ (s : State), ∃ fn, ∃ (i : Instr), ((∃ o n, i = Instr.bar2Read fn o n) ∨ (∃ o b, i = .bar2Write fn o b) ∨ (∃ o,
     i = .bar2Atomicop fn o)) ∧ (64 ≤ fn ∨ s.fnPresent fn = false)) ∧
    (∃ (s : State), ∃ port, s.portPresent port = true ∧ s.mod.state ≠ .reset ∧ s.mod.state ≠ .hold ∧
     s.host.configured.getD (port / 2) false = false) ∧
    (∃ (s : State), ∃ port, s.portPresent port = true ∧ s.mod.state ≠ .reset ∧ s.mod.state ≠ .hold ∧
     s.host.configured.getD (port / 2) false = true) ∧
    (∃ (s : State), ∃ port, (s.portPresent port = false ∨ s.mod.state = .reset ∨ s.mod.state = .hold)) ∧
    (∃ (s : State), ∃ fn, fn < 64 ∧ s.fnPresent fn = true ∧ fn % 16 ≠ 0) ∧
    (∃ (s : State), ∃ fn, fn < 64 ∧ s.fnPresent fn = true ∧ fn % 16 = 0) ∧
    (∃ (s : State), ∃ fn, fn < 64 ∧ s.fnPresent fn = true ∧ s.seats = [] ∧ s.host.cmds = []) ∧
    (∃ (s : State), ∃ fn, (64 ≤ fn ∨ s.fnPresent fn = false)) ∧
    (∃ (s : State), ∃ port, s.portPresent port = true ∧ s.mod.refereeRuns = true) ∧
    (∃ (s : State), ∃ port, (s.portPresent port = false ∨ s.mod.refereeRuns = false)) ∧
    (∃ (s : State) (v : State), ∃ port, port < 4 ∧ v = { s with pins := { s.pins with perstN := s.pins.perstN.set port false } }) ∧
    (∃ port, 4 ≤ port) :=
  ⟨⟨seated goodSeat, 1, 0, 64, 0, 0, by decide, by decide, by decide,
    (bar2_ok _ _ _ _ goodSeat _ _ rfl (by decide +kernel) (by decide +kernel) (by decide +kernel))⟩,
   ⟨seated goodSeat, 1, 0, [1, 2], 0, 0, by decide, by decide, by decide,
    (bar2_ok _ _ _ _ goodSeat _ _ rfl (by decide +kernel) (by decide +kernel) (by decide +kernel))⟩,
   ⟨live, 1, 0, 2, _, [1, 2], by decide, by decide, by decide, rfl, rfl⟩,
   ⟨live, 0, by decide, by decide, by decide⟩,
   ⟨inState .init, 0, _, (.inl ⟨0, 8, rfl⟩), by decide, by decide, by decide⟩,
   ⟨live, 64, _, (.inl ⟨0, 8, rfl⟩), by decide⟩,
   ⟨{ live with host := {} }, 0, by decide, by decide, by decide, by decide⟩,
   ⟨built, 0, by decide, by decide, by decide, by decide⟩,
   ⟨.reset, 0, by decide⟩,
   ⟨live, 1, by decide, by decide, by decide⟩,
   ⟨live, 0, by decide, by decide, by decide⟩,
   ⟨live, 1, by decide, by decide, by decide, by decide⟩,
   ⟨live, 64, by decide⟩,
   ⟨live, 0, by decide, by decide⟩,
   ⟨live, 4, by decide⟩,
   ⟨live, _, 3, by decide, (rfl)⟩,
   ⟨4, by decide⟩⟩

theorem witness_EndpointAnswersAndProvesIdentity :
    (∃ (s : State) (eid : Nat), s.mgmtServed = true ∧ 8 ≤ eid ∧ eid ≤ 254) ∧
    (∃ (s : State) (eid : Nat), s.mgmtServed = true ∧ (eid < 8 ∨ 254 < eid)) ∧
    (∃ (s : State), s.mgmtServed = true) ∧
    (∃ (s : State), s.mgmtServed = true) ∧
    (∃ (s : State), s.mgmtServed = true) ∧
    (∃ (s : State), s.mgmtServed = true ∧ ∃ n, n ≠ 0) ∧
    (∃ (s : State), s.mgmtServed = true ∧ ∃ type, type ∈ [0xFF, 0x00, 0x05, 0x7E]) ∧
    (∃ (s : State), s.mgmtServed = true ∧ ∃ type, type ∉ [0xFF, 0x00, 0x05, 0x7E]) ∧
    (∃ (s : State), s.mgmtServed = false) ∧
    (∃ (s : State), s.mgmtServed = true) ∧
    (∃ (s : State) (v : Nat), s.mgmtServed = true ∧ v ∈ [0x11, 0x12]) ∧
    (∃ (s : State) (v : Nat), s.mgmtServed = true ∧ v ∉ [0x11, 0x12]) ∧
    (∃ (s : State), s.mgmtServed = true ∧ s.mgmt.spdmVersion = 0) ∧
    (∃ (s : State) (asym : W32) (hash : W32), s.mgmtServed = true ∧ s.mgmt.spdmVersion ≠ 0 ∧
     (asym.getLsbD 7 && hash.getLsbD 1) = true) ∧
    (∃ (s : State) (asym : W32) (hash : W32), s.mgmtServed = true ∧ s.mgmt.spdmVersion ≠ 0 ∧
     (asym.getLsbD 7 && hash.getLsbD 1) = false) ∧
    (∃ (s : State) (chain : Bytes), s.mgmtServed = true ∧ s.mgmt.spdmAlgorithms = true ∧
     chain = Config.rootCertificate s.ident.b1 ++ Config.deviceCertificates) ∧
    (∃ (s : State) (chain : Bytes), s.mgmtServed = true ∧ s.mgmt.spdmAlgorithms = true ∧
     chain = Config.rootCertificate s.ident.b1 ++ Config.deviceCertificates ∧ (Config.rootCertificate s.ident.b1 ≠ [] →
     0 < chain.length)) ∧
    (∃ (s : State) (chain : Bytes), s.mgmtServed = true ∧ s.mgmt.spdmAlgorithms = true ∧
     chain = Config.rootCertificate s.ident.b1 ++ Config.deviceCertificates ∧ ∃ slot, ∃ off, (slot ≠ 0 ∨ chain.length ≤ off)) ∧
    (∃ (s : State) (chain : Bytes), s.mgmtServed = true ∧ s.mgmt.spdmAlgorithms = true ∧
     chain = Config.rootCertificate s.ident.b1 ++ Config.deviceCertificates) ∧
    (∃ (s : State) (chain : Bytes), s.mgmtServed = true ∧ s.mgmt.spdmAlgorithms = true ∧
     chain = Config.rootCertificate s.ident.b1 ++ Config.deviceCertificates ∧ ∃ slot, slot ≠ 0) ∧
    (∃ (s : State) (chain : Bytes), s.mgmtServed = true ∧ s.mgmt.spdmAlgorithms = true ∧
     chain = Config.rootCertificate s.ident.b1 ++ Config.deviceCertificates ∧ ∃ i, 1 ≤ i ∧ i ≤ 5) ∧
    (∃ (s : State) (chain : Bytes), s.mgmtServed = true ∧ s.mgmt.spdmAlgorithms = true ∧
     chain = Config.rootCertificate s.ident.b1 ++ Config.deviceCertificates) ∧
    (∃ (s : State) (chain : Bytes), s.mgmtServed = true ∧ s.mgmt.spdmAlgorithms = true ∧
     chain = Config.rootCertificate s.ident.b1 ++ Config.deviceCertificates) ∧
    (∃ (s : State) (chain : Bytes), s.mgmtServed = true ∧ s.mgmt.spdmAlgorithms = true ∧
     chain = Config.rootCertificate s.ident.b1 ++ Config.deviceCertificates ∧ ∃ i, 6 ≤ i ∧ i ≠ 255) ∧
    (∃ (s : State), s.mgmtServed = true ∧ s.mgmt.spdmAlgorithms = false) ∧
    (∃ (s : State), s.mgmtServed = false) :=
  ⟨⟨live, 8, by decide, by decide, by decide⟩,
   ⟨live, 0, by decide, by decide⟩,
   ⟨live, by decide⟩,
   ⟨live, by decide⟩,
   ⟨live, by decide⟩,
   ⟨live, by decide, 1, by decide⟩,
   ⟨live, by decide, 0x7E, by decide⟩,
   ⟨live, by decide, 1, by decide⟩,
   ⟨inState .boot, by decide⟩,
   ⟨live, by decide⟩,
   ⟨live, 0x12, by decide, by decide⟩,
   ⟨live, 0x13, by decide, by decide⟩,
   ⟨live, by decide, by decide⟩,
   ⟨{ live with mgmt := { spdmVersion := 0x12 } }, 0x80, 0x02, by decide, by decide, by decide⟩,
   ⟨{ live with mgmt := { spdmVersion := 0x12 } }, 0x80, 0, by decide, by decide, by decide⟩,
   ⟨{ live with mgmt := { spdmVersion := 0x12, spdmAlgorithms := true } }, _, by decide, by decide, (rfl)⟩,
   ⟨{ live with mgmt := { spdmVersion := 0x12, spdmAlgorithms := true } }, _, by decide, by decide, rfl,
    fun h => by rw [List.length_append]; exact Nat.add_pos_left (List.length_pos_iff.mpr h) _⟩,
   ⟨{ live with mgmt := { spdmVersion := 0x12, spdmAlgorithms := true } }, _, by decide, by decide, (rfl), 1, 0,
    (.inl (by decide))⟩,
   ⟨{ live with mgmt := { spdmVersion := 0x12, spdmAlgorithms := true } }, _, by decide, by decide, (rfl)⟩,
   ⟨{ live with mgmt := { spdmVersion := 0x12, spdmAlgorithms := true } }, _, by decide, by decide, (rfl), 7, by decide⟩,
   ⟨{ live with mgmt := { spdmVersion := 0x12, spdmAlgorithms := true } }, _, by decide, by decide, (rfl), 5, by decide, by decide⟩,
   ⟨{ live with mgmt := { spdmVersion := 0x12, spdmAlgorithms := true } }, _, by decide, by decide, (rfl)⟩,
   ⟨{ live with mgmt := { spdmVersion := 0x12, spdmAlgorithms := true } }, _, by decide, by decide, (rfl)⟩,
   ⟨{ live with mgmt := { spdmVersion := 0x12, spdmAlgorithms := true } }, _, by decide, by decide, (rfl), 254, by decide,
    by decide⟩,
   ⟨{ live with mgmt := { spdmVersion := 0x12 } }, by decide, by decide⟩,
   ⟨.reset, by decide⟩⟩

theorem witness_ManagementCommandsAreChecked :
    (∃ (s : State) (via : Mgmt) (msg : Bytes), s.mgmtServed = true ∧ viaMctp s via ∧ 35 ≤ msg.length ∧
     fld msg 0 3 = s.ident.vendorId / 256 % 256 + s.ident.vendorId % 256 * 256 + 2 ^ 16) ∧
    (∃ (s : State) (via : Mgmt) (msg : Bytes), s.mgmtServed = true ∧ viaMctp s via ∧
     (msg.length < 35 ∨ fld msg 0 3 ≠ s.ident.vendorId / 256 % 256 + s.ident.vendorId % 256 * 256 + 2 ^ 16)) ∧
    (∃ (s : State) (r : Nat), s.mgmtServed = true ∧ r ∉ s.mgmt.aclRequesters) ∧
    (∃ (s : State) (via : Mgmt), (s.mgmtServed = false ∨ ∃ n p, via = .fabric n p)) ∧
    (∃ (via : Mgmt), (∀ n p, via ≠ .fabric n p)) ∧
    (∃ (s : State) (i : Nat) (q : Inbound), s.taken i [0x20] = some q ∧
     (s.mgmtServed = false ∨ q.pkt.payload.length < 32 ∨ 256 < q.pkt.payload.length ∨ q.pkt.payload.length ≠ 32 + chLen q.pkt.payload ∨ Nat.land q.pkt.src s.mgmt.aclMask ≠ s.mgmt.aclMatch)) ∧
    (∃ (s : State) (i : Nat) (q : Inbound), s.taken i [0x20] = some q ∧ s.mgmtServed = true ∧ 32 ≤ q.pkt.payload.length ∧
     q.pkt.payload.length ≤ 256 ∧ q.pkt.payload.length = 32 + chLen q.pkt.payload ∧
     Nat.land q.pkt.src s.mgmt.aclMask = s.mgmt.aclMatch) ∧
    (∃ (s : State) (i : Nat), s.taken i [0x20] = none) :=
  ⟨⟨live, .i2c 9, vendorMsg (packet 0x0101 0 0 []), by decide, (.inl ⟨9, rfl⟩), by decide, by decide⟩,
   ⟨live, .i2c 9, [0], by decide, (.inl ⟨9, rfl⟩), (.inl (by decide))⟩,
   ⟨live, 9, by decide, by decide⟩,
   ⟨.reset, .i2c 9, (.inl rfl)⟩,
   ⟨.i2c 9, (fun _ _ h => nomatch h)⟩,
   ⟨arrived (mkPacket 0 0x20 0 0 0 0 [1]) 3, 0, _, (rfl), (.inr (.inl (by decide +kernel)))⟩,
   ⟨{ arrived (mkPacket 0 0x20 0 0 0 0 (packet 0x0101 0 0 [])) 3 with mgmt := { aclMask := 0, aclMatch := 0 } }, 0, _, (rfl),
    by decide, (by decide +kernel), (by decide +kernel), (by decide +kernel), (by decide +kernel)⟩,
   ⟨live, 0, by decide⟩⟩

theorem witness_TimeIsSetAndPicked :
    (∃ (s : State) (u : State) (i : Nat) (q : Inbound), s.takeTime i 1 = (u, some q)) ∧
    (∃ (s : State) (u : State) (i : Nat) (q : Inbound), s.takeTime i 2 = (u, some q)) ∧
    (∃ (s u : State) (i : Nat) (q : Inbound) (id at_ : Nat), s.takeTime i 3 = (u, some q) ∧ FMap.find? u.tk.syncs q.port = some (id,
     at_) ∧ id ≠ fld q.pkt.payload 6 2) ∧
    (∃ (s u : State) (i : Nat) (q : Inbound) (id at_ : Nat), s.takeTime i 3 = (u, some q) ∧ FMap.find? u.tk.syncs q.port = some (id,
     at_) ∧ id = fld q.pkt.payload 6 2 ∧ u.tk.parent = some q.port) ∧
    (∃ (s : State) (u : State) (i : Nat) (q : Inbound), s.takeTime i 4 = (u, some q)) ∧
    (∃ (s : State) (u : State) (i : Nat) (q : Inbound), s.takeTime i 5 = (u, some q) ∧ ∃ x,
     FMap.find? u.tk.pdelays q.port = some x ∧ x.id = fld q.pkt.payload 6 2) ∧
    (∃ (s : State) (u : State) (i : Nat) (q : Inbound), s.takeTime i 5 = (u, some q) ∧ (∀ x,
     FMap.find? u.tk.pdelays q.port = some x → x.id ≠ fld q.pkt.payload 6 2)) ∧
    (∃ (s : State) (u : State) (i : Nat) (q : Inbound), s.takeTime i 6 = (u, some q) ∧ ∃ x, ∃ t2,
     FMap.find? u.tk.pdelays q.port = some x ∧ x.id = fld q.pkt.payload 6 2 ∧ x.t2 = some t2) ∧
    (∃ (s : State) (u : State) (i : Nat) (q : Inbound), s.takeTime i 6 = (u, some q) ∧ (∀ x,
     FMap.find? u.tk.pdelays q.port = some x → x.id ≠ fld q.pkt.payload 6 2 ∨ x.t2 = none)) ∧
    (∃ (s : State) (u : State) (f : Bytes), s.mod.refereeRuns = true ∧ (f.drop 12).take 2 = [0x88, 0xF7] ∧
     u = { s with tk := { s.tk with ownMaster := true } }.chooseParent ∧ u.tk.parent.isSome = true) ∧
    (∃ (s : State) (u : State) (f : Bytes) (now : Nat), s.mod.refereeRuns = true ∧ (f.drop 12).take 2 = [0x88, 0xF7] ∧
     u = { s with tk := { s.tk with ownMaster := true } }.chooseParent ∧ u.tk.parent = none ∧ ∃ (v : Int),
     v = (if s.tk.ppsValid then s.sysAt s.time + nearestSecond (Int.ofNat now - s.sysAt s.time) else Int.ofNat now)) ∧
    (∃ (s : State) (f : Bytes), (s.mod.refereeRuns = false ∨ (f.drop 12).take 2 ≠ [0x88, 0xF7])) ∧
    (∃ (s : State) (p : Nat), p < 24 ∧ (s.port p).state = .up) ∧
    (∃ (s : State) (p : Nat), p < 24 ∧ (s.port p).state = .up ∧ syncDue s p) ∧
    (∃ (s : State) (p : Nat), (24 ≤ p ∨ (s.port p).state ≠ .up)) ∧
    (∃ (s : State) (p : Nat), (24 ≤ p ∨ (s.port p).state ≠ .up ∨ ¬ syncDue s p)) ∧
    (∃ (s : State) (p : Nat), s.tk.parent = some p) ∧
    (∃ (s : State), s.tk.parent = none) ∧
    (∃ (s : State), s.tk.holdover = true) ∧
    (∃ (s : State), s.tk.holdover = false) ∧
    (∃ (s : State) (u : State) (last : Nat), s.mod.refereeRuns = true ∧ s.tk.ppsLast = some last ∧ ppsInTime s last ∧
     u = { s with tk := { s.tk with ppsLast := some s.time, ppsGood := s.tk.ppsGood + 1, ppsValid := s.tk.ppsValid || decide (3 ≤ s.tk.ppsGood + 1) } }.chooseParent ∧
     (u.tk.ppsValid = true ∧ u.tk.ownMaster = true ∧ u.tk.parent = none)) ∧
    (∃ (s : State) (u : State) (last : Nat), s.mod.refereeRuns = true ∧ s.tk.ppsLast = some last ∧ ppsInTime s last ∧
     u = { s with tk := { s.tk with ppsLast := some s.time, ppsGood := s.tk.ppsGood + 1, ppsValid := s.tk.ppsValid || decide (3 ≤ s.tk.ppsGood + 1) } }.chooseParent ∧
     (u.tk.ppsValid = false ∨ u.tk.ownMaster = false ∨ u.tk.parent ≠ none)) ∧
    (∃ (s : State), s.mod.refereeRuns = true ∧ (∀ last, s.tk.ppsLast = some last → ¬ ppsInTime s last)) ∧
    (∃ (s : State), s.mod.refereeRuns = false) :=
  ⟨⟨arrived (timePacket 1) 3, _, 0, _, (rfl)⟩,
   ⟨arrived (timePacket 2) 3, _, 0, _, (rfl)⟩,
   ⟨{ arrived (timePacket 3) 3 with tk := { syncs := [(3, (8, 100))] } }, _, 0, _, _, _, rfl, rfl, by decide +kernel⟩,
   ⟨{ arrived (timePacket 3) 3 with tk := { parent := some 3, syncs := [(3, (7, 100))] } }, _, 0, _, _, _, rfl, rfl, rfl, rfl⟩,
   ⟨{ arrived (timePacket 4) 3 with tk := {  } }, _, 0, _, (rfl)⟩,
   ⟨{ arrived (timePacket 5) 3 with tk := { pdelays := [(3, ⟨7, 0, none, 5⟩)] } }, _, 0, _, (rfl), _, (rfl), (rfl)⟩,
   ⟨{ arrived (timePacket 5) 3 with tk := {  } }, _, 0, _, (rfl), (fun _ h => nomatch h)⟩,
   ⟨{ arrived (timePacket 6) 3 with tk := { pdelays := [(3, ⟨7, 0, some 2, 5⟩)] } }, _, 0, _, (rfl), _, _, (rfl), (rfl), (rfl)⟩,
   ⟨{ arrived (timePacket 6) 3 with tk := {  } }, _, 0, _, (rfl), (fun _ h => nomatch h)⟩,
   ⟨{ live with tk := { announces := [(3, ⟨1, 5, 0, 0⟩)] }, fab := { ports := [(3, { state := .up })] } }, _,
    List.replicate 12 0 ++ [0x88, 0xF7] ++ List.replicate 50 0, by decide, by decide, (rfl), (by decide +kernel)⟩,
   ⟨live, _, List.replicate 12 0 ++ [0x88, 0xF7] ++ List.replicate 50 0, 0, by decide, by decide, (rfl), (rfl), _, (rfl)⟩,
   ⟨live, [], by decide⟩,
   ⟨portIs { state := .up }, 2, by decide, by decide⟩,
   ⟨{ portIs { state := .up } with tk := { held := true } }, 2, by decide, by decide, (⟨by decide, by decide,
    fun _ h => nomatch h⟩)⟩,
   ⟨live, 0, by decide⟩,
   ⟨live, 24, (.inl (by decide))⟩,
   ⟨{ live with tk := { parent := some 3 } }, 3, by decide⟩,
   ⟨live, by decide⟩,
   ⟨{ live with tk := { holdover := true } }, by decide⟩,
   ⟨live, by decide⟩,
   ⟨{ live with tk := { ppsLast := some 0, ppsGood := 2, ownMaster := true }, time := secondUnits }, _, 0, by decide, by decide,
    (by unfold ppsInTime; decide +kernel), (rfl), (by decide +kernel)⟩,
   ⟨{ live with tk := { ppsLast := some 0 }, time := secondUnits }, _, 0, by decide, by decide,
    (by unfold ppsInTime; decide +kernel), (rfl), (by decide +kernel)⟩,
   ⟨live, by decide, (fun _ h => nomatch h)⟩,
   ⟨.reset, by decide⟩⟩

theorem witness_ContextsFetchIssueAndComplete :
    (∃ (s : State) (T : Nat) (c : Nat) (x : Ctx), x = s.ctx T c ∧ x.state ≠ .free ∧ x.state ≠ .faulted ∧ x.inCluster = false ∧
     x.ended = false ∧ x.buffer.length < 4 ∧ ∃ a, s.streamPhys T x x.next 64 = some a) ∧
    (∃ (s : State) (T : Nat) (c : Nat) (x : Ctx), x = s.ctx T c ∧ x.state ≠ .free ∧ x.state ≠ .faulted ∧ x.inCluster = false ∧
     x.ended = false ∧ x.buffer.length < 4 ∧ s.streamPhys T x x.next 64 = none ∧ x.buffer = []) ∧
    (∃ (s : State) (T : Nat) (c : Nat) (b : Nat) (x : Ctx), x = s.ctx T c ∧ x.state ≠ .free ∧ x.state ≠ .faulted ∧
     x.inCluster = true ∧ x.ended = false ∧ x.buffer = [] ∧ s.clusterPhys (T / 8) = some b ∧ x.next + 256 ≤ clusterBytes) ∧
    (∃ (s : State) (T : Nat) (c : Nat), ((s.ctx T c).state = .free ∨ (s.ctx T c).state = .faulted ∨ ((s.ctx T c).state ≠ .fetching ∧
     ((s.ctx T c).ended = true ∨ 4 ≤ (s.ctx T c).buffer.length ∨ ((s.ctx T c).inCluster = true ∧ (s.ctx T c).buffer ≠ []))))) ∧
    (∃ (s : State) (T : Nat) (n : Nat) (q : Seat), s.tileSeat T = some (n, q) ∧ (∀ c e, (s.ctx T c).cur = some e →
     dType e.desc = 7 → s.waitOver (s.ctx T c) (s.view (s.ctx T c).seat T) e = false)) ∧
    (∃ (s : State) (T : Nat) (n : Nat) (q : Seat), s.tileSeat T = some (n, q) ∧ ∃ (c : Nat), ∃ e, (s.ctx T c).cur = some e ∧
     dType e.desc = 7 ∧ s.waitOver (s.ctx T c) (s.view (s.ctx T c).seat T) e = true) ∧
    (∃ (s : State) (u : State) (T : Nat) (n : Nat) (q : Seat), s.tileSeat T = some (n, q) ∧
     (s.tile T).stepTc ≠ some (s.time / tcUnits) ∧ u = choosing s T n ∧ issueChoice (u.tile T) (s.time / tcUnits) = none) ∧
    (∃ (s : State) (u : State) (T : Nat) (n : Nat) (q : Seat), s.tileSeat T = some (n, q) ∧
     (s.tile T).stepTc ≠ some (s.time / tcUnits) ∧ u = choosing s T n ∧ ∃ (c : Nat),
     issueChoice (u.tile T) (s.time / tcUnits) = some c ∧ ∃ a, ∃ d, ∃ rest, ∃ (e : Exec), (u.ctx T c).cur = none ∧
     (u.ctx T c).buffer = (a, d) :: rest ∧
     e = { addr := a, desc := d, total := stepsOf d, issued := 0, done := false, since := s.time, gmm := none } ∧
     u.descEnv T c d = none) ∧
    (∃ (s : State) (u : State) (T : Nat) (n : Nat) (q : Seat), s.tileSeat T = some (n, q) ∧
     (s.tile T).stepTc ≠ some (s.time / tcUnits) ∧ u = choosing s T n ∧ ∃ (c : Nat),
     issueChoice (u.tile T) (s.time / tcUnits) = some c ∧ ∃ a, ∃ d, ∃ rest, ∃ (e : Exec), (u.ctx T c).cur = none ∧
     (u.ctx T c).buffer = (a, d) :: rest ∧
     e = { addr := a, desc := d, total := stepsOf d, issued := 0, done := false, since := s.time, gmm := none } ∧ ∃ v,
     u.descEnv T c d = some v ∧ ∃ st, ∃ detail, checkDesc u v d = some (st, detail)) ∧
    (∃ (s : State) (u : State) (T : Nat) (n : Nat) (q : Seat), s.tileSeat T = some (n, q) ∧
     (s.tile T).stepTc ≠ some (s.time / tcUnits) ∧ u = choosing s T n ∧ ∃ (c : Nat),
     issueChoice (u.tile T) (s.time / tcUnits) = some c ∧ ∃ a, ∃ d, ∃ rest, ∃ (e : Exec), (u.ctx T c).cur = none ∧
     (u.ctx T c).buffer = (a, d) :: rest ∧
     e = { addr := a, desc := d, total := stepsOf d, issued := 0, done := false, since := s.time, gmm := none } ∧ ∃ v,
     u.descEnv T c d = some v ∧ checkDesc u v d = none ∧ dType d ≠ 2) ∧
    (∃ (s : State) (u : State) (T : Nat) (n : Nat) (q : Seat), s.tileSeat T = some (n, q) ∧
     (s.tile T).stepTc ≠ some (s.time / tcUnits) ∧ u = choosing s T n ∧ ∃ (c : Nat),
     issueChoice (u.tile T) (s.time / tcUnits) = some c ∧ ∃ a, ∃ d, ∃ rest, ∃ (e : Exec), (u.ctx T c).cur = none ∧
     (u.ctx T c).buffer = (a, d) :: rest ∧
     e = { addr := a, desc := d, total := stepsOf d, issued := 0, done := false, since := s.time, gmm := none } ∧ ∃ v,
     u.descEnv T c d = some v ∧ checkDesc u v d = none ∧ dType d = 2 ∧ ∃ (g : GmmRun), ∃ (g' : GmmRun), g = u.gmmStart v d ∧
     g' = (if g.next.isNone then u.beginNext v d g else g) ∧ ∃ st, ∃ detail, g.units = [] ∧ g.todo = [] ∧ g.ending = some (st,
     detail)) ∧
    (∃ (s : State) (u : State) (T : Nat) (n : Nat) (q : Seat), s.tileSeat T = some (n, q) ∧
     (s.tile T).stepTc ≠ some (s.time / tcUnits) ∧ u = choosing s T n ∧ ∃ (c : Nat),
     issueChoice (u.tile T) (s.time / tcUnits) = some c ∧ ∃ a, ∃ d, ∃ rest, ∃ (e : Exec), (u.ctx T c).cur = none ∧
     (u.ctx T c).buffer = (a, d) :: rest ∧
     e = { addr := a, desc := d, total := stepsOf d, issued := 0, done := false, since := s.time, gmm := none } ∧ ∃ v,
     u.descEnv T c d = some v ∧ checkDesc u v d = none ∧ dType d = 2 ∧ ∃ (g : GmmRun), ∃ (g' : GmmRun), g = u.gmmStart v d ∧
     g' = (if g.next.isNone then u.beginNext v d g else g) ∧ ∃ st, (g.units ≠ [] ∨ g.todo ≠ [] ∨ g.ending = none) ∧
     g'.next = some st) ∧
    (∃ (s : State) (u : State) (T : Nat) (n : Nat) (q : Seat), s.tileSeat T = some (n, q) ∧
     (s.tile T).stepTc ≠ some (s.time / tcUnits) ∧ u = choosing s T n ∧ ∃ (c : Nat),
     issueChoice (u.tile T) (s.time / tcUnits) = some c ∧ ∃ e, (u.ctx T c).cur = some e ∧ u.descEnv T c e.desc = none) ∧
    (∃ (s : State) (u : State) (T : Nat) (n : Nat) (q : Seat), s.tileSeat T = some (n, q) ∧
     (s.tile T).stepTc ≠ some (s.time / tcUnits) ∧ u = choosing s T n ∧ ∃ (c : Nat),
     issueChoice (u.tile T) (s.time / tcUnits) = some c ∧ ∃ e, (u.ctx T c).cur = some e ∧ ∃ v, u.descEnv T c e.desc = some v ∧
     e.gmm = none) ∧
    (∃ (s : State) (u : State) (T : Nat) (n : Nat) (q : Seat), s.tileSeat T = some (n, q) ∧
     (s.tile T).stepTc ≠ some (s.time / tcUnits) ∧ u = choosing s T n ∧ ∃ (c : Nat),
     issueChoice (u.tile T) (s.time / tcUnits) = some c ∧ ∃ e, (u.ctx T c).cur = some e ∧ ∃ v, u.descEnv T c e.desc = some v ∧ ∃ g,
     ∃ g', e.gmm = some g ∧ g' = (if g.next.isNone then u.beginNext v e.desc g else g) ∧ ∃ st, g'.next = some st) ∧
    (∃ (s : State) (u : State) (T : Nat) (n : Nat) (q : Seat), s.tileSeat T = some (n, q) ∧
     (s.tile T).stepTc ≠ some (s.time / tcUnits) ∧ u = choosing s T n ∧ ∃ (c : Nat),
     issueChoice (u.tile T) (s.time / tcUnits) = some c ∧ ∃ e, (u.ctx T c).cur = some e ∧ ∃ v, u.descEnv T c e.desc = some v ∧ ∃ g,
     ∃ g', e.gmm = some g ∧ g' = (if g.next.isNone then u.beginNext v e.desc g else g) ∧ g'.next = none) ∧
    (∃ (s : State) (T : Nat), (s.tileSeat T = none ∨ (s.tile T).stepTc = some (s.time / tcUnits))) ∧
    (∃ (s : State) (T : Nat) (c : Nat) (e : Exec) (x : Ctx), x = s.ctx T c ∧ x.cur = some e ∧ x.state ≠ .faulted ∧
     x.state ≠ .parked ∧ (dType e.desc = 7 ∧ syOp e.desc = 1) ∧ s.waitOver x (s.view x.seat T) e = true) ∧
    (∃ (s : State) (T : Nat) (c : Nat) (e : Exec) (x : Ctx), x = s.ctx T c ∧ x.cur = some e ∧ x.state ≠ .faulted ∧
     x.state ≠ .parked ∧ (dType e.desc = 7 ∧ syOp e.desc = 1) ∧ s.waitOver x (s.view x.seat T) e = false) ∧
    (∃ (s : State) (T : Nat) (c : Nat) (e : Exec) (x : Ctx), x = s.ctx T c ∧ x.cur = some e ∧ x.state ≠ .faulted ∧
     x.state ≠ .parked ∧ dType e.desc = 8) ∧
    (∃ (s : State) (T : Nat) (c : Nat) (e : Exec) (x : Ctx), x = s.ctx T c ∧ x.cur = some e ∧ x.state ≠ .faulted ∧
     x.state ≠ .parked ∧ dType e.desc ≠ 8 ∧ (dType e.desc = 7 → syOp e.desc ≠ 1) ∧ e.gmm = none ∧ e.done = true ∧ e.total ≤ e.issued) ∧
    (∃ (s : State) (T : Nat) (c : Nat) (e : Exec) (x : Ctx), x = s.ctx T c ∧ x.cur = some e ∧ x.state ≠ .faulted ∧
     x.state ≠ .parked ∧ dType e.desc ≠ 8 ∧ (dType e.desc = 7 → syOp e.desc ≠ 1) ∧ e.gmm = none ∧
     (e.done = false ∨ e.issued < e.total)) ∧
    (∃ (s : State) (T : Nat) (c : Nat) (e : Exec) (x : Ctx), x = s.ctx T c ∧ x.cur = some e ∧ x.state ≠ .faulted ∧
     x.state ≠ .parked ∧ dType e.desc ≠ 8 ∧ (dType e.desc = 7 → syOp e.desc ≠ 1) ∧ ∃ g, e.gmm = some g ∧ g.over = true ∧
     g.ending = none ∧ (gmSteal e.desc = true → s.victim T x.seat (gmGt e.desc) = none)) ∧
    (∃ (s : State) (T : Nat) (c : Nat) (e : Exec) (x : Ctx), x = s.ctx T c ∧ x.cur = some e ∧ x.state ≠ .faulted ∧
     x.state ≠ .parked ∧ dType e.desc ≠ 8 ∧ (dType e.desc = 7 → syOp e.desc ≠ 1) ∧ ∃ g, e.gmm = some g ∧
     (g.over = false ∨ g.ending ≠ none ∨ (gmSteal e.desc = true ∧ s.victim T x.seat (gmGt e.desc) ≠ none))) ∧
    (∃ (s : State) (T : Nat) (c : Nat), ((s.ctx T c).cur = none ∨ (s.ctx T c).state = .faulted ∨ (s.ctx T c).state = .parked)) ∧
    (∃ (s : State) (T : Nat) (c : Nat) (e : Exec) (x : Ctx) (now : Nat), x = s.ctx T c ∧ x.cur = some e ∧ x.state = .parked ∧
     now = s.time / tcUnits ∧ e.gmm = none ∧ e.done = true) ∧
    (∃ (s : State) (T : Nat) (c : Nat) (e : Exec) (x : Ctx) (now : Nat), x = s.ctx T c ∧ x.cur = some e ∧ x.state = .parked ∧
     now = s.time / tcUnits ∧ e.gmm = none ∧ e.done = false) ∧
    (∃ (s : State) (T : Nat) (c : Nat) (e : Exec) (x : Ctx) (now : Nat), x = s.ctx T c ∧ x.cur = some e ∧ x.state = .parked ∧
     now = s.time / tcUnits ∧ ∃ g, e.gmm = some g ∧ (∀ y ∈ g.flight, y.op.fetches = false)) ∧
    (∃ (s : State) (T : Nat) (c : Nat) (e : Exec) (x : Ctx) (now : Nat), x = s.ctx T c ∧ x.cur = some e ∧ x.state = .parked ∧
     now = s.time / tcUnits ∧ ∃ g, e.gmm = some g ∧ (∃ y ∈ g.flight, y.op.fetches = true)) ∧
    (∃ (s : State) (T : Nat) (c : Nat) (e : Exec) (x : Ctx) (now : Nat), x = s.ctx T c ∧ x.cur = some e ∧ x.state = .parked ∧
     now = s.time / tcUnits ∧ ((e.gmm = none ∧ e.done = false ∧ dType e.desc ≠ 4) ∨ ∃ g, e.gmm = some g ∧ ∃ y ∈ g.flight,
     y.op.fetches = true)) ∧
    (∃ (s : State) (T : Nat) (c : Nat) (e : Exec) (x : Ctx) (now : Nat), x = s.ctx T c ∧ x.cur = some e ∧ x.state = .parked ∧
     now = s.time / tcUnits ∧ ((e.gmm = none ∧ (e.done = true ∨ dType e.desc = 4)) ∨ ∃ g, e.gmm = some g ∧ ∀ y ∈ g.flight,
     y.op.fetches = false)) ∧
    (∃ (s : State) (T : Nat) (c : Nat), ((s.ctx T c).cur = none ∨ (s.ctx T c).state ≠ .parked)) :=
  ⟨⟨tiled { state := .fetching, seat := 1 }, 0, 0, _, (rfl), (by decide +kernel), (by decide +kernel), by decide, by decide,
    by decide, _, (rfl)⟩,
   ⟨tiled { state := .fetching, seat := 1, next := 0x640000000 }, 0, 0, _, (rfl), (by decide +kernel), (by decide +kernel),
    by decide, by decide, by decide, (rfl), (rfl)⟩,
   ⟨tiled { state := .fetching, seat := 1, inCluster := true }, 0, 0, _, _, (rfl), (by decide +kernel), (by decide +kernel),
    by decide, by decide, by decide, (rfl), (by decide +kernel)⟩,
   ⟨live, 0, 0, by decide⟩,
   ⟨tiled {}, 0, _, _, (rfl), (by
    intro c e h; match c with
    | 0 | 1 | 2 | 3 | 4 | 5 | 6 | 7 => cases h
    | _ + 8 => cases h)⟩,
   ⟨{ ended (descOf 7 [(12, 1, 1)]) .waiting with time := 8 }, 0, _, _, (rfl), 0, _, (rfl), (by decide +kernel),
    (by decide +kernel)⟩,
   ⟨tiled {}, _, 0, _, _, (rfl), (by decide), (rfl), (rfl)⟩,
   ⟨tiled { state := .ready, seat := 2, buffer := [(0, matmul1)] }, _, 0, _, _, (rfl), (by decide), (rfl), 0, (rfl), _, _, _, _,
    (rfl), (rfl), (rfl), (by decide +kernel)⟩,
   ⟨tiled { state := .ready, seat := 1, buffer := [(0, (descOf 0 []))] }, _, 0, _, _, (rfl), (by decide), (rfl), 0, (rfl), _, _, _,
    _, (rfl), (rfl), (rfl), _, (rfl), _, _, (rfl)⟩,
   ⟨tiled { state := .ready, seat := 1, buffer := [(0, matmul1)] }, _, 0, _, _, (rfl), (by decide), (rfl), 0, (rfl), _, _, _, _,
    (rfl), (rfl), (rfl), _, (rfl), (by decide +kernel), (by decide +kernel)⟩,
   ⟨{ tiled { state := .ready, seat := 1, buffer := [(0, (gmm1 [(36, 4, 65536)]))] } with poison := [(0x10000, 2)] }, _, 0, _, _,
    (rfl), (by decide), (rfl), 0, (rfl), _, _, _, _, (rfl), (rfl), (rfl), _, (rfl), (by decide +kernel), (by decide +kernel), _, _,
    (rfl), (rfl), _, _, (rfl), (rfl), (rfl)⟩,
   ⟨tiled { state := .ready, seat := 1, buffer := [(0, (gmm1 [(36, 4, 65536)]))] }, _, 0, _, _, (rfl), (by decide), (rfl), 0,
    (rfl), _, _, _, _, (rfl), (rfl), (rfl), _, (rfl), (by decide +kernel), (by decide +kernel), _, _, (rfl), (rfl), _,
    (by decide +kernel), (rfl)⟩,
   ⟨tiled { ctxOf { begun matmul1 with total := 9 } .ready with seat := 2 }, _, 0, _, _, (rfl), (by decide), (rfl), 0, (rfl), _,
    (rfl), (by decide +kernel)⟩,
   ⟨tiled (ctxOf { begun matmul1 with total := 9 } .ready), _, 0, _, _, (rfl), (by decide), (rfl), 0, (rfl), _, (rfl), _, (rfl),
    (rfl)⟩,
   ⟨tiled (ctxOf { begun (gmm1 []) with total := 9, gmm := some { units := [], todo := [⟨0, .table⟩] } } .ready), _, 0, _, _,
    (rfl), (by decide), (rfl), 0, (rfl), _, (rfl), _, (rfl), _, _, (rfl), (rfl), _, (rfl)⟩,
   ⟨tiled (ctxOf { begun (gmm1 [(12, 8, 0x63FFFFFC0)]) with total := 9, gmm := some { units := [⟨0, 0, 0⟩] } } .ready), _, 0, _, _,
    (rfl), (by decide), (rfl), 0, (rfl), _, (rfl), _, (rfl), _, _, (rfl), (rfl), (by decide +kernel)⟩,
   ⟨live, 0, by decide⟩,
   ⟨{ ended (descOf 7 [(12, 1, 1)]) .waiting with time := 8 }, 0, 0, _, _, (rfl), (rfl), (by decide +kernel), (by decide +kernel),
    (by decide +kernel), (by decide +kernel)⟩,
   ⟨ended (descOf 7 [(12, 1, 1), (20, 4, 5)]) .waiting, 0, 0, _, _, (rfl), (rfl), (by decide +kernel), (by decide +kernel),
    (by decide +kernel), (by decide +kernel)⟩,
   ⟨ended (descOf 8 []) .waiting, 0, 0, _, _, (rfl), (rfl), (by decide +kernel), (by decide +kernel), (by decide +kernel)⟩,
   ⟨ended matmul1 .issuing, 0, 0, _, _, (rfl), (rfl), (by decide +kernel), (by decide +kernel), (by decide +kernel),
    (by decide +kernel), (rfl), (rfl), (by decide +kernel)⟩,
   ⟨executing matmul1, 0, 0, _, _, (rfl), (rfl), (by decide +kernel), (by decide +kernel), (by decide +kernel),
    (by decide +kernel), (rfl), (.inl rfl)⟩,
   ⟨tiled (ctxOf { begun (gmm1 []) with total := 9, gmm := some { units := [] } } .issuing), 0, 0, _, _, (rfl), (rfl),
    (by decide +kernel), (by decide +kernel), (by decide +kernel), (by decide +kernel), _, (rfl), (by decide +kernel), (rfl),
    (by decide +kernel)⟩,
   ⟨tiled (ctxOf { begun (gmm1 []) with total := 9, gmm := some { units := [⟨0, 0, 0⟩] } } .issuing), 0, 0, _, _, (rfl), (rfl),
    (by decide +kernel), (by decide +kernel), (by decide +kernel), (by decide +kernel), _, (rfl), (.inl rfl)⟩,
   ⟨live, 0, 0, by decide⟩,
   ⟨ended matmul1 .parked, 0, 0, _, _, _, (rfl), (rfl), by decide, (rfl), (rfl), by decide⟩,
   ⟨tiled (ctxOf (begun matmul1) .parked), 0, 0, _, _, _, (rfl), (rfl), by decide, (rfl), (rfl), by decide⟩,
   ⟨tiled (ctxOf { begun (gmm1 []) with total := 9, gmm := some { units := [], flight := [] } } .parked), 0, 0, _, _, _, (rfl),
    (rfl), by decide, (rfl), _, (rfl), (fun _ h => nomatch h)⟩,
   ⟨tiled (ctxOf { begun (gmm1 []) with total := 9, gmm := some { units := [], flight := [⟨0, .record⟩] } } .parked), 0, 0, _, _,
    _, (rfl), (rfl), by decide, (rfl), _, (rfl), (⟨_, List.mem_cons_self, rfl⟩)⟩,
   ⟨tiled (ctxOf (begun matmul1) .parked), 0, 0, _, _, _, (rfl), (rfl), by decide, (rfl), (.inl ⟨rfl, rfl, by decide +kernel⟩)⟩,
   ⟨ended matmul1 .parked, 0, 0, _, _, _, (rfl), (rfl), by decide, (rfl), (.inl ⟨rfl, .inl rfl⟩)⟩,
   ⟨live, 0, 0, by decide⟩⟩

theorem witness_EnginesCarryOutDescriptors :
    (∃ (s : State) (T : Nat) (c : Nat), s.inExec T c 1 = none) ∧
    (∃ (s : State) (T : Nat) (c : Nat), s.inExec T c 3 = none) ∧
    (∃ (s : State) (T : Nat) (c : Nat), s.inExec T c 5 = none) ∧
    (∃ (s : State) (T : Nat) (c : Nat) (v : DescEnv) (e : Exec), s.inExec T c 1 = some (v, e)) ∧
    (∃ (s : State) (T : Nat) (c : Nat) (v : DescEnv) (e : Exec), s.inExec T c 3 = some (v, e)) ∧
    (∃ (s : State) (T : Nat) (c : Nat) (v : DescEnv) (e : Exec), s.inExec T c 3 = some (v, e) ∧ checkVec s.ident.b1 e.desc = none ∧
     vOp e.desc ∈ [0x20, 0x21, 0x22, 0x25, 0x26, 0x27] ∧ vRows e.desc = 1 ∧ (∀ i, i < vCount e.desc →
     s.rangePoison (v.base + vS0 e.desc + 4 * i) 4 = none ∧ (vScalar e.desc = false →
     s.rangePoison (v.base + vS1 e.desc + 4 * i) 4 = none))) ∧
    (∃ (s : State) (T : Nat) (c : Nat) (e : Exec) (g : GmmRun) (v : DescEnv) (x : Ctx) (st : GStep) (rest : List GStep),
     x = s.ctx T c ∧ x.cur = some e ∧ e.gmm = some g ∧ s.descEnv T c e.desc = some v ∧ g.flight = st :: rest ∧ dType e.desc = 2 ∧
     x.state ≠ .faulted ∧ x.state ≠ .free ∧ ¬ (x.state = .parked ∧ st.op.fetches = true ∧ s.portHeld T e.order (true, false) = true)) ∧
    (∃ (s : State) (T : Nat) (c : Nat), ((s.ctx T c).cur = none ∨ (s.ctx T c).state = .faulted ∨ (s.ctx T c).state = .free ∨ (∃ e,
     (s.ctx T c).cur = some e ∧ (dType e.desc ≠ 2 ∨ e.gmm = none ∨ (∃ g, e.gmm = some g ∧
     g.flight = []) ∨ s.descEnv T c e.desc = none ∨ (∃ g y, e.gmm = some g ∧ g.flight.head? = some y ∧ (s.ctx T c).state = .parked ∧
     y.op.fetches = true ∧ s.portHeld T e.order (true, false) = true))))) ∧
    (∃ (s t : State) (v : DescEnv) (r : UnitRun) (p : Option Nat) (a : Nat), s.writeUnit v r = (t, p) ∧ (∀ n ya,
     n ∈ unitRows r.entry r.unit → s.yRow v r.desc r.entry n = some ya →
     a < ya + (gmNFirst r.desc + 16 * r.unit.cb) * fmtBits (gmYF r.desc) / 8 ∨ ya + max 1 (packedLen (gmYF r.desc) (gmNFirst r.desc + gmNCount r.desc)) ≤ a)) ∧
    (∃ (s : State) (T : Nat) (c : Nat) (v : DescEnv) (e : Exec), s.inExec T c 5 = some (v, e) ∧
     (s.owned (.ctx T c) = true ∨ ((s.ctx T c).state = .parked ∧ s.portHeld T e.order (e.inbound, e.outbound) = true))) ∧
    (∃ (s : State) (T : Nat) (c : Nat) (v : DescEnv) (e : Exec), s.inExec T c 5 = some (v, e) ∧ s.owned (.ctx T c) = false ∧
     ((s.ctx T c).state ≠ .parked ∨ s.portHeld T e.order (e.inbound, e.outbound) = false) ∧
     s.ownNode (cpSrc e.desc / 2 ^ 48) = false ∧ s.ownNode (cpDst e.desc / 2 ^ 48) = false) ∧
    (∃ (s : State) (T : Nat) (c : Nat) (v : DescEnv) (e : Exec), s.inExec T c 5 = some (v, e) ∧ s.owned (.ctx T c) = false ∧
     ((s.ctx T c).state ≠ .parked ∨ s.portHeld T e.order (e.inbound, e.outbound) = false) ∧
     s.ownNode (cpSrc e.desc / 2 ^ 48) = true ∧ s.ownNode (cpDst e.desc / 2 ^ 48) = true ∧ ∃ a,
     s.copyOffending v (copyPieces s v.base e.desc) false false = some a) ∧
    (∃ (s : State) (T : Nat) (c : Nat) (v : DescEnv) (e : Exec), s.inExec T c 5 = some (v, e) ∧ s.owned (.ctx T c) = false ∧
     ((s.ctx T c).state ≠ .parked ∨ s.portHeld T e.order (e.inbound, e.outbound) = false) ∧
     s.ownNode (cpSrc e.desc / 2 ^ 48) = true ∧ s.ownNode (cpDst e.desc / 2 ^ 48) = true ∧ ∃ a, ∃ b, cpMode e.desc = 0 ∧
     s.descAddr v.seat (cpSrc e.desc) (cpLen e.desc) = some a ∧ s.descAddr v.seat (cpDst e.desc) (cpLen e.desc) = some b) ∧
    (∃ (s : State) (T : Nat) (c : Nat) (v : DescEnv) (e : Exec), s.inExec T c 5 = some (v, e) ∧ s.owned (.ctx T c) = false ∧
     ((s.ctx T c).state ≠ .parked ∨ s.portHeld T e.order (e.inbound, e.outbound) = false) ∧ ∃ far, cpMode e.desc = 0 ∧
     s.ownNode (cpSrc e.desc / 2 ^ 48) ≠ s.ownNode (cpDst e.desc / 2 ^ 48) ∧
     far = (if s.ownNode (cpSrc e.desc / 2 ^ 48) then cpDst e.desc else cpSrc e.desc) ∧ (far % 64 ≠ 0 ∨ cpLen e.desc % 64 ≠ 0)) ∧
    (∃ (s : State) (T : Nat) (c : Nat) (v : DescEnv) (e : Exec), s.inExec T c 5 = some (v, e) ∧ s.owned (.ctx T c) = false ∧
     ((s.ctx T c).state ≠ .parked ∨ s.portHeld T e.order (e.inbound, e.outbound) = false) ∧ ∃ far, cpMode e.desc = 0 ∧
     s.ownNode (cpSrc e.desc / 2 ^ 48) ≠ s.ownNode (cpDst e.desc / 2 ^ 48) ∧
     far = (if s.ownNode (cpSrc e.desc / 2 ^ 48) then cpDst e.desc else cpSrc e.desc) ∧ far % 64 = 0 ∧ cpLen e.desc % 64 = 0 ∧ ∃ b,
     far = cpSrc e.desc ∧ s.ownNode (cpDst e.desc / 2 ^ 48) = true ∧ s.descAddr v.seat (cpDst e.desc) (cpLen e.desc) = some b) ∧
    (∃ (s : State) (T : Nat) (c : Nat) (v : DescEnv) (e : Exec), s.inExec T c 5 = some (v, e) ∧ s.owned (.ctx T c) = false ∧
     ((s.ctx T c).state ≠ .parked ∨ s.portHeld T e.order (e.inbound, e.outbound) = false) ∧ ∃ far, cpMode e.desc = 0 ∧
     s.ownNode (cpSrc e.desc / 2 ^ 48) ≠ s.ownNode (cpDst e.desc / 2 ^ 48) ∧
     far = (if s.ownNode (cpSrc e.desc / 2 ^ 48) then cpDst e.desc else cpSrc e.desc) ∧ far % 64 = 0 ∧ cpLen e.desc % 64 = 0 ∧ ∃ a,
     far = cpDst e.desc ∧ s.ownNode (cpSrc e.desc / 2 ^ 48) = true ∧ s.descAddr v.seat (cpSrc e.desc) (cpLen e.desc) = some a) :=
  ⟨⟨live, 0, 0, by decide⟩,
   ⟨live, 0, 0, by decide⟩,
   ⟨live, 0, 0, by decide⟩,
   ⟨executing matmul1, 0, 0, _, _, (rfl)⟩,
   ⟨executing (vec 0x20 2), 0, 0, _, _, (rfl)⟩,
   ⟨executing (vec 0x20 2), 0, 0, _, _, (rfl), (by decide +kernel), by decide, by decide, (by decide +kernel)⟩,
   ⟨tiled (ctxOf { begun (gmm1 []) with total := 9, gmm := some { units := [], flight := [⟨0, .table⟩] } } .issuing), 0, 0, _, _,
    _, _, _, _, (rfl), (rfl), (rfl), (rfl), (rfl), (by decide +kernel), (by decide +kernel), (by decide +kernel),
    (fun h => nomatch h.1)⟩,
   ⟨tiled {}, 0, 0, (.inl rfl)⟩,
   ⟨seated goodSeat, _, ⟨1, goodSeat, 0, 0, 0, ⟨0, 0, 0, 0⟩⟩, { ownerRun with entry := { entry0 with count := 0 } }, _, 0, rfl,
    fun _ _ h => absurd h (by simp [unitRows])⟩,
   ⟨{ executing (descOf 5 [(16, 8, 4096), (24, 8, 8192), (32, 4, 64)]) with ni := { requests := [(4, ⟨5, 2, 0, 0, 9, 1, 0, .read [(0, 64)], .ctx 0 0, 0⟩)] } },
    0, 0, _, _, (rfl), (.inl (by decide +kernel))⟩,
   ⟨executing (descOf 5 [(16, 8, 0x5000000001000), (24, 8, 0x5000000001000), (32, 4, 64)]), 0, 0, _, _, (rfl), (by decide +kernel),
    (.inl (by decide +kernel)), (by decide +kernel), (by decide +kernel)⟩,
   ⟨executing (descOf 5 [(16, 8, 4096), (24, 8, 0x640000000), (32, 4, 64)]), 0, 0, _, _, (rfl), (by decide +kernel),
    (.inl (by decide +kernel)), (by decide +kernel), (by decide +kernel), 0x640000000, (by decide +kernel)⟩,
   ⟨executing (descOf 5 [(16, 8, 4096), (24, 8, 8192), (32, 4, 64)]), 0, 0, _, _, (rfl), (by decide +kernel),
    (.inl (by decide +kernel)), (by decide +kernel), (by decide +kernel), 4096, 8192, (by decide +kernel), (by decide +kernel),
    (by decide +kernel)⟩,
   ⟨executing (descOf 5 [(16, 8, 0x5000000001000), (24, 8, 8192), (32, 4, 32)]), 0, 0, _, _, (rfl), (by decide +kernel),
    (.inl (by decide +kernel)), _, (by decide +kernel), (by decide +kernel), (rfl), (.inr (by decide +kernel))⟩,
   ⟨executing (descOf 5 [(16, 8, 0x5000000001000), (24, 8, 8192), (32, 4, 64)]), 0, 0, _, _, (rfl), (by decide +kernel),
    (.inl (by decide +kernel)), _, (by decide +kernel), (by decide +kernel), (rfl), (by decide +kernel), (by decide +kernel), 8192,
    (by decide +kernel), (by decide +kernel), (by decide +kernel)⟩,
   ⟨executing (descOf 5 [(16, 8, 4096), (24, 8, 0x5000000001000), (32, 4, 64)]), 0, 0, _, _, (rfl), (by decide +kernel),
    (.inl (by decide +kernel)), _, (by decide +kernel), (by decide +kernel), (rfl), (by decide +kernel), (by decide +kernel), 4096,
    (by decide +kernel), (by decide +kernel), (by decide +kernel)⟩⟩

theorem witness_GroupsOfTilesShareWork :
    (∃ (s : State) (T : Nat), s.thieves T = []) ∧
    (∃ (s : State) (T : Nat) (r : State × Bool),
     r = (arbOrder 9 (s.tile T).queuePtr (·.1) (s.thieves T)).foldl (fun (a : State × Bool) q => ((a.1.grantSteal T q.2.1 q.2.2).1,
     a.2 || !(a.1.grantSteal T q.2.1 q.2.2).2)) (s, false) ∧ r.2 = false) ∧
    (∃ (s : State) (T : Nat) (r : State × Bool),
     r = (arbOrder 9 (s.tile T).queuePtr (·.1) (s.thieves T)).foldl (fun (a : State × Bool) q => ((a.1.grantSteal T q.2.1 q.2.2).1,
     a.2 || !(a.1.grantSteal T q.2.1 q.2.2).2)) (s, false) ∧ r.2 = true) ∧
    (∃ (s : State) (T : Nat) (n : Nat) (th : Nat) (thc : Nat), (n, th, thc) ∈ s.thieves T) ∧
    (∃ (s : State) (T : Nat) (c : Nat) (th : Nat) (thc : Nat) (x : Ctx) (the : Exec) (e : Exec) (tg : GmmRun) (g : GmmRun) (v : DescEnv) (tv : DescEnv),
     (s.ctx th thc).cur = some the ∧ the.gmm = some tg ∧ th ≠ T ∧
     (s.stealing T).find? (fun q => q.2.1.seat == (s.ctx th thc).seat && gmGt q.2.2.1.desc == gmGt the.desc && (stealable q.2.2.2).isSome) = some (c,
     x, e, g) ∧ s.descEnv T c e.desc = some v ∧ s.descEnv th thc the.desc = some tv ∧ (∀ u, g.units.getLast? = some u →
     s.gtEntry v e.desc u.entry ≠ none)) ∧
    (∃ (s : State) (T : Nat) (th : Nat) (thc : Nat) (the : Exec), (s.ctx th thc).cur = some the ∧
     (s.stealing T).find? (fun q => q.2.1.seat == (s.ctx th thc).seat && gmGt q.2.2.1.desc == gmGt the.desc && (stealable q.2.2.2).isSome) = none) ∧
    (∃ (s : State) (i : Nat), s.sync.slotWrites[i]? = none) ∧
    (∃ (s z : State) (i : Nat) (w : SlotWrite) (e : Exec) (g : GmmRun), s.sync.slotWrites[i]? = some w ∧
     z = { s with sync := { s.sync with slotWrites := s.sync.slotWrites.eraseIdx i } }.stolenLands w.thief w.thiefCtx ∧
     (s.ctx w.thief w.thiefCtx).cur = some e ∧ e.gmm = some g) ∧
    (∃ (s : State) (z : State) (i : Nat) (w : SlotWrite), s.sync.slotWrites[i]? = some w ∧
     z = { s with sync := { s.sync with slotWrites := s.sync.slotWrites.eraseIdx i } }.stolenLands w.thief w.thiefCtx ∧
     (z.ctx w.owner w.ownerCtx).cur = none) ∧
    (∃ (s : State) (z : State) (i : Nat) (w : SlotWrite), s.sync.slotWrites[i]? = some w ∧
     z = { s with sync := { s.sync with slotWrites := s.sync.slotWrites.eraseIdx i } }.stolenLands w.thief w.thiefCtx ∧ ∃ e,
     (z.ctx w.owner w.ownerCtx).cur = some e ∧
     (e.gmm = none ∨ z.descEnv w.owner w.ownerCtx e.desc = none ∨ (z.ctx w.owner w.ownerCtx).state = .faulted)) ∧
    (∃ (s : State) (z : State) (i : Nat) (w : SlotWrite), s.sync.slotWrites[i]? = some w ∧
     z = { s with sync := { s.sync with slotWrites := s.sync.slotWrites.eraseIdx i } }.stolenLands w.thief w.thiefCtx ∧ ∃ e,
     (z.ctx w.owner w.ownerCtx).cur = some e ∧ ∃ g, ∃ v, e.gmm = some g ∧ z.descEnv w.owner w.ownerCtx e.desc = some v ∧
     (z.ctx w.owner w.ownerCtx).state ≠ .faulted ∧ g.run? w.run = none) ∧
    (∃ (s : State) (z : State) (i : Nat) (w : SlotWrite), s.sync.slotWrites[i]? = some w ∧
     z = { s with sync := { s.sync with slotWrites := s.sync.slotWrites.eraseIdx i } }.stolenLands w.thief w.thiefCtx ∧ ∃ e,
     (z.ctx w.owner w.ownerCtx).cur = some e ∧ ∃ g, ∃ v, e.gmm = some g ∧ z.descEnv w.owner w.ownerCtx e.desc = some v ∧
     (z.ctx w.owner w.ownerCtx).state ≠ .faulted ∧ ∃ r, g.run? w.run = some r ∧ (w.seg, w.thief) ∉ r.given) ∧
    (∃ (s : State) (z : State) (i : Nat) (w : SlotWrite), s.sync.slotWrites[i]? = some w ∧
     z = { s with sync := { s.sync with slotWrites := s.sync.slotWrites.eraseIdx i } }.stolenLands w.thief w.thiefCtx ∧ ∃ e,
     (z.ctx w.owner w.ownerCtx).cur = some e ∧ ∃ g, ∃ v, e.gmm = some g ∧ z.descEnv w.owner w.ownerCtx e.desc = some v ∧
     (z.ctx w.owner w.ownerCtx).state ≠ .faulted ∧ ∃ r, g.run? w.run = some r ∧ (w.seg, w.thief) ∈ r.given) ∧
    (∃ (r : UnitRun) (x : SegSums), FMap.find? r.sums r.merged = some x ∧
     FMap.find? (FMap.erase r.sums r.merged) (r.merged + 1) = none) :=
  ⟨⟨live, 0, by decide⟩,
   ⟨live, 0, _, rfl, by decide⟩,
   ⟨{ stealTile with tiles := stealTile.tiles ++ [(2, stealTile.tile 1)] }, 0, _, (rfl), (by decide +kernel)⟩,
   ⟨stealTile, 0, 1, 1, 0, (by decide +kernel)⟩,
   ⟨stealTile, 0, 0, 1, 0, _, _, _, _, _, _, _, (rfl), (rfl), (by decide), (rfl), (rfl), (rfl),
    (by intro u h; cases h; decide +kernel)⟩,
   ⟨{ stealTile with tiles := stealTile.tiles.drop 1 }, 0, 1, 0, _, (rfl), (rfl)⟩,
   ⟨live, 0, by decide⟩,
   ⟨slotArrived, _, 0, _, _, _, rfl, rfl, rfl, rfl⟩,
   ⟨{ slotArrived with tiles := [(0, { ctxs := { seat := 1 } :: List.replicate 7 {}, last := 0 })] }, _, 0, _, (rfl), (rfl), (rfl)⟩,
   ⟨{ slotArrived with tiles := [(0, { ctxs := ctxOf { begun (gmm1 [(31, 1, 20), (36, 4, 65536)]) with gmm := some { units := [], runs := [ownerRun] } } .faulted :: List.replicate 7 {}, last := 0 })] },
    _, 0, _, (rfl), (rfl), _, (rfl), (.inr (.inr (by decide +kernel)))⟩,
   ⟨{ slotArrived with tiles := [(0, { ctxs := ctxOf { begun (gmm1 [(31, 1, 20), (36, 4, 65536)]) with gmm := some { units := [], runs := [] } } .issuing :: List.replicate 7 {}, last := 0 })] },
    _, 0, _, (rfl), (rfl), _, (rfl), _, _, (rfl), (rfl), (by decide +kernel), (rfl)⟩,
   ⟨{ slotArrived with tiles := [(0, { ctxs := ctxOf { begun (gmm1 [(31, 1, 20), (36, 4, 65536)]) with gmm := some { units := [], runs := [{ ownerRun with given := [(1, 2)] }] } } .issuing :: List.replicate 7 {}, last := 0 })] },
    _, 0, _, (rfl), (rfl), _, (rfl), _, _, (rfl), (rfl), (by decide +kernel), _, (rfl), (by decide +kernel)⟩,
   ⟨slotArrived, _, 0, _, (rfl), (rfl), _, (rfl), _, _, (rfl), (rfl), (by decide +kernel), _, (rfl), (by decide +kernel)⟩,
   ⟨{ ownerRun with sums := [(0, [(5, none)])], nseg := 2 }, _, (rfl), (rfl)⟩⟩

theorem witness_SignalsCountAndBarriersMeet :
    (∃ (s : State) (T : Nat) (c : Nat), (∀ v e, s.inExec T c 7 = some (v, e) → syOp e.desc ≠ 0)) ∧
    (∃ (s : State) (T : Nat) (c : Nat), (∀ v e, s.inExec T c 7 = some (v, e) → syOp e.desc ≠ 2)) ∧
    (∃ (s : State) (T : Nat) (c : Nat), (∀ v e, s.inExec T c 7 = some (v, e) → syOp e.desc ≠ 1)) ∧
    (∃ (s : State) (T : Nat) (c : Nat) (v : DescEnv) (e : Exec) (g : Target) (i : Instr), s.inExec T c 7 = some (v, e) ∧
     ((syOp e.desc = 0 ∧ i = .syncSignal T c) ∨ (syOp e.desc = 2 ∧ i = .syncSet T c)) ∧
     crefTarget v.seat v.view (syCref e.desc) = some g ∧ (∃ k, g = .tile v.view k)) ∧
    (∃ (s : State) (T : Nat) (c : Nat) (v : DescEnv) (e : Exec) (g : Target) (i : Instr), s.inExec T c 7 = some (v, e) ∧
     ((syOp e.desc = 0 ∧ i = .syncSignal T c) ∨ (syOp e.desc = 2 ∧ i = .syncSet T c)) ∧
     crefTarget v.seat v.view (syCref e.desc) = some g ∧ (∀ k, g ≠ .tile v.view k) ∧ (∀ x ∈ s.sync.signals, ¬ (x.parks = true ∧
     x.seat = v.seatNo ∧ x.tile = v.view ∧ x.ctx = c))) ∧
    (∃ (s : State) (T : Nat) (c : Nat) (v : DescEnv) (e : Exec) (g : Target) (i : Instr), s.inExec T c 7 = some (v, e) ∧
     ((syOp e.desc = 0 ∧ i = .syncSignal T c) ∨ (syOp e.desc = 2 ∧ i = .syncSet T c)) ∧
     crefTarget v.seat v.view (syCref e.desc) = some g ∧ (∀ k, g ≠ .tile v.view k) ∧ (∃ x ∈ s.sync.signals, x.parks = true ∧
     x.seat = v.seatNo ∧ x.tile = v.view ∧ x.ctx = c)) ∧
    (∃ (s : State) (T : Nat) (c : Nat) (v : DescEnv) (e : Exec) (i : Instr), s.inExec T c 7 = some (v, e) ∧ ((syOp e.desc = 0 ∧
     i = .syncSignal T c) ∨ (syOp e.desc = 2 ∧ i = .syncSet T c)) ∧ crefTarget v.seat v.view (syCref e.desc) = none) ∧
    (∃ (s : State) (T : Nat) (c : Nat) (v : DescEnv) (e : Exec), s.inExec T c 7 = some (v, e) ∧ syOp e.desc = 1) ∧
    (∃ (s : State) (i : Nat), s.sync.signals[i]? = none) ∧
    (∃ (s : State) (i : Nat) (j : Nat) (g : Signal) (x : Signal), s.sync.signals[i]? = some g ∧ s.sync.signals[j]? = some x ∧
     j < i ∧ x.seat = g.seat ∧ x.tile = g.tile ∧ x.target.unit = g.target.unit) ∧
    (∃ (s : State) (z : State) (i : Nat) (g : Signal), s.sync.signals[i]? = some g ∧ (∀ j x, j < i → s.sync.signals[j]? = some x →
     x.seat = g.seat → x.tile = g.tile → x.target.unit ≠ g.target.unit) ∧
     z = { s with sync := { s.sync with signals := s.sync.signals.eraseIdx i } } ∧ ∃ q, s.seat? g.seat = some q ∧
     q.preempt.phase ≠ .none ∧ (∀ n, g.target ≠ .ni n)) ∧
    (∃ (s : State) (z : State) (i : Nat) (g : Signal), s.sync.signals[i]? = some g ∧ (∀ j x, j < i → s.sync.signals[j]? = some x →
     x.seat = g.seat → x.tile = g.tile → x.target.unit ≠ g.target.unit) ∧
     z = { s with sync := { s.sync with signals := s.sync.signals.eraseIdx i } } ∧ (s.seat? g.seat = none ∨ (∃ q,
     s.seat? g.seat = some q ∧ q.preempt.phase = .none) ∨ ∃ n, g.target = .ni n) ∧ g.parks = false) ∧
    (∃ (s : State) (z : State) (i : Nat) (g : Signal), s.sync.signals[i]? = some g ∧ (∀ j x, j < i → s.sync.signals[j]? = some x →
     x.seat = g.seat → x.tile = g.tile → x.target.unit ≠ g.target.unit) ∧
     z = { s with sync := { s.sync with signals := s.sync.signals.eraseIdx i } } ∧ (s.seat? g.seat = none ∨ (∃ q,
     s.seat? g.seat = some q ∧ q.preempt.phase = .none) ∨ ∃ n, g.target = .ni n) ∧ g.parks = true ∧ ∃ q, ∃ T, ∃ e,
     s.seat? g.seat = some q ∧ q.tile? g.tile = some T ∧ (s.ctx T g.ctx).cur = some e ∧ dType e.desc = 7 ∧ e.gmm = none ∧
     (s.ctx T g.ctx).state = .parked) ∧
    (∃ (s : State) (z : State) (i : Nat) (g : Signal), s.sync.signals[i]? = some g ∧ (∀ j x, j < i → s.sync.signals[j]? = some x →
     x.seat = g.seat → x.tile = g.tile → x.target.unit ≠ g.target.unit) ∧
     z = { s with sync := { s.sync with signals := s.sync.signals.eraseIdx i } } ∧ (s.seat? g.seat = none ∨ (∃ q,
     s.seat? g.seat = some q ∧ q.preempt.phase = .none) ∨ ∃ n, g.target = .ni n) ∧ g.parks = true ∧ (∀ q T,
     s.seat? g.seat = some q → q.tile? g.tile = some T → ((s.ctx T g.ctx).state ≠ .parked ∨ ∀ e, (s.ctx T g.ctx).cur = some e →
     dType e.desc ≠ 7))) ∧
    (∃ (s : State) (T : Nat) (c : Nat), ∃ e, (s.ctx T c).cur = some e ∧ dType e.desc = 7 ∧ syOp e.desc = 1 ∧
     (s.ctx T c).state = .waiting ∧ syLimit e.desc ≠ 0 ∧ s.waitHolds (s.ctx T c) (s.view (s.ctx T c).seat T) e.desc = false) ∧
    (∃ (s : State) (T : Nat) (c : Nat), (∀ e, (s.ctx T c).cur = some e →
     (dType e.desc ≠ 7 ∨ syOp e.desc ≠ 1 ∨ (s.ctx T c).state ≠ .waiting ∨ syLimit e.desc = 0 ∨ s.waitHolds (s.ctx T c) (s.view (s.ctx T c).seat T) e.desc = true))) ∧
    (∃ (s : State) (T : Nat) (c : Nat), s.inExec T c 8 = none) ∧
    (∃ (s : State) (T : Nat) (c : Nat), ∃ v, ∃ e, s.inExec T c 8 = some (v, e)) ∧
    (∃ (s : State) (i : Nat), s.sync.arrivals[i]? = none) ∧
    (∃ (s : State) (z : State) (i : Nat) (a : Arrival) (me : Counted), s.sync.arrivals[i]? = some a ∧
     z = { s with sync := { s.sync with arrivals := s.sync.arrivals.eraseIdx i } } ∧
     me = { tile := a.tile, ctx := a.ctx, since := a.since, tc := s.time / tcUnits } ∧ (∀ j r, ¬ givesWay s a me j r)) ∧
    (∃ (s : State) (z : State) (i : Nat) (a : Arrival) (me : Counted), s.sync.arrivals[i]? = some a ∧
     z = { s with sync := { s.sync with arrivals := s.sync.arrivals.eraseIdx i } } ∧
     me = { tile := a.tile, ctx := a.ctx, since := a.since, tc := s.time / tcUnits } ∧ ∃ j, ∃ r, givesWay s a me j r ∧ (∀ k y,
     givesWay s a me k y → k ≠ j → r.who.after y.who = true)) ∧
    (∃ (s : State) (i : Nat), s.sync.releases[i]? = none) ∧
    (∃ (s : State) (z : State) (i : Nat) (r : Release), s.sync.releases[i]? = some r ∧
     z = { s with sync := { s.sync with releases := s.sync.releases.eraseIdx i } } ∧ s.waiter r.seat r.home r.bid r.who = none) ∧
    (∃ (s : State) (z : State) (i : Nat) (r : Release), s.sync.releases[i]? = some r ∧
     z = { s with sync := { s.sync with releases := s.sync.releases.eraseIdx i } } ∧ ∃ T, ∃ e,
     s.waiter r.seat r.home r.bid r.who = some T ∧ (s.ctx T r.who.ctx).cur = some e) ∧
    (∃ (s : State) (q : Seat) (seat : Nat) (T : Nat) (a : Counted) (e : Exec), s.seat? seat = some q ∧ q.tile? a.tile = some T ∧
     (s.ctx T a.ctx).cur = some e) ∧
    (∃ (s : State) (T : Nat) (c : Nat), ∃ e, (s.ctx T c).cur = some e ∧ dType e.desc = 8 ∧ (s.ctx T c).state = .waiting ∧
     brLimit e.desc ≠ 0) ∧
    (∃ (s : State) (T : Nat) (c : Nat), (∀ e, (s.ctx T c).cur = some e →
     (dType e.desc ≠ 8 ∨ (s.ctx T c).state ≠ .waiting ∨ brLimit e.desc = 0))) :=
  ⟨⟨tiled {}, 0, 0, (fun _ _ h => nomatch h)⟩,
   ⟨tiled {}, 0, 0, (fun _ _ h => nomatch h)⟩,
   ⟨tiled {}, 0, 0, (fun _ _ h => nomatch h)⟩,
   ⟨executing (descOf 7 [(12, 1, 0), (16, 4, 5), (20, 4, 3)]), 0, 0, _, _, _, _, (rfl), (.inl ⟨by decide +kernel, rfl⟩), (rfl),
    (⟨_, rfl⟩)⟩,
   ⟨executing (descOf 7 [(12, 1, 0), (16, 4, 0x30000005), (20, 4, 3)]), 0, 0, _, _, _, _, (rfl), (.inl ⟨by decide +kernel, rfl⟩),
    (rfl), (fun _ h => nomatch h), (fun _ h => nomatch h)⟩,
   ⟨{ executing (descOf 7 [(12, 1, 0), (16, 4, 0x30000005), (20, 4, 3)]) with sync := { signals := [⟨1, .tile 5 5, false, 3, 0, 0, true⟩] } },
    0, 0, _, _, _, _, (rfl), (.inl ⟨by decide +kernel, rfl⟩), (rfl), (fun _ h => nomatch h), (⟨_, List.mem_cons_self, rfl, rfl, rfl,
    rfl⟩)⟩,
   ⟨executing (descOf 7 [(12, 1, 2), (16, 4, 0xF0000005), (20, 4, 3)]), 0, 0, _, _, _, (rfl), (.inr ⟨by decide +kernel, rfl⟩),
    (rfl)⟩,
   ⟨executing (descOf 7 [(12, 1, 1), (16, 4, 5)]), 0, 0, _, _, (rfl), by decide⟩,
   ⟨.reset, 0, by decide⟩,
   ⟨{ seated goodSeat with sync := { signals := [⟨1, .tile 0 5, false, 3, 0, 0, false⟩, ⟨1, .tile 0 5, false, 3, 0, 0, false⟩] } },
    1, 0, _, _, (rfl), (rfl), by decide, by decide, by decide, by decide⟩,
   ⟨{ seated { goodSeat with preempt := { phase := .saved } } with sync := { signals := [⟨1, .tile 0 5, false, 3, 0, 0, false⟩] } },
    _, 0, _, (rfl), (fun _ _ h => absurd h (Nat.not_lt_zero _)), (rfl), _, (rfl), (by decide +kernel), (fun _ h => nomatch h)⟩,
   ⟨{ seated goodSeat with sync := { signals := [⟨1, .tile 0 5, false, 3, 0, 0, false⟩] } }, _, 0, _, (rfl),
    (fun _ _ h => absurd h (Nat.not_lt_zero _)), (rfl), (.inr (.inl ⟨_, rfl, rfl⟩)), (rfl)⟩,
   ⟨{ tiled (ctxOf (begun (descOf 7 [])) .parked) with sync := { signals := [⟨1, .tile 0 5, false, 3, 0, 0, true⟩] } }, _, 0, _,
    (rfl), (fun _ _ h => absurd h (Nat.not_lt_zero _)), (rfl), (.inr (.inl ⟨_, rfl, rfl⟩)), (rfl), _, 0, _, (rfl), (rfl), (rfl),
    (by decide +kernel), (rfl), (rfl)⟩,
   ⟨{ seated goodSeat with sync := { signals := [⟨1, .tile 0 5, false, 3, 0, 0, true⟩] } }, _, 0, _, (rfl),
    (fun _ _ h => absurd h (Nat.not_lt_zero _)), (rfl), (.inr (.inl ⟨_, rfl, rfl⟩)), (rfl),
    (fun _ _ h1 h2 => by cases h1; cases h2; exact .inl (by decide))⟩,
   ⟨tiled (ctxOf (begun (descOf 7 [(12, 1, 1), (20, 4, 5), (24, 4, 9)])) .waiting), 0, 0, _, (rfl), by decide, by decide,
    by decide, by decide, by decide⟩,
   ⟨.reset, 0, 0, by decide⟩,
   ⟨.reset, 0, 0, by decide⟩,
   ⟨executing (descOf 8 [(16, 4, 2)]), 0, 0, _, _, (rfl)⟩,
   ⟨.reset, 0, by decide⟩,
   ⟨{ seated goodSeat with sync := { arrivals := [⟨1, 0, 0, 2, 0, 0, 0⟩] } }, _, 0, _, _, (rfl), (rfl), (rfl),
    (fun _ _ h => nomatch h.1)⟩,
   ⟨{ seated goodSeat with sync := { arrivals := [⟨1, 0, 0, 2, 0, 0, 0⟩], releases := [⟨1, 0, 0, 2, ⟨3, 0, 0, 0⟩, 0⟩] } }, _, 0, _,
    _, (rfl), (rfl), (rfl), 0, _, (⟨rfl, rfl, rfl, rfl, rfl, rfl, rfl, by decide⟩),
    (fun k _ h hk => by cases k with | zero => exact absurd rfl hk | succ n => exact nomatch h.1)⟩,
   ⟨.reset, 0, by decide⟩,
   ⟨{ seated goodSeat with sync := { releases := [⟨1, 0, 0, 2, ⟨0, 0, 0, 0⟩, 0⟩] } }, _, 0, _, (rfl), (rfl), (rfl)⟩,
   ⟨{ tiled (ctxOf (begun (descOf 8 [(16, 4, 2)])) .waiting) with sync := { releases := [⟨1, 0, 0, 2, ⟨0, 0, 0, 0⟩, 0⟩] } }, _, 0,
    _, (rfl), (rfl), 0, _, (by decide +kernel), (rfl)⟩,
   ⟨tiled (ctxOf (begun (descOf 8 [])) .waiting), _, 1, 0, ⟨0, 0, 0, 0⟩, _, (rfl), (rfl), (rfl)⟩,
   ⟨tiled (ctxOf (begun (descOf 8 [(20, 4, 9)])) .waiting), 0, 0, _, (rfl), by decide, by decide, by decide⟩,
   ⟨.reset, 0, 0, by decide⟩⟩

theorem witness_DescriptorsAreHandedOver :
    (∃ (s : State) (T : Nat) (c : Nat), (s.inExec T c 6 = none ∨ (T, c) ∈ s.flash.asks)) ∧
    (∃ (s : State) (T : Nat) (c : Nat), s.inExec T c 6 ≠ none ∧ (T, c) ∉ s.flash.asks) ∧
    (∃ (s : State) (T : Nat) (c : Nat), s.inExec T c 10 = none) ∧
    (∃ (s : State) (T : Nat) (c : Nat), (s.inExec T c 9 = none ∨ ∃ a ∈ s.druind.asks, a.tile = T ∧ a.ctx = c)) ∧
    (∃ (s : State) (T : Nat) (c : Nat) (v : DescEnv) (e : Exec), s.inExec T c 10 = some (v, e) ∧ ∃ st,
     checkAction s v.seatNo v.seat (ntAction e.desc) (ntClass e.desc) (ntLen e.desc) (e.desc.drop 32) = some st) ∧
    (∃ (s : State) (T : Nat) (c : Nat) (v : DescEnv) (e : Exec), s.inExec T c 10 = some (v, e) ∧
     checkAction s v.seatNo v.seat (ntAction e.desc) (ntClass e.desc) (ntLen e.desc) (e.desc.drop 32) = none ∧
     let k := trigKey v.seatNo (niHub (ntCtr e.desc)) (ntSlot e.desc); FMap.find? s.ni.triggers k = none) ∧
    (∃ (s : State) (T : Nat) (c : Nat) (v : DescEnv) (e : Exec), s.inExec T c 10 = some (v, e) ∧
     checkAction s v.seatNo v.seat (ntAction e.desc) (ntClass e.desc) (ntLen e.desc) (e.desc.drop 32) = none ∧
     let k := trigKey v.seatNo (niHub (ntCtr e.desc)) (ntSlot e.desc); FMap.find? s.ni.triggers k ≠ none) ∧
    (∃ (s : State) (y : State) (T : Nat) (c : Nat) (v : DescEnv) (e : Exec), s.inExec T c 9 = some (v, e) ∧ (∀ a ∈ s.druind.asks,
     ¬ (a.tile = T ∧ a.ctx = c)) ∧ y = s.onSeat v.seatNo (fun q => { q with routed := q.routed ++ [roSpace e.desc] }) ∧
     FMap.find? v.seat.spaces (roSpace e.desc) = none) ∧
    (∃ (s : State) (y : State) (T : Nat) (c : Nat) (v : DescEnv) (e : Exec), s.inExec T c 9 = some (v, e) ∧ (∀ a ∈ s.druind.asks,
     ¬ (a.tile = T ∧ a.ctx = c)) ∧ y = s.onSeat v.seatNo (fun q => { q with routed := q.routed ++ [roSpace e.desc] }) ∧ ∃ sp,
     FMap.find? v.seat.spaces (roSpace e.desc) = some sp ∧ roSpace e.desc ∈ v.seat.routed) ∧
    (∃ (s : State) (y : State) (T : Nat) (c : Nat) (v : DescEnv) (e : Exec), s.inExec T c 9 = some (v, e) ∧ (∀ a ∈ s.druind.asks,
     ¬ (a.tile = T ∧ a.ctx = c)) ∧ y = s.onSeat v.seatNo (fun q => { q with routed := q.routed ++ [roSpace e.desc] }) ∧ ∃ sp,
     FMap.find? v.seat.spaces (roSpace e.desc) = some sp ∧ roSpace e.desc ∉ v.seat.routed ∧
     (spE sp.record < roK e.desc ∨ (spPolicy sp.record = 1 ∧
     spE sp.record < roK e.desc * (1 + spProbe sp.record)) ∨ (roGrant e.desc = true ∧ s.groupOf v.seatNo (roGroup e.desc) = none))) ∧
    (∃ (s : State) (y : State) (T : Nat) (c : Nat) (v : DescEnv) (e : Exec), s.inExec T c 9 = some (v, e) ∧ (∀ a ∈ s.druind.asks,
     ¬ (a.tile = T ∧ a.ctx = c)) ∧ y = s.onSeat v.seatNo (fun q => { q with routed := q.routed ++ [roSpace e.desc] }) ∧ ∃ sp,
     FMap.find? v.seat.spaces (roSpace e.desc) = some sp ∧ roSpace e.desc ∉ v.seat.routed ∧ roK e.desc ≤ spE sp.record ∧
     (spPolicy sp.record = 1 → roK e.desc * (1 + spProbe sp.record) ≤ spE sp.record) ∧ (roGrant e.desc = true →
     s.groupOf v.seatNo (roGroup e.desc) ≠ none) ∧ s.leadOf v.seat T = none) ∧
    (∃ (s : State) (y : State) (T : Nat) (c : Nat) (v : DescEnv) (e : Exec), s.inExec T c 9 = some (v, e) ∧ (∀ a ∈ s.druind.asks,
     ¬ (a.tile = T ∧ a.ctx = c)) ∧ y = s.onSeat v.seatNo (fun q => { q with routed := q.routed ++ [roSpace e.desc] }) ∧ ∃ sp,
     FMap.find? v.seat.spaces (roSpace e.desc) = some sp ∧ roSpace e.desc ∉ v.seat.routed ∧ roK e.desc ≤ spE sp.record ∧
     (spPolicy sp.record = 1 → roK e.desc * (1 + spProbe sp.record) ≤ spE sp.record) ∧ (roGrant e.desc = true →
     s.groupOf v.seatNo (roGroup e.desc) ≠ none) ∧ ∃ lead, s.leadOf v.seat T = some lead) ∧
    (∃ (s : State) (T : Nat) (c : Nat), (∀ e, (s.ctx T c).cur = some e →
     (dType e.desc ≠ 4 ∨ (s.ctx T c).state = .free ∨ e.joined = true ∨ ((s.ctx T c).state ≠ .faulted ∧
     s.inExec T c 4 = none) ∨ ((s.ctx T c).state = .faulted ∧ rdGroup e.desc = 0xFFFF)))) ∧
    (∃ (s : State) (T : Nat) (c : Nat) (v : DescEnv) (e : Exec), s.inExec T c 4 = some (v, e) ∧ e.joined = false ∧
     rdGroup e.desc ≠ 0xFFFF ∧ s.groupOf v.seatNo (rdGroup e.desc) = none) ∧
    (∃ (s : State) (T : Nat) (c : Nat) (v : DescEnv) (e : Exec), s.inExec T c 4 = some (v, e) ∧ e.joined = false ∧
     (∀ r ∈ s.sync.reduces, r.seat ≠ v.seatNo) ∧ (rdGroup e.desc ≠ 0xFFFF → s.groupOf v.seatNo (rdGroup e.desc) ≠ none) ∧
     1 < rdTiles e.desc ∧ s.reduceBroken v.seatNo v.seat e.desc = none) ∧
    (∃ (s : State) (T : Nat) (c : Nat) (v : DescEnv) (e : Exec), s.inExec T c 4 = some (v, e) ∧ e.joined = false ∧ ∃ b,
     (∀ r ∈ s.sync.reduces, r.seat ≠ v.seatNo) ∧ rdGroup e.desc = 0xFFFF ∧ rdTiles e.desc = 1 ∧ checkReduce s v e.desc = none ∧
     s.reduceBroken v.seatNo v.seat e.desc = none ∧ rdFirst e.desc = s.view v.seatNo T ∧ v.seat.tile? (s.view v.seatNo T) = some T ∧
     s.tilePhys T = some b ∧ (s.ctx T c).state ≠ .parked ∧
     s.rangePoison (b + rdSrc e.desc) (packedLen (rdIn e.desc) (rdCount e.desc)) = none) ∧
    (∃ (s : State) (T : Nat) (c : Nat) (v : DescEnv) (e : Exec), s.inExec T c 4 = some (v, e) ∧ e.joined = false ∧
     rdGroup e.desc = 0xFFFF ∧ ∃ z, ∃ run,
     z = { s.setCtx T c { s.ctx T c with cur := some { e with joined := true } } with sync := { s.sync with reduces := (match s.sync.reduces.findIdx? (s.reduceRunOf v.seat v.seatNo (s.view v.seatNo T) e.desc) with | some i => s.sync.reduces.eraseIdx i | none => s.sync.reduces) } } ∧
     run = (s.sync.reduces.find? (s.reduceRunOf v.seat v.seatNo (s.view v.seatNo T) e.desc)).getD { seat := v.seatNo, arrived := [] }) :=
  ⟨⟨.reset, 0, 0, by decide⟩,
   ⟨executing (descOf 6 []), 0, 0, (fun h => nomatch h), by decide⟩,
   ⟨.reset, 0, 0, by decide⟩,
   ⟨tiled {}, 0, 0, (.inl rfl)⟩,
   ⟨executing (descOf 10 [(12, 1, 99), (32, 4, 0x10000000)]), 0, 0, _, _, (rfl), _, (rfl)⟩,
   ⟨executing (descOf 10 [(12, 1, 1), (32, 4, 0x10000000)]), 0, 0, _, _, (rfl), by decide, by decide⟩,
   ⟨{ executing (descOf 10 [(12, 1, 1), (32, 4, 0x10000000)]) with ni := { triggers := [(4096, { (actionOf 1 0 []).trig with running := false })] } },
    0, 0, _, _, (rfl), (rfl), (by decide +kernel)⟩,
   ⟨{ tiled (ctxOf (begun route1) .issuing) with seats := [(1, { askSeat with spaces := [] })] }, _, 0, 0, _, _, (rfl),
    (fun _ h => nomatch h), (rfl), (rfl)⟩,
   ⟨{ tiled (ctxOf (begun route1) .issuing) with seats := [(1, { askSeat with routed := [6] })] }, _, 0, 0, _, _, (rfl),
    (fun _ h => nomatch h), (rfl), _, (rfl), (by decide +kernel)⟩,
   ⟨{ tiled (ctxOf (begun (descOf 9 [(12, 1, 2), (13, 1, 9), (14, 2, 6), (16, 4, 1), (40, 8, 0x200000), (48, 4, 65536)])) .issuing) with seats := [(1, askSeat)] },
    _, 0, 0, _, _, (rfl), (fun _ h => nomatch h), (rfl), _, (rfl), (by decide +kernel), (.inl (by decide +kernel))⟩,
   ⟨{ tiled (ctxOf (begun route1) .issuing) with seats := [(1, { askSeat with share := [] })] }, _, 0, 0, _, _, (rfl),
    (fun _ h => nomatch h), (rfl), _, (rfl), (by decide +kernel), (by decide +kernel), (by decide +kernel), (by decide +kernel),
    (rfl)⟩,
   ⟨{ tiled (ctxOf (begun route1) .issuing) with seats := [(1, askSeat)] }, _, 0, 0, _, _, (rfl), (fun _ h => nomatch h), (rfl), _,
    (rfl), (by decide +kernel), (by decide +kernel), (by decide +kernel), (by decide +kernel), _, (rfl)⟩,
   ⟨.reset, 0, 0, by decide⟩,
   ⟨executing (descOf 4 [(30, 2, 2), (44, 2, 3)]), 0, 0, _, _, (rfl), (rfl), (by decide +kernel), (rfl)⟩,
   ⟨executing (descOf 4 [(30, 2, 2), (44, 2, 0xFFFF)]), 0, 0, _, _, (rfl), (rfl), (fun _ h => nomatch h),
    (fun h => absurd (by decide +kernel) h), (by decide +kernel), (by decide +kernel)⟩,
   ⟨executing (descOf 4 [(13, 1, 1), (14, 1, 1), (20, 4, 4096), (24, 3, 1), (30, 2, 1), (44, 2, 0xFFFF)]), 0, 0, _, _, (rfl),
    (rfl), _, (fun _ h => nomatch h), (by decide +kernel), (by decide +kernel), (by decide +kernel), (by decide +kernel),
    (by decide +kernel), (rfl), (rfl), (by decide +kernel), (by decide +kernel)⟩,
   ⟨executing (descOf 4 [(30, 2, 2), (44, 2, 0xFFFF)]), 0, 0, _, _, (rfl), (rfl), (by decide +kernel), _, _, (rfl), (rfl)⟩⟩

theorem witness_RoutesRun :
    (∃ (s : State) (i : Nat), s.druind.asks[i]? = none) ∧
    (∃ (s : State) (i : Nat) (a : RouteAsk), s.druind.asks[i]? = some a ∧ (∀ e x, ¬ handsOver s a e x)) ∧
    (∃ (s : State) (z : State) (i : Nat) (a : RouteAsk) (e : Exec) (x : Seat), s.druind.asks[i]? = some a ∧ handsOver s a e x ∧
     z = { s with druind := { s.druind with asks := s.druind.asks.eraseIdx i } } ∧ s.leadOf x a.tile = none) ∧
    (∃ (s : State) (z : State) (i : Nat) (a : RouteAsk) (e : Exec) (x : Seat), s.druind.asks[i]? = some a ∧ handsOver s a e x ∧
     z = { s with druind := { s.druind with asks := s.druind.asks.eraseIdx i } } ∧ ∃ lead, s.leadOf x a.tile = some lead ∧
     ((∃ b ∈ s.druind.asks, asksBefore s b a) ∨ ¬ slotLeft s lead (s.ctx a.tile a.ctx).seat x)) ∧
    (∃ (s : State) (z : State) (i : Nat) (a : RouteAsk) (e : Exec) (x : Seat), s.druind.asks[i]? = some a ∧ handsOver s a e x ∧
     z = { s with druind := { s.druind with asks := s.druind.asks.eraseIdx i } } ∧ ∃ lead, s.leadOf x a.tile = some lead ∧
     (∀ b ∈ s.druind.asks, ¬ asksBefore s b a) ∧ slotLeft s lead (s.ctx a.tile a.ctx).seat x ∧
     FMap.find? x.spaces (roSpace e.desc) = none) ∧
    (∃ (s : State) (z : State) (i : Nat) (a : RouteAsk) (e : Exec) (x : Seat), s.druind.asks[i]? = some a ∧ handsOver s a e x ∧
     z = { s with druind := { s.druind with asks := s.druind.asks.eraseIdx i } } ∧ ∃ lead, s.leadOf x a.tile = some lead ∧
     (∀ b ∈ s.druind.asks, ¬ asksBefore s b a) ∧ slotLeft s lead (s.ctx a.tile a.ctx).seat x ∧ ∃ sp,
     FMap.find? x.spaces (roSpace e.desc) = some sp ∧
     let place := if sp.bankB then spBankB sp.record else spBankA sp.record; s.quotaAddr x place (8 * spE sp.record) = none) ∧
    (∃ (s : State) (z : State) (i : Nat) (a : RouteAsk) (e : Exec) (x : Seat), s.druind.asks[i]? = some a ∧ handsOver s a e x ∧
     z = { s with druind := { s.druind with asks := s.druind.asks.eraseIdx i } } ∧ ∃ lead, s.leadOf x a.tile = some lead ∧
     (∀ b ∈ s.druind.asks, ¬ asksBefore s b a) ∧ slotLeft s lead (s.ctx a.tile a.ctx).seat x ∧ ∃ sp,
     FMap.find? x.spaces (roSpace e.desc) = some sp ∧ ∃ run, z.newRun a.tile a.ctx lead x e sp = some run ∧
     s.descAddr x (roOut e.desc) (max 1 (roOutLen e.desc)) = none) ∧
    (∃ (s : State) (z : State) (i : Nat) (a : RouteAsk) (e : Exec) (x : Seat), s.druind.asks[i]? = some a ∧ handsOver s a e x ∧
     z = { s with druind := { s.druind with asks := s.druind.asks.eraseIdx i } } ∧ ∃ lead, s.leadOf x a.tile = some lead ∧
     (∀ b ∈ s.druind.asks, ¬ asksBefore s b a) ∧ slotLeft s lead (s.ctx a.tile a.ctx).seat x ∧ ∃ sp,
     FMap.find? x.spaces (roSpace e.desc) = some sp ∧ ∃ run, z.newRun a.tile a.ctx lead x e sp = some run ∧
     let own := (List.range (spE sp.record)).filter (fun k => bkHome run.bank k == s.fab.node);
     s.descAddr x (roOut e.desc) (max 1 (roOutLen e.desc)) ≠ none ∧
     roOutLen e.desc < ouNeeded sp.record (roTokens e.desc) (roK e.desc) run.members.length own.length) ∧
    (∃ (s : State) (z : State) (i : Nat) (a : RouteAsk) (e : Exec) (x : Seat), s.druind.asks[i]? = some a ∧ handsOver s a e x ∧
     z = { s with druind := { s.druind with asks := s.druind.asks.eraseIdx i } } ∧ ∃ lead, s.leadOf x a.tile = some lead ∧
     (∀ b ∈ s.druind.asks, ¬ asksBefore s b a) ∧ slotLeft s lead (s.ctx a.tile a.ctx).seat x ∧ ∃ sp,
     FMap.find? x.spaces (roSpace e.desc) = some sp ∧ ∃ run, z.newRun a.tile a.ctx lead x e sp = some run ∧
     let own := (List.range (spE sp.record)).filter (fun k => bkHome run.bank k == s.fab.node);
     let rows := roundUp (spE sp.record * (fmtBits (roLogitFmt e.desc) / 8)) 16;
     s.descAddr x (roOut e.desc) (max 1 (roOutLen e.desc)) ≠ none ∧
     ouNeeded sp.record (roTokens e.desc) (roK e.desc) run.members.length own.length ≤ roOutLen e.desc ∧ roMode e.desc ≠ 2 ∧
     s.descAddr x (roLogits e.desc) (rows * roTokens e.desc) = none) ∧
    (∃ (s : State) (z : State) (i : Nat) (a : RouteAsk) (e : Exec) (x : Seat), s.druind.asks[i]? = some a ∧ handsOver s a e x ∧
     z = { s with druind := { s.druind with asks := s.druind.asks.eraseIdx i } } ∧ ∃ lead, s.leadOf x a.tile = some lead ∧
     (∀ b ∈ s.druind.asks, ¬ asksBefore s b a) ∧ slotLeft s lead (s.ctx a.tile a.ctx).seat x ∧ ∃ sp,
     FMap.find? x.spaces (roSpace e.desc) = some sp ∧ ∃ run, z.newRun a.tile a.ctx lead x e sp = some run ∧
     let own := (List.range (spE sp.record)).filter (fun k => bkHome run.bank k == s.fab.node);
     let rows := roundUp (spE sp.record * (fmtBits (roLogitFmt e.desc) / 8)) 16;
     s.descAddr x (roOut e.desc) (max 1 (roOutLen e.desc)) ≠ none ∧
     ouNeeded sp.record (roTokens e.desc) (roK e.desc) run.members.length own.length ≤ roOutLen e.desc ∧ (roMode e.desc ≠ 2 →
     s.descAddr x (roLogits e.desc) (rows * roTokens e.desc) ≠ none)) ∧
    (∃ (s : State) (x : Seat) (run : RouteRun) (e : Exec), (s.ctx run.tile run.ctx).cur = some e ∧ run.group = none ∧
     s.bankStatus x run = some .placementInvalid ∧ roGrant run.desc = false) ∧
    (∃ (s : State) (x : Seat) (run : RouteRun) (e : Exec), (s.ctx run.tile run.ctx).cur = some e ∧ run.group = none ∧ ∃ st,
     s.bankStatus x run = some st ∧ st ≠ .placementInvalid) ∧
    (∃ (s : State) (x : Seat) (run : RouteRun) (e : Exec), (s.ctx run.tile run.ctx).cur = some e ∧ run.group = none ∧ ∃ lead, ∃ sp,
     s.newRun run.tile run.ctx lead x e sp = some run ∧ s.bankStatus x run = none ∧ roMode run.desc = 2) ∧
    (∃ (s : State) (ba : Nat) (x : Seat) (sp : SpaceRec),
     s.quotaAddr x (if sp.bankB then spBankB sp.record else spBankA sp.record) (8 * spE sp.record) = some ba) ∧
    (∃ (s : State) (x : Seat) (run : RouteRun) (ba : Nat), run.group = none ∧
     s.quotaAddr x (if run.bankB then spBankB run.record else spBankA run.record) (8 * spE run.record) = some ba ∧ ∃ cause,
     s.rangePoison ba (8 * spE run.record) = some cause) ∧
    (∃ (s : State) (x : Seat) (run : RouteRun) (ba : Nat), run.group = none ∧
     s.quotaAddr x (if run.bankB then spBankB run.record else spBankA run.record) (8 * spE run.record) = some ba ∧
     s.rangePoison ba (8 * spE run.record) = none) ∧
    (∃ (s : State) (i : Nat), s.taken i [0x18] = none) ∧
    (∃ (s : State) (i : Nat), s.taken i [0x19] = none) ∧
    (∃ (s : State) (z : State) (i : Nat) (rank : Nat) (type : Nat) (c : Instr) (q : Inbound) (grp : Group) (key : Nat) (b : Bytes),
     ((type = 0x18 ∧ c = .grantCount i) ∨ (type = 0x19 ∧ c = .grantReply i)) ∧ s.taken i [type] = some q ∧
     FMap.find? s.ni.groups (tagGroup q.pkt.tag) = some grp ∧ grp.nodes.idxOf? q.pkt.src = some rank ∧
     s.epochOf grp.seat = q.pkt.epoch ∧ z = s.dropTaken i false ∧ key = (type * 1024 + tagGroup q.pkt.tag) * 65536 + rank ∧
     b = FMap.get [] z.druind.gather key ++ q.pkt.payload ∧ b.length < (if b.length < 20 then 24 else 24 + 4 * fld b 16 4)) ∧
    (∃ (s : State) (z : State) (i : Nat) (rank : Nat) (type : Nat) (c : Instr) (q : Inbound) (grp : Group) (key : Nat) (b : Bytes),
     ((type = 0x18 ∧ c = .grantCount i) ∨ (type = 0x19 ∧ c = .grantReply i)) ∧ s.taken i [type] = some q ∧
     FMap.find? s.ni.groups (tagGroup q.pkt.tag) = some grp ∧ grp.nodes.idxOf? q.pkt.src = some rank ∧
     s.epochOf grp.seat = q.pkt.epoch ∧ z = s.dropTaken i false ∧ key = (type * 1024 + tagGroup q.pkt.tag) * 65536 + rank ∧
     b = FMap.get [] z.druind.gather key ++ q.pkt.payload ∧ 24 ≤ b.length ∧ 24 + 4 * fld b 16 4 ≤ b.length) ∧
    (∃ (s : State) (i : Nat) (reply : Bool) (q : Inbound), s.taken i [if reply then 0x19 else 0x18] = some q ∧
     (FMap.find? s.ni.groups (tagGroup q.pkt.tag) = none ∨ ∃ grp, FMap.find? s.ni.groups (tagGroup q.pkt.tag) = some grp ∧
     (q.pkt.src ∉ grp.nodes ∨ s.epochOf grp.seat ≠ q.pkt.epoch))) ∧
    (∃ (s : State) (reply : Bool) (g : Nat) (grp : Group) (b : Bytes),
     let mine (kr : Nat × RouteRun) : Bool := kr.2.group == some g && kr.2.seat == grp.seat && fld kr.2.record 0 2 == fld b 0 2 && kr.2.turn % 2 ^ 32 == fld b 4 4;
     ∃ id, ∃ r, List.find? mine s.druind.runs = some (id, r) ∧
     (if reply then (byteAt b 2 < r.round ∨ r.finished = true) else byteAt b 2 < r.decided)) ∧
    (∃ (s : State) (g : Nat) (rank : Nat) (grp : Group) (b : Bytes),
     let mine (kr : Nat × RouteRun) : Bool := kr.2.group == some g && kr.2.seat == grp.seat && fld kr.2.record 0 2 == fld b 0 2 && kr.2.turn % 2 ^ 32 == fld b 4 4;
     ∃ id, ∃ r, List.find? mine s.druind.runs = some (id, r) ∧ ∃ d1, ∃ d2, r.finished = false ∧ r.round ≤ byteAt b 2 ∧
     r.decided ≤ byteAt b 2 ∧ d1 < r.members.length ∧ d2 < r.members.length ∧ msgKey r.decided d1 ≠ msgKey (byteAt b 2) rank ∧
     FMap.find? r.counts (msgKey r.decided d1) = none ∧ msgKey r.round d2 ≠ msgKey (byteAt b 2) rank ∧
     FMap.find? r.replies (msgKey r.round d2) = none) ∧
    (∃ (s : State) (g : Nat) (grp : Group) (b : Bytes),
     let mine (kr : Nat × RouteRun) : Bool := kr.2.group == some g && kr.2.seat == grp.seat && fld kr.2.record 0 2 == fld b 0 2 && kr.2.turn % 2 ^ 32 == fld b 4 4;
     ∃ (x : Seat), List.find? mine s.druind.runs = none ∧ s.seat? grp.seat = some x ∧
     seqBefore (fld b 4 4) (x.turn.toNat % 2 ^ 32) = true) ∧
    (∃ (s : State) (g : Nat) (grp : Group) (b : Bytes),
     let mine (kr : Nat × RouteRun) : Bool := kr.2.group == some g && kr.2.seat == grp.seat && fld kr.2.record 0 2 == fld b 0 2 && kr.2.turn % 2 ^ 32 == fld b 4 4;
     ∃ (x : Seat), List.find? mine s.druind.runs = none ∧ s.seat? grp.seat = some x ∧
     seqBefore (fld b 4 4) (x.turn.toNat % 2 ^ 32) = false ∧ (fld b 4 4 ≠ x.turn.toNat % 2 ^ 32 ∨ fld b 0 2 ∉ x.routed)) ∧
    (∃ (s : State) (id : Nat), FMap.find? s.druind.runs id = none) ∧
    (∃ (s : State) (id : Nat), ∃ r, FMap.find? s.druind.runs id = some r ∧ (r.finished = true ∨ spRounds r.record ≤ r.round)) ∧
    (∃ (s : State) (id : Nat) (r : RouteRun), FMap.find? s.druind.runs id = some r ∧ r.finished = false ∧ r.decided = r.round + 1 ∧
     r.status = none ∧ r.round + 1 = spRounds r.record ∧ (∀ d g, d < r.members.length →
     FMap.find? r.replies (msgKey r.round d) = some g → g.mismatch = 0)) ∧
    (∃ (s : State) (id : Nat) (r : RouteRun), FMap.find? s.druind.runs id = some r ∧ r.finished = false ∧ r.decided = r.round + 1 ∧
     r.round < spRounds r.record ∧ r.status = none ∧ (∃ d g, d < r.members.length ∧
     FMap.find? r.replies (msgKey r.round d) = some g ∧ (g.mismatch = 1 ∨ g.mismatch = 2))) ∧
    (∃ (s : State) (id : Nat), FMap.find? s.druind.runs id = none) ∧
    (∃ (s : State) (id : Nat), ∃ r, FMap.find? s.druind.runs id = some r ∧ s.seat? r.seat = none) ∧
    (∃ (s : State) (id : Nat), ∃ r, FMap.find? s.druind.runs id = some r ∧ ∃ (x : Seat), s.seat? r.seat = some x ∧
     r.finished = false) ∧
    (∃ (s : State) (id : Nat), ∃ r, FMap.find? s.druind.runs id = some r ∧ ∃ (x : Seat), s.seat? r.seat = some x ∧
     r.finished = true ∧ s.descAddr x (roOut r.desc) (roOutLen r.desc) = none) ∧
    (∃ (s : State) (id : Nat) (a : Nat) (r : RouteRun) (x : Seat), FMap.find? s.druind.runs id = some r ∧ s.seat? r.seat = some x ∧
     r.finished = true ∧ s.descAddr x (roOut r.desc) (roOutLen r.desc) = some a) :=
  ⟨⟨.reset, 0, by decide⟩,
   ⟨{ asking with seats := [(1, { askSeat with state := .idle })], tiles := [] }, 0, _, (rfl), (fun _ _ h => nomatch h.1)⟩,
   ⟨{ asking with seats := [(1, { askSeat with share := [] })] }, _, 0, _, _, _, (rfl), (⟨rfl, rfl, by decide, by decide +kernel⟩),
    (rfl), (rfl)⟩,
   ⟨{ asking with druind := { asks := [⟨0, 0, 0, 5⟩, ⟨1, 0, 0, 3⟩] } }, _, 0, _, _, _, (rfl), (⟨rfl, rfl, by decide,
    by decide +kernel⟩), (rfl), _, (rfl), (.inl ⟨⟨1, 0, 0, 3⟩, by decide, rfl, .inl (by decide)⟩)⟩,
   ⟨{ asking with seats := [(1, { askSeat with spaces := [] })] }, _, 0, _, _, _, (rfl), (⟨rfl, rfl, by decide,
    by decide +kernel⟩), (rfl), _, (rfl),
    (fun b hb h => by cases hb with | head => exact absurd h (by unfold asksBefore; decide +kernel) | tail _ h => cases h),
    (⟨by decide +kernel, by decide +kernel⟩), (rfl)⟩,
   ⟨{ asking with seats := [(1, { askSeat with spaces := [(6, ⟨fields 96 [(2, 2, 1), (6, 1, 1), (8, 4, 10), (16, 8, 0x640000000), (34, 2, 1)], false⟩)] })] },
    _, 0, _, _, _, (rfl), (⟨rfl, rfl, by decide, by decide +kernel⟩), (rfl), _, (rfl),
    (fun b hb h => by cases hb with | head => exact absurd h (by unfold asksBefore; decide +kernel) | tail _ h => cases h),
    (⟨by decide +kernel, by decide +kernel⟩), _, (rfl), (by decide +kernel)⟩,
   ⟨{ asking with tiles := (tiled (ctxOf (begun (descOf 9 [(12, 1, 2), (13, 1, 1), (14, 2, 6), (16, 4, 1), (40, 8, 0x640000000), (48, 4, 65536)])) .parked)).tiles },
    _, 0, _, _, _, (rfl), (⟨rfl, rfl, by decide, by decide +kernel⟩), (rfl), _, (rfl),
    (fun b hb h => by cases hb with | head => exact absurd h (by unfold asksBefore; decide +kernel) | tail _ h => cases h),
    (⟨by decide +kernel, by decide +kernel⟩), _, (rfl), _, (rfl), (by decide +kernel)⟩,
   ⟨{ asking with tiles := (tiled (ctxOf (begun (descOf 9 [(12, 1, 2), (13, 1, 1), (14, 2, 6), (16, 4, 1), (40, 8, 0x200000), (48, 4, 64)])) .parked)).tiles },
    _, 0, _, _, _, (rfl), (⟨rfl, rfl, by decide, by decide +kernel⟩), (rfl), _, (rfl),
    (fun b hb h => by cases hb with | head => exact absurd h (by unfold asksBefore; decide +kernel) | tail _ h => cases h),
    (⟨by decide +kernel, by decide +kernel⟩), _, (rfl), _, (rfl), (by decide +kernel), (by decide +kernel)⟩,
   ⟨{ asking with tiles := (tiled (ctxOf (begun (descOf 9 [(13, 1, 1), (14, 2, 6), (16, 4, 1), (32, 8, 0x640000000), (40, 8, 0x200000), (48, 4, 65536)])) .parked)).tiles },
    _, 0, _, _, _, (rfl), (⟨rfl, rfl, by decide, by decide +kernel⟩), (rfl), _, (rfl),
    (fun b hb h => by cases hb with | head => exact absurd h (by unfold asksBefore; decide +kernel) | tail _ h => cases h),
    (⟨by decide +kernel, by decide +kernel⟩), _, (rfl), _, (rfl), (by decide +kernel), (by decide +kernel), (by decide +kernel),
    (by decide +kernel)⟩,
   ⟨asking, _, 0, _, _, _, (rfl), (⟨rfl, rfl, by decide, by decide +kernel⟩), (rfl), _, (rfl),
    (fun b hb h => by cases hb with | head => exact absurd h (by unfold asksBefore; decide +kernel) | tail _ h => cases h),
    (⟨by decide +kernel, by decide +kernel⟩), _, (rfl), _, (rfl), (by decide +kernel), (by decide +kernel),
    (fun h => absurd (by decide +kernel) h)⟩,
   ⟨tiled (ctxOf (begun route1) .parked), askSeat,
    { routeOf 1 [0] space1.record with desc := route1, bank := [0, 0, 0, 0, 0, 0, 0, 0] }, _, (rfl), (rfl), (by decide +kernel),
    (by decide +kernel)⟩,
   ⟨{ tiled (ctxOf (begun route1) .parked) with poison := [(0x100000, 2)] }, askSeat,
    { routeOf 1 [0] space1.record with desc := route1, bank := [] }, _, (rfl), (rfl), _, (rfl), (by decide +kernel)⟩,
   ⟨asking, askSeat, (asking.newRun 0 0 0 askSeat (begun route1) space1).getD (routeOf 1 [0] []), begun route1, (rfl), (rfl), 0,
    space1, (rfl), (by decide +kernel), (by decide +kernel)⟩,
   ⟨asking, 0x100000, askSeat, space1, (by decide +kernel)⟩,
   ⟨{ asking with poison := [(0x100000, 2)] }, askSeat, { routeOf 1 [0] space1.record with desc := route1, bank := [] }, 0x100000,
    (rfl), (by decide +kernel), 2, (by decide +kernel)⟩,
   ⟨asking, askSeat, { routeOf 1 [0] space1.record with desc := route1, bank := [] }, 0x100000, (rfl), (by decide +kernel),
    (by decide +kernel)⟩,
   ⟨.reset, 0, by decide⟩,
   ⟨.reset, 0, by decide⟩,
   ⟨member (groupAt 0 [0, 5] none) (memberPacket 5 0x18 (collTag 3 0 0) [1]), _, 0, 1, 0x18, .grantCount 0, _, _, _, _, (.inl ⟨rfl,
    rfl⟩), (rfl), (rfl), (rfl), (by decide +kernel), (rfl), (rfl), (rfl), (by decide +kernel)⟩,
   ⟨member (groupAt 0 [0, 5] none) (memberPacket 5 0x18 (collTag 3 0 0) (fields 24 [])), _, 0, 1, 0x18, .grantCount 0, _, _, _, _,
    (.inl ⟨rfl, rfl⟩), (rfl), (rfl), (rfl), (by decide +kernel), (rfl), (rfl), (rfl), (by decide +kernel), (by decide +kernel)⟩,
   ⟨member (groupAt 0 [0, 5] none) (memberPacket 5 0x18 4 (fields 24 [])), 0, false, _, (rfl), (.inl rfl)⟩,
   ⟨{ seated goodSeat with druind := { runs := [(0, { routeOf 1 [0] (fields 96 []) with group := some 3, members := [0, 5], round := 2 })] } },
    true, 3, groupAt 0 [0, 5] none, fields 24 [(2, 1, 1)], 0, _, (rfl), (.inl (by decide +kernel))⟩,
   ⟨{ seated goodSeat with druind := { runs := [(0, { routeOf 1 [0] (fields 96 []) with group := some 3, members := [0, 5] })] } },
    3, 1, groupAt 0 [0, 5] none, fields 24 [], 0, _, (rfl), 0, 0, (rfl), (by decide +kernel), (by decide +kernel),
    (by decide +kernel), (by decide +kernel), (by decide +kernel), (by decide +kernel), (by decide +kernel), (by decide +kernel)⟩,
   ⟨seated { goodSeat with turn := 5 }, 3, groupAt 0 [0, 5] none, fields 24 [], _, (rfl), (rfl), (by decide +kernel)⟩,
   ⟨seated goodSeat, 3, groupAt 0 [0, 5] none, fields 24 [], _, (rfl), (rfl), (by decide +kernel), (.inr (by decide +kernel))⟩,
   ⟨.reset, 0, by decide⟩,
   ⟨{ seated goodSeat with druind := { runs := [(0, { routeOf 1 [0] (fields 96 [(2, 2, 1), (6, 1, 1)]) with finished := true })] } },
    0, _, (rfl), (.inl rfl)⟩,
   ⟨{ seated goodSeat with druind := { runs := [(0, { routeOf 1 [0] (fields 96 [(2, 2, 1), (6, 1, 1)]) with decided := 1 })] } },
    0, _, (rfl), (rfl), (rfl), (rfl), (by decide +kernel), (fun _ _ _ h => nomatch h)⟩,
   ⟨{ seated goodSeat with druind := { runs := [(0, { routeOf 1 [0] (fields 96 [(2, 2, 1), (6, 1, 1)]) with decided := 1, replies := [(msgKey 0 0, ⟨false, 1, 0, 0, []⟩)] })] } },
    0, _, (rfl), (rfl), (rfl), (by decide +kernel), (rfl), (⟨0, ⟨false, 1, 0, 0, []⟩, by decide, by decide +kernel, .inl rfl⟩)⟩,
   ⟨.reset, 0, by decide⟩,
   ⟨{ live with druind := { runs := [(0, routeOf 1 [0] (fields 96 []))] } }, 0, _, (rfl), (rfl)⟩,
   ⟨{ seated goodSeat with druind := { runs := [(0, routeOf 1 [0] (fields 96 []))] } }, 0, _, (rfl), _, (rfl), (rfl)⟩,
   ⟨{ seated goodSeat with druind := { runs := [(0, { routeOf 1 [0] (fields 96 []) with finished := true, desc := (descOf 9 [(40, 8, 0x640000000), (48, 4, 64)]) })] } },
    0, _, (rfl), _, (rfl), (rfl), (by decide +kernel)⟩,
   ⟨{ seated goodSeat with druind := { runs := [(0, { routeOf 1 [0] (fields 96 [(2, 2, 1), (6, 1, 1)]) with finished := true })] } },
    0, 0, _, _, (rfl), (rfl), by decide, by decide⟩⟩

theorem witness_ActionsFireAndEnd :
    (∃ (s : State) (n : Nat) (hub : Nat) (slot : Nat), (FMap.find? s.ni.triggers (trigKey n hub slot) = none ∨ ∃ tr,
     FMap.find? s.ni.triggers (trigKey n hub slot) = some tr ∧ (tr.running = true ∨ (s.readCtr n (.ni tr.ctr)).toNat < tr.thresh))) ∧
    (∃ (s : State) (n : Nat) (hub : Nat) (slot : Nat) (tr : Trigger), FMap.find? s.ni.triggers (trigKey n hub slot) = some tr ∧
     tr.running = false ∧ tr.thresh ≤ (s.readCtr n (.ni tr.ctr)).toNat ∧ FMap.risingFrom s.ni.actions 0 = true ∧
     FMap.find? s.ni.actions s.ni.nextAction = none) ∧
    (∃ (s : State) (id : Nat), s.beginning id 0x01 = none) ∧
    (∃ (s : State) (id : Nat), s.beginning id 0x10 = none) ∧
    (∃ (s : State) (id : Nat), s.beginning id 0x11 = none) ∧
    (∃ (s : State) (id : Nat), s.beginning id 0x12 = none) ∧
    (∃ (s : State) (id : Nat), s.beginning id 0x13 = none) ∧
    (∃ (s : State) (id : Nat) (a : Action) (x : Seat), s.beginning id 0x01 = some (a, x) ∧ signalTarget x a.trig.args = none) ∧
    (∃ (s : State) (id : Nat) (a : Action) (x : Seat), s.beginning id 0x01 = some (a, x) ∧ ∃ g,
     signalTarget x a.trig.args = some g ∧ s.targetBacked x g = false) ∧
    (∃ (s : State) (id : Nat) (a : Action) (x : Seat), s.beginning id 0x01 = some (a, x) ∧ ∃ g,
     signalTarget x a.trig.args = some g ∧ s.targetBacked x g = true) ∧
    (∃ (s : State) (id : Nat) (code : Nat) (i : Instr) (a : Action) (x : Seat) (b : Bytes) (n : Nat), s.beginning id code = some (a,
     x) ∧ ((code = 0x10 ∧ i = .actionRead id) ∨ (code = 0x11 ∧ i = .actionWrite id)) ∧ b = a.trig.args ∧ n = a.trig.len ∧
     s.descAddr x (maLocal b) n = none) ∧
    (∃ (s : State) (id : Nat) (code : Nat) (i : Instr) (a : Action) (x : Seat) (b : Bytes) (n : Nat), s.beginning id code = some (a,
     x) ∧ ((code = 0x10 ∧ i = .actionRead id) ∨ (code = 0x11 ∧ i = .actionWrite id)) ∧ b = a.trig.args ∧ n = a.trig.len ∧ ∃ l,
     s.descAddr x (maLocal b) n = some l ∧ s.ownNode (maTarget b / 2 ^ 48) = true ∧ s.resolve x (maTarget b % 2 ^ 48) n = none) ∧
    (∃ (s : State) (id : Nat) (code : Nat) (i : Instr) (a : Action) (x : Seat) (b : Bytes) (n : Nat), s.beginning id code = some (a,
     x) ∧ ((code = 0x10 ∧ i = .actionRead id) ∨ (code = 0x11 ∧ i = .actionWrite id)) ∧ b = a.trig.args ∧ n = a.trig.len ∧ ∃ l,
     s.descAddr x (maLocal b) n = some l ∧ s.ownNode (maTarget b / 2 ^ 48) = true ∧ ∃ p,
     s.resolve x (maTarget b % 2 ^ 48) n = some p ∧ s.linesBusy p n = true) ∧
    (∃ (s : State) (id : Nat) (code : Nat) (i : Instr) (a : Action) (x : Seat) (b : Bytes) (n : Nat), s.beginning id code = some (a,
     x) ∧ ((code = 0x10 ∧ i = .actionRead id) ∨ (code = 0x11 ∧ i = .actionWrite id)) ∧ b = a.trig.args ∧ n = a.trig.len ∧ ∃ l,
     s.descAddr x (maLocal b) n = some l ∧ s.ownNode (maTarget b / 2 ^ 48) = true ∧ ∃ p,
     s.resolve x (maTarget b % 2 ^ 48) n = some p ∧ s.linesBusy p n = false ∧ code = 0x10) ∧
    (∃ (s : State) (id : Nat) (code : Nat) (i : Instr) (a : Action) (x : Seat) (b : Bytes) (n : Nat), s.beginning id code = some (a,
     x) ∧ ((code = 0x10 ∧ i = .actionRead id) ∨ (code = 0x11 ∧ i = .actionWrite id)) ∧ b = a.trig.args ∧ n = a.trig.len ∧ ∃ l,
     s.descAddr x (maLocal b) n = some l ∧ s.ownNode (maTarget b / 2 ^ 48) = true ∧ ∃ p,
     s.resolve x (maTarget b % 2 ^ 48) n = some p ∧ s.linesBusy p n = false ∧ code = 0x11) ∧
    (∃ (s : State) (id : Nat) (code : Nat) (i : Instr) (a : Action) (x : Seat) (b : Bytes) (n : Nat), s.beginning id code = some (a,
     x) ∧ ((code = 0x10 ∧ i = .actionRead id) ∨ (code = 0x11 ∧ i = .actionWrite id)) ∧ b = a.trig.args ∧ n = a.trig.len ∧ ∃ l,
     s.descAddr x (maLocal b) n = some l ∧ s.ownNode (maTarget b / 2 ^ 48) = false ∧ (maTarget b % 64 ≠ 0 ∨ n % 64 ≠ 0 ∨ n = 0)) ∧
    (∃ (s : State) (id : Nat) (code : Nat) (i : Instr) (a : Action) (x : Seat) (b : Bytes) (n : Nat), s.beginning id code = some (a,
     x) ∧ ((code = 0x10 ∧ i = .actionRead id) ∨ (code = 0x11 ∧ i = .actionWrite id)) ∧ b = a.trig.args ∧ n = a.trig.len ∧ ∃ l,
     s.descAddr x (maLocal b) n = some l ∧ s.ownNode (maTarget b / 2 ^ 48) = false ∧ maTarget b % 64 = 0 ∧ n % 64 = 0 ∧ n ≠ 0 ∧
     code = 0x10) ∧
    (∃ (s : State) (id : Nat) (code : Nat) (i : Instr) (a : Action) (x : Seat) (b : Bytes) (n : Nat), s.beginning id code = some (a,
     x) ∧ ((code = 0x10 ∧ i = .actionRead id) ∨ (code = 0x11 ∧ i = .actionWrite id)) ∧ b = a.trig.args ∧ n = a.trig.len ∧ ∃ l,
     s.descAddr x (maLocal b) n = some l ∧ s.ownNode (maTarget b / 2 ^ 48) = false ∧ maTarget b % 64 = 0 ∧ n % 64 = 0 ∧ n ≠ 0 ∧
     code = 0x11) ∧
    (∃ (s : State) (u : State) (id : Nat) (a : Action) (x : Seat) (b : Bytes) (w : Nat), s.beginning id 0x12 = some (a, x) ∧
     b = a.trig.args ∧ w = aopWidth (maAop b) ∧
     (u = (if maAop b = 3 ∨ maAop b = 14 ∨ maFetch b = true then s.onSeat a.seat (fun q => { q with facts := { q.facts with fpAtomic := true } }) else s)) ∧
     s.descAddr x (maLocal b) 16 = none) ∧
    (∃ (s : State) (u : State) (id : Nat) (a : Action) (x : Seat) (b : Bytes) (w : Nat), s.beginning id 0x12 = some (a, x) ∧
     b = a.trig.args ∧ w = aopWidth (maAop b) ∧
     (u = (if maAop b = 3 ∨ maAop b = 14 ∨ maFetch b = true then s.onSeat a.seat (fun q => { q with facts := { q.facts with fpAtomic := true } }) else s)) ∧
     ∃ l, s.descAddr x (maLocal b) 16 = some l ∧ maTarget b % w ≠ 0) ∧
    (∃ (s : State) (u : State) (id : Nat) (a : Action) (x : Seat) (b : Bytes) (w : Nat), s.beginning id 0x12 = some (a, x) ∧
     b = a.trig.args ∧ w = aopWidth (maAop b) ∧
     (u = (if maAop b = 3 ∨ maAop b = 14 ∨ maFetch b = true then s.onSeat a.seat (fun q => { q with facts := { q.facts with fpAtomic := true } }) else s)) ∧
     ∃ l, s.descAddr x (maLocal b) 16 = some l ∧ ∃ (c : Nat), maTarget b % w = 0 ∧ s.rangePoison l 16 = some c) ∧
    (∃ (s : State) (u : State) (id : Nat) (a : Action) (x : Seat) (b : Bytes) (w : Nat), s.beginning id 0x12 = some (a, x) ∧
     b = a.trig.args ∧ w = aopWidth (maAop b) ∧
     (u = (if maAop b = 3 ∨ maAop b = 14 ∨ maFetch b = true then s.onSeat a.seat (fun q => { q with facts := { q.facts with fpAtomic := true } }) else s)) ∧
     ∃ l, s.descAddr x (maLocal b) 16 = some l ∧ maTarget b % w = 0 ∧ s.rangePoison l 16 = none ∧
     s.ownNode (maTarget b / 2 ^ 48) = true ∧ s.resolve x (maTarget b % 2 ^ 48) w = none) ∧
    (∃ (s : State) (u : State) (id : Nat) (a : Action) (x : Seat) (b : Bytes) (w : Nat), s.beginning id 0x12 = some (a, x) ∧
     b = a.trig.args ∧ w = aopWidth (maAop b) ∧
     (u = (if maAop b = 3 ∨ maAop b = 14 ∨ maFetch b = true then s.onSeat a.seat (fun q => { q with facts := { q.facts with fpAtomic := true } }) else s)) ∧
     ∃ l, s.descAddr x (maLocal b) 16 = some l ∧ maTarget b % w = 0 ∧ s.rangePoison l 16 = none ∧
     s.ownNode (maTarget b / 2 ^ 48) = true ∧ ∃ p, s.resolve x (maTarget b % 2 ^ 48) w = some p ∧ p < hbmEnd ∧
     s.lineRoom [p / 64 * 64] = false) ∧
    (∃ (s : State) (u : State) (id : Nat) (a : Action) (x : Seat) (b : Bytes) (w : Nat), s.beginning id 0x12 = some (a, x) ∧
     b = a.trig.args ∧ w = aopWidth (maAop b) ∧
     (u = (if maAop b = 3 ∨ maAop b = 14 ∨ maFetch b = true then s.onSeat a.seat (fun q => { q with facts := { q.facts with fpAtomic := true } }) else s)) ∧
     ∃ l, s.descAddr x (maLocal b) 16 = some l ∧ maTarget b % w = 0 ∧ s.rangePoison l 16 = none ∧
     s.ownNode (maTarget b / 2 ^ 48) = true ∧ ∃ p, s.resolve x (maTarget b % 2 ^ 48) w = some p ∧ p < hbmEnd ∧
     s.lineRoom [p / 64 * 64] = true) ∧
    (∃ (s : State) (u : State) (id : Nat) (a : Action) (x : Seat) (b : Bytes) (w : Nat), s.beginning id 0x12 = some (a, x) ∧
     b = a.trig.args ∧ w = aopWidth (maAop b) ∧
     (u = (if maAop b = 3 ∨ maAop b = 14 ∨ maFetch b = true then s.onSeat a.seat (fun q => { q with facts := { q.facts with fpAtomic := true } }) else s)) ∧
     ∃ l, s.descAddr x (maLocal b) 16 = some l ∧ maTarget b % w = 0 ∧ s.rangePoison l 16 = none ∧
     s.ownNode (maTarget b / 2 ^ 48) = true ∧ ∃ p, s.resolve x (maTarget b % 2 ^ 48) w = some p ∧ hbmEnd ≤ p ∧ a.outstanding = 0 ∧
     a.first = none ∧ s.rangePoison p w ≠ none) ∧
    (∃ (s : State) (u : State) (id : Nat) (a : Action) (x : Seat) (b : Bytes) (w : Nat), s.beginning id 0x12 = some (a, x) ∧
     b = a.trig.args ∧ w = aopWidth (maAop b) ∧
     (u = (if maAop b = 3 ∨ maAop b = 14 ∨ maFetch b = true then s.onSeat a.seat (fun q => { q with facts := { q.facts with fpAtomic := true } }) else s)) ∧
     ∃ l, s.descAddr x (maLocal b) 16 = some l ∧ maTarget b % w = 0 ∧ s.rangePoison l 16 = none ∧
     s.ownNode (maTarget b / 2 ^ 48) = true ∧ ∃ p, s.resolve x (maTarget b % 2 ^ 48) w = some p ∧ hbmEnd ≤ p ∧ a.outstanding = 0 ∧
     a.first = none ∧ s.rangePoison p w = none) ∧
    (∃ (s : State) (u : State) (id : Nat) (a : Action) (x : Seat) (b : Bytes) (w : Nat), s.beginning id 0x12 = some (a, x) ∧
     b = a.trig.args ∧ w = aopWidth (maAop b) ∧
     (u = (if maAop b = 3 ∨ maAop b = 14 ∨ maFetch b = true then s.onSeat a.seat (fun q => { q with facts := { q.facts with fpAtomic := true } }) else s)) ∧
     ∃ l, s.descAddr x (maLocal b) 16 = some l ∧ maTarget b % w = 0 ∧ s.rangePoison l 16 = none ∧
     s.ownNode (maTarget b / 2 ^ 48) = false) ∧
    (∃ (s : State) (id : Nat) (a : Action) (x : Seat) (b : Bytes), s.beginning id 0x13 = some (a, x) ∧ b = a.trig.args ∧
     s.descAddr x (maLocal b) (128 + a.trig.len) = none) ∧
    (∃ (s : State) (id : Nat) (a : Action) (x : Seat) (b : Bytes), s.beginning id 0x13 = some (a, x) ∧ b = a.trig.args ∧ ∃ l, ∃ r,
     ∃ n, ∃ offs, s.descAddr x (maLocal b) (128 + a.trig.len) = some l ∧ r = s.bytes l 128 ∧ n = byteAt r 0 + 1 ∧
     offs = (List.range n).map (fun i => fld r (8 + 8 * i) 8) ∧ ∃ (c : Nat), s.rangePoison l 128 = some c) ∧
    (∃ (s : State) (id : Nat) (a : Action) (x : Seat) (b : Bytes), s.beginning id 0x13 = some (a, x) ∧ b = a.trig.args ∧ ∃ l, ∃ r,
     ∃ n, ∃ offs, s.descAddr x (maLocal b) (128 + a.trig.len) = some l ∧ r = s.bytes l 128 ∧ n = byteAt r 0 + 1 ∧
     offs = (List.range n).map (fun i => fld r (8 + 8 * i) 8) ∧ s.rangePoison l 128 = none ∧ (8 < n ∨ zeros r 1 8 = false ∨ (n ≤ 8 ∧
     (zeros r (8 + 8 * n) 72 = false ∨ a.trig.len ≠ 64 * n ∨ ¬ offs.Nodup)))) ∧
    (∃ (s : State) (id : Nat) (a : Action) (x : Seat) (b : Bytes), s.beginning id 0x13 = some (a, x) ∧ b = a.trig.args ∧ ∃ l, ∃ r,
     ∃ n, ∃ offs, s.descAddr x (maLocal b) (128 + a.trig.len) = some l ∧ r = s.bytes l 128 ∧ n = byteAt r 0 + 1 ∧
     offs = (List.range n).map (fun i => fld r (8 + 8 * i) 8) ∧ s.rangePoison l 128 = none ∧ n ≤ 8 ∧ zeros r 1 8 = true ∧
     zeros r (8 + 8 * n) 72 = true ∧ a.trig.len = 64 * n ∧ offs.Nodup ∧ (∃ o ∈ offs, o % 64 ≠ 0)) ∧
    (∃ (s : State) (id : Nat) (a : Action) (x : Seat) (b : Bytes), s.beginning id 0x13 = some (a, x) ∧ b = a.trig.args ∧ ∃ l, ∃ r,
     ∃ n, ∃ offs, s.descAddr x (maLocal b) (128 + a.trig.len) = some l ∧ r = s.bytes l 128 ∧ n = byteAt r 0 + 1 ∧
     offs = (List.range n).map (fun i => fld r (8 + 8 * i) 8) ∧ s.rangePoison l 128 = none ∧ n ≤ 8 ∧ zeros r 1 8 = true ∧
     zeros r (8 + 8 * n) 72 = true ∧ a.trig.len = 64 * n ∧ offs.Nodup ∧ (∀ o ∈ offs, o % 64 = 0) ∧
     s.ownNode (maTarget b / 2 ^ 48) = true ∧ (∃ o ∈ offs, ∀ p, s.resolve x o 64 = some p → hbmEnd ≤ p)) ∧
    (∃ (s : State) (id : Nat) (a : Action) (x : Seat) (b : Bytes), s.beginning id 0x13 = some (a, x) ∧ b = a.trig.args ∧ ∃ l, ∃ r,
     ∃ n, ∃ offs, s.descAddr x (maLocal b) (128 + a.trig.len) = some l ∧ r = s.bytes l 128 ∧ n = byteAt r 0 + 1 ∧
     offs = (List.range n).map (fun i => fld r (8 + 8 * i) 8) ∧ s.rangePoison l 128 = none ∧ n ≤ 8 ∧ zeros r 1 8 = true ∧
     zeros r (8 + 8 * n) 72 = true ∧ a.trig.len = 64 * n ∧ offs.Nodup ∧ (∀ o ∈ offs, o % 64 = 0) ∧
     s.ownNode (maTarget b / 2 ^ 48) = true ∧ ∃ places, offs.map (fun o => s.resolve x o 64) = places.map some ∧ (∀ p ∈ places,
     p < hbmEnd) ∧ s.lineRoom places = false) ∧
    (∃ (s : State) (id : Nat) (a : Action) (x : Seat) (b : Bytes), s.beginning id 0x13 = some (a, x) ∧ b = a.trig.args ∧ ∃ l, ∃ r,
     ∃ n, ∃ offs, s.descAddr x (maLocal b) (128 + a.trig.len) = some l ∧ r = s.bytes l 128 ∧ n = byteAt r 0 + 1 ∧
     offs = (List.range n).map (fun i => fld r (8 + 8 * i) 8) ∧ s.rangePoison l 128 = none ∧ n ≤ 8 ∧ zeros r 1 8 = true ∧
     zeros r (8 + 8 * n) 72 = true ∧ a.trig.len = 64 * n ∧ offs.Nodup ∧ (∀ o ∈ offs, o % 64 = 0) ∧
     s.ownNode (maTarget b / 2 ^ 48) = true ∧ ∃ places, offs.map (fun o => s.resolve x o 64) = places.map some ∧ (∀ p ∈ places,
     p < hbmEnd) ∧ s.lineRoom places = true ∧ places.Nodup) ∧
    (∃ (s : State) (id : Nat) (a : Action) (x : Seat) (b : Bytes), s.beginning id 0x13 = some (a, x) ∧ b = a.trig.args ∧ ∃ l, ∃ r,
     ∃ n, ∃ offs, s.descAddr x (maLocal b) (128 + a.trig.len) = some l ∧ r = s.bytes l 128 ∧ n = byteAt r 0 + 1 ∧
     offs = (List.range n).map (fun i => fld r (8 + 8 * i) 8) ∧ s.rangePoison l 128 = none ∧ n ≤ 8 ∧ zeros r 1 8 = true ∧
     zeros r (8 + 8 * n) 72 = true ∧ a.trig.len = 64 * n ∧ offs.Nodup ∧ (∀ o ∈ offs, o % 64 = 0) ∧
     s.ownNode (maTarget b / 2 ^ 48) = false) ∧
    (∃ (s : State) (id : Nat) (code : Nat) (i : Instr), (i, code) ∈ [(Instr.actionBroadcast id, 0x20), (.actionAllGather id, 0x21),
     (.actionShift id, 0x22), (.actionPermute id, 0x23), (.actionBarrier id, 0x24)] ∧ s.beginning id code = none) ∧
    (∃ (s : State) (id : Nat) (code : Nat) (i : Instr), (i, code) ∈ [(Instr.actionBroadcast id, 0x20), (.actionAllGather id, 0x21),
     (.actionShift id, 0x22), (.actionPermute id, 0x23), (.actionBarrier id, 0x24)] ∧ ∃ a, ∃ x, s.beginning id code = some (a, x) ∧
     s.groupOf a.seat (caGroup a.trig.args) = none) ∧
    (∃ (s : State) (id : Nat) (code : Nat) (i : Instr), (i, code) ∈ [(Instr.actionBroadcast id, 0x20), (.actionAllGather id, 0x21),
     (.actionShift id, 0x22), (.actionPermute id, 0x23), (.actionBarrier id, 0x24)] ∧ ∃ a, ∃ x, s.beginning id code = some (a, x) ∧
     ∃ grp, ∃ (c : Call), s.groupOf a.seat (caGroup a.trig.args) = some grp ∧
     c = newCall (caSeq a.trig.args) code a.trig.tclass (some id) [] [] (caHorizon a.trig.args) (caArg a.trig.args) (caFmt a.trig.args) a.trig.len (caSrc a.trig.args) (caDst a.trig.args) none [] ∧
     collArgsOk grp code a.trig.args = false) ∧
    (∃ (s : State) (id : Nat) (code : Nat) (i : Instr), (i, code) ∈ [(Instr.actionBroadcast id, 0x20), (.actionAllGather id, 0x21),
     (.actionShift id, 0x22), (.actionPermute id, 0x23), (.actionBarrier id, 0x24)] ∧ ∃ a, ∃ x, s.beginning id code = some (a, x) ∧
     ∃ grp, ∃ (c : Call), s.groupOf a.seat (caGroup a.trig.args) = some grp ∧
     c = newCall (caSeq a.trig.args) code a.trig.tclass (some id) [] [] (caHorizon a.trig.args) (caArg a.trig.args) (caFmt a.trig.args) a.trig.len (caSrc a.trig.args) (caDst a.trig.args) none [] ∧
     collArgsOk grp code a.trig.args = true ∧ s.reachAll x (collPlaces code a.trig.len (grMembers grp.record) a.trig.args) = false) ∧
    (∃ (s : State) (id : Nat) (code : Nat) (i : Instr), (i, code) ∈ [(Instr.actionBroadcast id, 0x20), (.actionAllGather id, 0x21),
     (.actionShift id, 0x22), (.actionPermute id, 0x23), (.actionBarrier id, 0x24)] ∧ ∃ a, ∃ x, s.beginning id code = some (a, x) ∧
     ∃ grp, ∃ (c : Call), s.groupOf a.seat (caGroup a.trig.args) = some grp ∧
     c = newCall (caSeq a.trig.args) code a.trig.tclass (some id) [] [] (caHorizon a.trig.args) (caArg a.trig.args) (caFmt a.trig.args) a.trig.len (caSrc a.trig.args) (caDst a.trig.args) none [] ∧
     collArgsOk grp code a.trig.args = true ∧ s.reachAll x (collPlaces code a.trig.len (grMembers grp.record) a.trig.args) = true) ∧
    (∃ (s : State) (id : Nat), (FMap.find? s.ni.actions id = none ∨ ∃ a, FMap.find? s.ni.actions id = some a ∧ a.status = none ∧
     (a.trig.action ≠ 0x28 ∨ a.perm = none))) ∧
    (∃ (s : State) (id : Nat) (a : Action) (st : Status), FMap.find? s.ni.actions id = some a ∧ a.status = some st) :=
  ⟨⟨.reset, 0, 0, 0, by decide⟩,
   ⟨{ seated goodSeat with ni := { triggers := [(trigKey 1 0 0, ⟨false, 1, 0, 5, 0, none, 0, []⟩)] } }, 1, 0, 0, _, (rfl), (rfl),
    (by decide +kernel), (rfl), (rfl)⟩,
   ⟨.reset, 0, by decide⟩,
   ⟨.reset, 0, by decide⟩,
   ⟨.reset, 0, by decide⟩,
   ⟨.reset, 0, by decide⟩,
   ⟨.reset, 0, by decide⟩,
   ⟨acting (actionOf 1 0 (fields 32 [])), 0, _, _, (rfl), (rfl)⟩,
   ⟨{ acting (actionOf 1 0 (fields 32 [(0, 4, 0x10000000)])) with units := {} }, 0, _, _, (rfl), _, (rfl), (by decide +kernel)⟩,
   ⟨acting (actionOf 1 0 (fields 32 [(0, 4, 0x10000000)])), 0, _, _, (rfl), _, (rfl), (by decide +kernel)⟩,
   ⟨acting (actionOf 0x10 64 (fields 32 [(8, 8, 0x640000000)])), 0, 0x10, .actionRead 0, _, _, _, _, (rfl), (.inl ⟨rfl, rfl⟩),
    (rfl), (rfl), (by decide +kernel)⟩,
   ⟨acting (actionOf 0x10 64 (fields 32 [(0, 8, 0x640000000), (8, 8, 4096)])), 0, 0x10, .actionRead 0, _, _, _, _, (rfl),
    (.inl ⟨rfl, rfl⟩), (rfl), (rfl), 4096, (by decide +kernel), (by decide +kernel), (by decide +kernel)⟩,
   ⟨{ acting (actionOf 0x10 64 (fields 32 [(8, 8, 4096)])) with ni := { actions := [(0, actionOf 0x10 64 (fields 32 [(8, 8, 4096)]))], lineOps := [⟨0, origin5, .atomic 3 8 5 0 true, 0⟩] } },
    0, 0x10, .actionRead 0, _, _, _, _, (rfl), (.inl ⟨rfl, rfl⟩), (rfl), (rfl), 4096, (by decide +kernel), (by decide +kernel), 0,
    (by decide +kernel), (by decide +kernel)⟩,
   ⟨acting (actionOf 0x10 64 (fields 32 [(8, 8, 4096)])), 0, 0x10, .actionRead 0, _, _, _, _, (rfl), (.inl ⟨rfl, rfl⟩), (rfl),
    (rfl), 4096, (by decide +kernel), (by decide +kernel), 0, (by decide +kernel), (by decide +kernel), (rfl)⟩,
   ⟨acting (actionOf 0x11 64 (fields 32 [(8, 8, 4096)])), 0, 0x11, .actionWrite 0, _, _, _, _, (rfl), (.inr ⟨rfl, rfl⟩), (rfl),
    (rfl), 4096, (by decide +kernel), (by decide +kernel), 0, (by decide +kernel), (by decide +kernel), (rfl)⟩,
   ⟨acting (actionOf 0x10 32 (fields 32 [(0, 8, 0x5000000001000), (8, 8, 4096)])), 0, 0x10, .actionRead 0, _, _, _, _, (rfl),
    (.inl ⟨rfl, rfl⟩), (rfl), (rfl), 4096, (by decide +kernel), (by decide +kernel), (by decide +kernel)⟩,
   ⟨acting (actionOf 0x10 64 (fields 32 [(0, 8, 0x5000000001000), (8, 8, 4096)])), 0, 0x10, .actionRead 0, _, _, _, _, (rfl),
    (.inl ⟨rfl, rfl⟩), (rfl), (rfl), 4096, (by decide +kernel), (by decide +kernel), (by decide +kernel), (by decide +kernel),
    (by decide +kernel), (rfl)⟩,
   ⟨acting (actionOf 0x11 64 (fields 32 [(0, 8, 0x5000000001000), (8, 8, 4096)])), 0, 0x11, .actionWrite 0, _, _, _, _, (rfl),
    (.inr ⟨rfl, rfl⟩), (rfl), (rfl), 4096, (by decide +kernel), (by decide +kernel), (by decide +kernel), (by decide +kernel),
    (by decide +kernel), (rfl)⟩,
   ⟨acting (actionOf 0x12 4 (fields 32 [(8, 8, 0x640000000)])), _, 0, _, _, _, _, (rfl), (rfl), (rfl), (rfl), (by decide +kernel)⟩,
   ⟨acting (actionOf 0x12 4 (fields 32 [(0, 8, 2), (8, 8, 4096)])), _, 0, _, _, _, _, (rfl), (rfl), (rfl), (rfl), 4096,
    (by decide +kernel), (by decide +kernel)⟩,
   ⟨{ acting (actionOf 0x12 4 (fields 32 [(8, 8, 4096)])) with poison := [(4096, 2)] }, _, 0, _, _, _, _, (rfl), (rfl), (rfl),
    (rfl), 4096, (by decide +kernel), 2, (by decide +kernel), (by decide +kernel)⟩,
   ⟨acting (actionOf 0x12 4 (fields 32 [(0, 8, 0x640000000), (8, 8, 4096)])), _, 0, _, _, _, _, (rfl), (rfl), (rfl), (rfl), 4096,
    (by decide +kernel), (by decide +kernel), (by decide +kernel), (by decide +kernel), (by decide +kernel)⟩,
   ⟨{ acting (actionOf 0x12 4 (fields 32 [(8, 8, 4096)])) with ni := { actions := [(0, actionOf 0x12 4 (fields 32 [(8, 8, 4096)]))], lineOps := List.replicate 1024 ⟨0, origin5, .atomic 3 8 5 0 true, 0⟩ } },
    _, 0, _, _, _, _, (rfl), (rfl), (rfl), (rfl), 4096, (by decide +kernel), (by decide +kernel), (by decide +kernel),
    (by decide +kernel), 0, (by decide +kernel), (by decide +kernel), (by decide +kernel)⟩,
   ⟨acting (actionOf 0x12 4 (fields 32 [(8, 8, 4096)])), _, 0, _, _, _, _, (rfl), (rfl), (rfl), (rfl), 4096, (by decide +kernel),
    (by decide +kernel), (by decide +kernel), (by decide +kernel), 0, (by decide +kernel), (by decide +kernel), (by decide +kernel)⟩,
   ⟨{ acting (actionOf 0x12 4 (fields 32 [(0, 8, 0xD00000000000), (8, 8, 4096)])) with poison := [(0xD00000000000, 0)] }, _, 0, _,
    _, _, _, (rfl), (rfl), (rfl), (rfl), 4096, (by decide +kernel), (by decide +kernel), (by decide +kernel), (by decide +kernel),
    0xD00000000000, (by decide +kernel), (by decide +kernel), (rfl), (rfl), (by decide +kernel)⟩,
   ⟨acting (actionOf 0x12 4 (fields 32 [(0, 8, 0xD00000000000), (8, 8, 4096)])), _, 0, _, _, _, _, (rfl), (rfl), (rfl), (rfl),
    4096, (by decide +kernel), (by decide +kernel), (by decide +kernel), (by decide +kernel), 0xD00000000000, (by decide +kernel),
    (by decide +kernel), (rfl), (rfl), (by decide +kernel)⟩,
   ⟨acting (actionOf 0x12 4 (fields 32 [(0, 8, 0x5000000001000), (8, 8, 4096)])), _, 0, _, _, _, _, (rfl), (rfl), (rfl), (rfl),
    4096, (by decide +kernel), (by decide +kernel), (by decide +kernel), (by decide +kernel)⟩,
   ⟨acting (actionOf 0x13 64 (fields 32 [(8, 8, 0x640000000)])), 0, _, _, _, (rfl), (rfl), (by decide +kernel)⟩,
   ⟨{ acting (actionOf 0x13 64 (fields 32 [(8, 8, 4096)])) with poison := [(4096, 2)] }, 0, _, _, _, (rfl), (rfl), 4096, _, _, _,
    (by decide +kernel), (rfl), (rfl), (rfl), 2, (by decide +kernel)⟩,
   ⟨withBytes (acting (actionOf 0x13 64 (fields 32 [(8, 8, 4096)]))) [(4096, [8])], 0, _, _, _, (rfl), (rfl), 4096, _, _, _,
    (by decide +kernel), (rfl), (rfl), (rfl), (by decide +kernel), (.inl (by decide +kernel))⟩,
   ⟨withBytes (acting (actionOf 0x13 64 (fields 32 [(8, 8, 4096)]))) [(4104, [1])], 0, _, _, _, (rfl), (rfl), 4096, _, _, _,
    (by decide +kernel), (rfl), (rfl), (rfl), (by decide +kernel), (by decide +kernel), (by decide +kernel), (by decide +kernel),
    (by decide +kernel), (by decide +kernel), (by decide +kernel)⟩,
   ⟨withBytes (acting (actionOf 0x13 64 (fields 32 [(8, 8, 4096)]))) [(4104, natLe 8 0x640000000)], 0, _, _, _, (rfl), (rfl), 4096,
    _, _, _, (by decide +kernel), (rfl), (rfl), (rfl), (by decide +kernel), (by decide +kernel), (by decide +kernel),
    (by decide +kernel), (by decide +kernel), (by decide +kernel), (by decide +kernel), (by decide +kernel), (⟨0x640000000,
    by decide +kernel,
    fun p h => absurd h (by rw [show State.resolve _ _ _ _ = none from by decide +kernel]; exact fun h => nomatch h)⟩)⟩,
   ⟨{ acting (actionOf 0x13 64 (fields 32 [(8, 8, 4096)])) with ni := { actions := [(0, actionOf 0x13 64 (fields 32 [(8, 8, 4096)]))], lineOps := List.replicate 1024 ⟨0, origin5, .atomic 3 8 5 0 true, 0⟩ } },
    0, _, _, _, (rfl), (rfl), 4096, _, _, _, (by decide +kernel), (rfl), (rfl), (rfl), (by decide +kernel), (by decide +kernel),
    (by decide +kernel), (by decide +kernel), (by decide +kernel), (by decide +kernel), (by decide +kernel), (by decide +kernel),
    [0], (by decide +kernel), (by decide +kernel), (by decide +kernel)⟩,
   ⟨acting (actionOf 0x13 64 (fields 32 [(8, 8, 4096)])), 0, _, _, _, (rfl), (rfl), 4096, _, _, _, (by decide +kernel), (rfl),
    (rfl), (rfl), (by decide +kernel), (by decide +kernel), (by decide +kernel), (by decide +kernel), (by decide +kernel),
    (by decide +kernel), (by decide +kernel), (by decide +kernel), [0], (by decide +kernel), (by decide +kernel),
    (by decide +kernel), (by decide +kernel)⟩,
   ⟨acting (actionOf 0x13 64 (fields 32 [(0, 8, 0x5000000001000), (8, 8, 4096)])), 0, _, _, _, (rfl), (rfl), 4096, _, _, _,
    (by decide +kernel), (rfl), (rfl), (rfl), (by decide +kernel), (by decide +kernel), (by decide +kernel), (by decide +kernel),
    (by decide +kernel), (by decide +kernel), (by decide +kernel), (by decide +kernel)⟩,
   ⟨live, 0, 0x20, .actionBroadcast 0, (.head _), by decide⟩,
   ⟨{ seated goodSeat with ni := { groups := [(3, groupAt 0 [0, 5] none)], actions := [(0, actionOf 0x20 64 (fields 32 [(16, 2, 4)]))] } },
    0, 0x20, .actionBroadcast 0, (.head _), _, _, (rfl), (rfl)⟩,
   ⟨{ seated goodSeat with ni := { groups := [(3, groupAt 0 [0, 5] none)], actions := [(0, actionOf 0x20 64 (fields 32 [(8, 8, 4096), (16, 2, 3), (18, 2, 2)]))] } },
    0, 0x20, .actionBroadcast 0, (.head _), _, _, (rfl), _, _, (rfl), (rfl), (by decide +kernel)⟩,
   ⟨{ seated goodSeat with ni := { groups := [(3, groupAt 0 [0, 5] none)], actions := [(0, actionOf 0x20 64 (fields 32 [(8, 8, 0x640000000), (16, 2, 3), (18, 2, 1)]))] } },
    0, 0x20, .actionBroadcast 0, (.head _), _, _, (rfl), _, _, (rfl), (rfl), (by decide +kernel), (by decide +kernel)⟩,
   ⟨{ seated goodSeat with ni := { groups := [(3, groupAt 0 [0, 5] none)], actions := [(0, actionOf 0x20 64 (fields 32 [(8, 8, 4096), (16, 2, 3), (18, 2, 1)]))] } },
    0, 0x20, .actionBroadcast 0, (.head _), _, _, (rfl), _, _, (rfl), (rfl), (by decide +kernel), (by decide +kernel)⟩,
   ⟨.reset, 0, by decide⟩,
   ⟨acting { actionOf 1 0 [] with status := some .success }, 0, _, _, (rfl), (rfl)⟩⟩

theorem witness_CallsRun :
    (∃ (s : State) (i : Nat), s.taken i [0x11, 0x13] = none) ∧
    (∃ (s : State) (i : Nat), s.taken i [0x11] = none) ∧
    (∃ (s : State) (i : Nat), s.taken i [0x10] = none) ∧
    (∃ (s : State) (i : Nat), ∃ q, s.taken i [0x11, 0x13] = some q ∧ tagStep q.pkt.tag ∈ [3, 0x11, 0x13]) ∧
    (∃ (s : State) (i : Nat), ∃ q, s.taken i [0x11, 0x13] = some q ∧ tagStep q.pkt.tag ≠ 0x11) ∧
    (∃ (s : State) (i : Nat), ∃ q, s.taken i [0x11] = some q ∧ tagStep q.pkt.tag ≠ 3) ∧
    (∃ (s : State) (i : Nat), ∃ q, s.taken i [0x11] = some q ∧ tagStep q.pkt.tag ≠ 0x13) ∧
    (∃ (s : State) (g : Nat), s.callOf g = none) ∧
    (∃ (s : State) (g : Nat), (FMap.find? s.ni.groups g = none ∨ ∃ grp, FMap.find? s.ni.groups g = some grp ∧
     (grp.call ≠ none ∨ grp.waiting = [] ∨ s.seat? grp.seat = none))) ∧
    (∃ (s : State) (g : Nat) (k : Nat) (grp : Group) (c : Call) (rest : List Call) (x : Seat), FMap.find? s.ni.groups g = some grp ∧
     grp.call = none ∧ grp.waiting = c :: rest ∧ s.seat? grp.seat = some x ∧ c.seq = seqNext grp.lastSeq ∧ c.openSent = false ∧
     k ∈ treeChildren (grRank grp.record) (grMembers grp.record) ∧ k ∉ x.excluded 1 g c.seq (grMembers grp.record) ∧
     FMap.find? c.opens k = none) ∧
    (∃ (s : State) (g : Nat) (id : Nat) (grp : Group) (c : Call) (rest : List Call) (x : Seat),
     FMap.find? s.ni.groups g = some grp ∧ grp.call = none ∧ grp.waiting = c :: rest ∧ s.seat? grp.seat = some x ∧
     c.seq ≠ seqNext grp.lastSeq ∧ c.action = some id) ∧
    (∃ (s : State) (i : Nat) (rank : Nat) (k : Nat) (q : Inbound) (grp : Group) (c : Call), forCall s i [0x11, 0x13] q grp c rank ∧
     wholeRecord q grp rank 1 ∧ c.openSent = false ∧ rank ∈ treeChildren (grRank grp.record) (grMembers grp.record) ∧
     rank ∉ c.gone ∧ FMap.find? c.opens rank = none ∧ k ∈ treeChildren (grRank grp.record) (grMembers grp.record) ∧ k ≠ rank ∧
     k ∉ c.gone ∧ FMap.find? c.opens k = none) ∧
    (∃ (s : State) (g : Nat) (grp : Group) (c : Call), FMap.find? s.ni.groups g = some grp ∧ grp.call = some c ∧ c.openSent = true) ∧
    (∃ (s : State) (g : Nat) (grp : Group) (c : Call), FMap.find? s.ni.groups g = some grp ∧ grp.call = some c ∧
     c.openSent = false ∧ c.abort = none ∧ grRank grp.record ≠ 0) ∧
    (∃ (s : State) (i : Nat) (rank : Nat) (q : Inbound) (grp : Group) (c : Call), forCall s i [0x11, 0x13] q grp c rank ∧
     wholeRecord q grp rank 0x11 ∧ c.final = none ∧ grRank grp.record ≠ 0 ∧ downChildren grp (decodeOpen q.pkt.payload) = [] ∧
     ((decodeOpen q.pkt.payload).mismatch = true ∨ (decodeOpen q.pkt.payload).digest ≠ c.digest) ∧
     (decodeOpen q.pkt.payload).runs = []) ∧
    (∃ (s : State) (i : Nat) (rank : Nat) (q : Inbound) (grp : Group) (c : Call), forCall s i [0x11, 0x13] q grp c rank ∧
     wholeRecord q grp rank 0x11 ∧ c.final = none ∧ grRank grp.record ≠ 0 ∧ downChildren grp (decodeOpen q.pkt.payload) = [] ∧
     (decodeOpen q.pkt.payload).mismatch = false ∧ (decodeOpen q.pkt.payload).digest = c.digest ∧
     (decodeOpen q.pkt.payload).runs = [] ∧ c.abort = none ∧ c.kind = 0x24) ∧
    (∃ (s : State) (i : Nat) (rank : Nat) (a : Nat) (q : Inbound) (grp : Group) (c : Call) (f : OpenRec) (x : Seat),
     forCall s i [0x10] q grp c rank ∧ tagStep q.pkt.tag = 0x12 ∧ c.final = some f ∧ c.kind = 0x22 ∧ s.seat? grp.seat = some x ∧
     rank ∈ pairSources grp c f ∧ rank ∉ c.whole ∧ q.pkt.last = false ∧ q.pkt.bad = [] ∧ q.pkt.payload ≠ [] ∧
     let got := FMap.get 0 c.landed rank;
     let n := q.pkt.payload.length; got + n < c.len ∧ s.descAddr x (c.dst + got) n = some a ∧ s.rangePoison a n = none) ∧
    (∃ (s : State) (i : Nat) (rank : Nat) (q : Inbound) (grp : Group) (c : Call), forCall s i [0x10] q grp c rank ∧
     tagStep q.pkt.tag = 0x12 ∧ c.final = none) ∧
    (∃ (s : State) (i : Nat) (rank : Nat) (q : Inbound) (grp : Group), fromMember s i [0x10] q grp rank ∧ grp.call = none ∧
     tagInst q.pkt.tag = seqNext grp.lastSeq % 64) ∧
    (∃ (s : State) (i : Nat) (rank : Nat) (q : Inbound) (grp : Group), fromMember s i [0x10] q grp rank ∧ grp.call = none ∧
     tagInst q.pkt.tag ≠ seqNext grp.lastSeq % 64) ∧
    (∃ (s : State) (i : Nat) (q : Inbound), s.taken i [0x10] = some q ∧ FMap.find? s.ni.groups (tagGroup q.pkt.tag) = none) ∧
    (∃ (s : State) (i : Nat) (rank : Nat) (q : Inbound) (grp : Group) (c : Call), forCall s i [0x11] q grp c rank ∧
     wholeRecord q grp rank 3 ∧ rank ∈ treeChildren (grRank grp.record) (grMembers grp.record) ∧ c.kind = kindReduce ∧
     c.formed < 4 * c.len ∧ (decodeClose q.pkt.payload).status ≠ statusCode .memberLost) ∧
    (∃ (s : State) (i : Nat) (rank : Nat) (q : Inbound) (grp : Group) (c : Call) (f : OpenRec), forCall s i [0x11] q grp c rank ∧
     wholeRecord q grp rank 0x13 ∧ c.final = some f ∧ c.finalClose = none ∧ downChildren grp f = [] ∧ rdShape c.desc = 0 ∧
     (decodeClose q.pkt.payload).status = 0) ∧
    (∃ (s : State) (g : Nat) (grp : Group) (c : Call) (f : OpenRec), FMap.find? s.ni.groups g = some grp ∧ grp.call = some c ∧
     c.final = some f ∧ f.names (grRank grp.record) = false ∧ c.kind ≠ kindReduce ∧ f.runs = []) ∧
    (∃ (s : State) (g : Nat) (grp : Group) (c : Call) (f : OpenRec), FMap.find? s.ni.groups g = some grp ∧ grp.call = some c ∧
     c.final = some f ∧ f.names (grRank grp.record) = false ∧ c.kind = kindReduce ∧ c.closeSent = false ∧ grRank grp.record ≠ 0) ∧
    (∃ (s : State) (g : Nat) (grp : Group) (c : Call), FMap.find? s.ni.groups g = some grp ∧ grp.call = some c ∧ c.final = none ∧
     c.openSent = true) ∧
    (∃ (s : State) (g : Nat) (grp : Group) (c : Call), FMap.find? s.ni.groups g = some grp ∧ grp.call = some c ∧ c.final = none ∧
     c.openSent = false) ∧
    (∃ (s : State) (g : Nat) (grp : Group) (c : Call), FMap.find? s.ni.groups g = some grp ∧ grp.call = some c ∧ c.final = none) ∧
    (∃ (s : State) (g : Nat) (grp : Group) (c : Call) (f : OpenRec), FMap.find? s.ni.groups g = some grp ∧ grp.call = some c ∧
     c.final = some f ∧ f.names (grRank grp.record) = true) ∧
    (∃ (s : State) (g : Nat) (grp : Group) (c : Call) (f : OpenRec), FMap.find? s.ni.groups g = some grp ∧ grp.call = some c ∧
     c.final = some f ∧ f.names (grRank grp.record) = false) ∧
    (∃ (s : State) (i : Nat) (type : Nat) (types : List Nat) (c : Instr) (q : Inbound), (c, types, type) ∈ [(Instr.openRecord i,
     [0x11, 0x13], 1), (.finalRecord i, [0x11, 0x13], 0x11), (.closeRecord i, [0x11], 3), (.finalCloseRecord i, [0x11], 0x13)] ∧
     s.taken i types = some q ∧ tagStep q.pkt.tag = type ∧ (FMap.find? s.ni.groups (tagGroup q.pkt.tag) = none ∨ ∃ grp,
     FMap.find? s.ni.groups (tagGroup q.pkt.tag) = some grp ∧ (q.pkt.src ∉ grp.nodes ∨ s.epochOf grp.seat ≠ q.pkt.epoch))) :=
  ⟨⟨.reset, 0, by decide⟩,
   ⟨.reset, 0, by decide⟩,
   ⟨.reset, 0, by decide⟩,
   ⟨member (groupAt 0 [0, 5] (some openCall)) (memberPacket 5 0x11 (collTag 3 1 3) (fields 16 [])), 0, _, (rfl), by decide⟩,
   ⟨member (groupAt 0 [0, 5] (some openCall)) (memberPacket 5 0x11 (collTag 3 1 3) (fields 16 [])), 0, _, (rfl), by decide⟩,
   ⟨member (groupAt 0 [0, 5] (some openCall)) (memberPacket 5 0x11 (collTag 3 1 1) (fields 16 [])), 0, _, (rfl), by decide⟩,
   ⟨member (groupAt 0 [0, 5] (some openCall)) (memberPacket 5 0x11 (collTag 3 1 1) (fields 16 [])), 0, _, (rfl), by decide⟩,
   ⟨.reset, 0, by decide⟩,
   ⟨.reset, 0, by decide⟩,
   ⟨inGroup { groupAt 0 [0, 5] none with waiting := [openCall] }, 3, 1, _, _, _, _, (rfl), by decide, (rfl), (rfl), by decide,
    by decide, by decide, by decide, by decide⟩,
   ⟨inGroup { groupAt 0 [0, 5] none with waiting := [{ openCall with seq := 5, action := some 0 }] }, 3, 0, _, _, _, _, (rfl),
    by decide, (rfl), (rfl), by decide, by decide⟩,
   ⟨member (groupAt 0 [0, 5, 6] (some openCall)) (memberPacket 5 0x11 (collTag 3 1 1) (fields 16 [])), 0, 1, 2, _, _, _, (⟨⟨rfl,
    rfl, rfl, rfl, by decide, by decide⟩, rfl, by decide⟩), (⟨by decide, by decide, by decide⟩), by decide, by decide, by decide,
    by decide, by decide, by decide, by decide, by decide⟩,
   ⟨inGroup (groupAt 0 [0, 5] (some { openCall with openSent := true })), 3, _, _, (rfl), (rfl), by decide⟩,
   ⟨inGroup (groupAt 1 [7, 0] (some openCall)), 3, _, _, (rfl), (rfl), by decide, by decide, by decide⟩,
   ⟨member (groupAt 1 [7, 0] (some { openCall with kind := 0x24 })) (memberPacket 7 0x11 (collTag 3 1 0x11) (fields 16 [(10, 1,
    1)])), 0, 0, _, _, _, (⟨⟨rfl, rfl, rfl, rfl, by decide, by decide⟩, rfl, by decide⟩), (⟨by decide, by decide, by decide⟩),
    by decide, by decide, by decide, (.inl rfl), by decide⟩,
   ⟨member (groupAt 1 [7, 0] (some { openCall with kind := 0x24 })) (memberPacket 7 0x11 (collTag 3 1 0x11) (fields 16 [(10, 1,
    0)])), 0, 0, _, _, _, (⟨⟨rfl, rfl, rfl, rfl, by decide, by decide⟩, rfl, by decide⟩), (⟨by decide, by decide, by decide⟩),
    by decide, by decide, by decide, by decide, by decide, by decide, by decide, by decide⟩,
   ⟨member (groupAt 0 [0,
    5] (some { openCall with kind := 0x22, arg := 1, len := 64, dst := 0x3000, final := some final0 })) { memberPacket 5 0x10 (collTag 3 1 0x12) [1] with last := false },
    0, 1, 0x3000, _, _, _, _, _, (⟨⟨rfl, rfl, rfl, rfl, by decide, by decide⟩, rfl, by decide⟩), by decide, (rfl), by decide, (rfl),
    by decide, by decide, by decide, by decide, by decide, by decide, (by decide +kernel), (by decide +kernel)⟩,
   ⟨member (groupAt 0 [0, 5] (some openCall)) (memberPacket 5 0x10 (collTag 3 1 0x12) [1]), 0, 1, _, _, _, (⟨⟨rfl, rfl, rfl, rfl,
    by decide, by decide⟩, rfl, by decide⟩), by decide, by decide⟩,
   ⟨member (groupAt 0 [0, 5] none) (memberPacket 5 0x10 (collTag 3 1 0x12) [1]), 0, 1, _, _, (⟨rfl, rfl, rfl, rfl, by decide,
    by decide⟩), by decide, by decide⟩,
   ⟨member (groupAt 0 [0, 5] none) (memberPacket 5 0x10 (collTag 3 2 0x12) [1]), 0, 1, _, _, (⟨rfl, rfl, rfl, rfl, by decide,
    by decide⟩), by decide, by decide⟩,
   ⟨member (groupAt 0 [0, 5] none) (memberPacket 5 0x10 (collTag 4 2 0x12) [1]), 0, _, (rfl), by decide⟩,
   ⟨member (groupAt 0 [0,
    5] (some { openCall with kind := kindReduce, len := 16 })) (memberPacket 5 0x11 (collTag 3 1 3) (fields 16 [])), 0, 1, _, _, _,
    (⟨⟨rfl, rfl, rfl, rfl, by decide, by decide⟩, rfl, by decide⟩), (⟨by decide, by decide, by decide⟩), by decide, by decide,
    by decide, by decide⟩,
   ⟨member (groupAt 1 [7,
    0] (some { openCall with final := some final0 })) (memberPacket 7 0x11 (collTag 3 1 0x13) (fields 16 [])), 0, 0, _, _, _, _,
    (⟨⟨rfl, rfl, rfl, rfl, by decide, by decide⟩, rfl, by decide⟩), (⟨by decide, by decide, by decide⟩), (rfl), by decide,
    by decide, by decide, by decide⟩,
   ⟨inGroup (groupAt 0 [0, 5] (some { openCall with kind := 0x22, final := some final0 })), 3, _, _, _, (rfl), (rfl), (rfl),
    by decide, by decide, by decide⟩,
   ⟨inGroup (groupAt 1 [7, 0] (some { openCall with kind := kindReduce, final := some final0 })), 3, _, _, _, (rfl), (rfl), (rfl),
    by decide, by decide, by decide, by decide⟩,
   ⟨inGroup (groupAt 0 [0, 5] (some { openCall with openSent := true })), 3, _, _, (rfl), (rfl), by decide, by decide⟩,
   ⟨inGroup (groupAt 0 [0, 5] (some openCall)), 3, _, _, (rfl), (rfl), by decide, by decide⟩,
   ⟨inGroup (groupAt 0 [0, 5] (some openCall)), 3, _, _, (rfl), (rfl), (rfl)⟩,
   ⟨inGroup (groupAt 0 [0, 5] (some { openCall with final := some { final0 with runs := [(0, 1)] } })), 3, _, _,
    { final0 with runs := [(0, 1)] }, (rfl), (rfl), (rfl), (by decide +kernel)⟩,
   ⟨inGroup (groupAt 0 [0, 5] (some { openCall with final := some final0 })), 3, _, _, final0, (rfl), (rfl), (rfl),
    (by decide +kernel)⟩,
   ⟨{ live with ni := { inbox := [⟨memberPacket 5 0x11 (collTag 3 1 1) (fields 16 []), 3, [], 0⟩] } }, 0, _, _, .openRecord 0, _,
    (.head _), (rfl), (by decide +kernel), (.inl (by decide +kernel))⟩⟩

theorem witness_ExchangesRun :
    (∃ (s : State) (id : Nat), s.beginning id 0x28 = none) ∧
    (∃ (s : State) (id : Nat), s.beginning id 0x29 = none) ∧
    (∃ (s : State) (id : Nat), (FMap.find? s.ni.actions id = none ∨ ∃ a, FMap.find? s.ni.actions id = some a ∧
     (a.perm = none ∨ s.seat? a.seat = none ∨ a.trig.action ≠ 0x29 ∨ a.status ≠ none))) ∧
    (∃ (s : State) (id : Nat), (FMap.find? s.ni.actions id = none ∨ ∃ a, FMap.find? s.ni.actions id = some a ∧
     (a.perm = none ∨ s.seat? a.seat = none ∨ a.status ≠ none ∨ ∃ p, a.perm = some p ∧ (p.waiting = true ∨ p.received = true)))) ∧
    (∃ (s : State) (i : Nat), s.taken i [0x12] = none) ∧
    (∃ (s : State) (i : Nat) (q : Inbound), s.taken i [0x12] = some q ∧ (FMap.find? s.ni.groups (tagGroup q.pkt.tag) = none ∨ ∃ grp,
     FMap.find? s.ni.groups (tagGroup q.pkt.tag) = some grp ∧ (q.pkt.src ∉ grp.nodes ∨ s.epochOf grp.seat ≠ q.pkt.epoch))) ∧
    (∃ (s : State) (id : Nat) (a : Action) (x : Seat) (st : Status), s.beginning id 0x28 = some (a, x) ∧
     let v := s.permEnv a x; s.groupOf a.seat v.group = none ∧ s.isStandIn a.seat x.turn.toNat v.space = false ∧
       firstFail (s.permChecks a x v) = some st ∧ (∀ kb ∈ s.ni.actions, ∀ r, kb.2.perm = some r → r.waiting = false)) ∧
    (∃ (s : State) (id : Nat) (a : Action) (x : Seat) (st : Status), s.beginning id 0x29 = some (a, x) ∧
     let v := s.permEnv a x; s.groupOf a.seat v.group = none ∧ s.exchangeDone a.seat x.turn.toNat v.space = none ∧
       firstFail (s.permChecks a x v ++ s.returnChecks x v) = some st) ∧
    (∃ (s : State) (id : Nat) (a : Action) (x : Seat) (d : PermDone), s.beginning id 0x29 = some (a, x) ∧
     let v := s.permEnv a x; s.groupOf a.seat v.group = none ∧ s.exchangeDone a.seat x.turn.toNat v.space = some d ∧
       (d.status = .success ∨ d.status = .short) ∧ firstFail (s.permChecks a x v ++ s.returnChecks x v) = none ∧
       s.ni.allParts = [] ∧ s.permRowsOk x v d.wholeRows = true) ∧
    (∃ (s : State) (id : Nat) (a : Action) (x : Seat), s.beginning id 0x28 = some (a, x) ∧
     let v := s.permEnv a x; s.groupOf a.seat v.group = none ∧ s.isStandIn a.seat x.turn.toNat v.space = false ∧
       firstFail (s.permChecks a x v) = none ∧ s.permRowsOk x v [] = true) ∧
    (∃ (s : State) (id : Nat) (a : Action) (x : Seat), s.beginning id 0x29 = some (a, x) ∧
     let v := s.permEnv a x; s.exchangeDone a.seat x.turn.toNat v.space = none ∧
       firstFail (s.permChecks a x v ++ s.returnChecks x v) = none ∧ s.ni.allParts = []) ∧
    (∃ (s : State) (i : Nat) (r : Nat) (q : Inbound) (grp : Group) (x : Seat), fromMember s i [0x12] q grp r ∧
     s.seat? grp.seat = some x ∧
     let step := tagStep q.pkt.tag;
     let here (turn space : Nat) : Bool := turn % 64 == tagInst q.pkt.tag && space % 2048 == step % 2048; ∃ z,
       s.ni.standIns.find? (fun z => z.seat == grp.seat && here z.turn z.space) = some z) ∧
    (∃ (s : State) (i : Nat) (r : Nat) (q : Inbound) (grp : Group) (x : Seat), fromMember s i [0x12] q grp r ∧
     s.seat? grp.seat = some x ∧
     let step := tagStep q.pkt.tag;
     let here (turn space : Nat) : Bool := turn % 64 == tagInst q.pkt.tag && space % 2048 == step % 2048;
     s.ni.standIns.find? (fun z => z.seat == grp.seat && here z.turn z.space) = none ∧
     (bit step 15 = false ∨ bits step 14 11 ≠ 15) ∧ ∃ id, ∃ a, ∃ p, ∃ pl, s.permMatch grp.seat (tagInst q.pkt.tag) step = some (id,
     a, p) ∧ (p.msgs.getD r {}).end_ = 0 ∧ q.pkt.payload ≠ [] ∧ q.pkt.last = false ∧ q.pkt.bad = [] ∧
     let v := s.permEnv a x;
     let got := (p.msgs.getD r {}).got;
     let n := q.pkt.payload.length; got + n < (s.rowsFrom x v r).length * v.row ∧
       (takePieces (takePieces ((s.rowPlaces x v.row (s.rowsFrom x v r)).getD []) got).2 n).1 = [(pl, n)] ∧
       s.rangePoison pl n = none) ∧
    (∃ (s : State) (i : Nat) (r : Nat) (q : Inbound) (grp : Group) (x : Seat), fromMember s i [0x12] q grp r ∧
     s.seat? grp.seat = some x ∧
     let step := tagStep q.pkt.tag;
     let here (turn space : Nat) : Bool := turn % 64 == tagInst q.pkt.tag && space % 2048 == step % 2048;
     s.ni.standIns.find? (fun z => z.seat == grp.seat && here z.turn z.space) = none ∧
     (bit step 15 = false ∨ bits step 14 11 ≠ 15) ∧ s.permMatch grp.seat (tagInst q.pkt.tag) step = none ∧ s.ni.permDone = [] ∧
     tagInst q.pkt.tag = x.turn.toNat % 64) ∧
    (∃ (s : State) (id : Nat) (a : Action) (p : PermRun) (x : Seat), FMap.find? s.ni.actions id = some a ∧ a.perm = some p ∧
     s.seat? a.seat = some x ∧ p.waiting = false ∧ p.received = false ∧ a.status = none) ∧
    (∃ (s : State) (id : Nat) (a : Action) (p : PermRun) (x : Seat), FMap.find? s.ni.actions id = some a ∧ a.perm = some p ∧
     s.seat? a.seat = some x ∧ a.trig.action = 0x28 ∧ a.status = none ∧ (p.received = false ∨ s.permAcked id = false)) ∧
    (∃ (s : State) (id : Nat) (a : Action) (p : PermRun) (x : Seat), FMap.find? s.ni.actions id = some a ∧ a.perm = some p ∧
     s.seat? a.seat = some x ∧ a.trig.action = 0x28 ∧ a.status = none ∧ p.received = true ∧ s.permAcked id = true ∧
     (∀ kb ∈ s.ni.actions, ∀ r, kb.2.perm = some r → r.waiting = false)) ∧
    (∃ (s : State) (id : Nat) (a : Action) (p : PermRun) (x : Seat), FMap.find? s.ni.actions id = some a ∧ a.perm = some p ∧
     s.seat? a.seat = some x ∧ a.trig.action = 0x29 ∧ a.status = none ∧ p.waiting = false ∧ p.partOver = false ∧ p.received = true ∧
     s.permAcked id = true) ∧
    (∃ (s : State) (id : Nat) (a : Action) (p : PermRun) (x : Seat), FMap.find? s.ni.actions id = some a ∧ a.perm = some p ∧
     s.seat? a.seat = some x ∧ a.trig.action = 0x29 ∧ a.status = none ∧
     (p.waiting = true ∨ p.partOver = true ∨ p.received = false ∨ s.permAcked id = false)) ∧
    (∃ (s : State) (id : Nat) (a : Action) (p : PermRun) (x : Seat), FMap.find? s.ni.actions id = some a ∧ a.perm = some p ∧
     s.seat? a.seat = some x ∧ a.trig.action = 0x29 ∧ a.status = none ∧ p.partOver = true ∧ (∀ n, n < (s.permEnv a x).parts →
     ∃ d ∈ s.ni.permDone, d.seat = a.seat ∧ d.turn = p.turn ∧ d.space = p.space ∧ d.kind = 0x29 ∧ d.part = n)) ∧
    (∃ (s : State) (id : Nat) (a : Action) (p : PermRun) (x : Seat), FMap.find? s.ni.actions id = some a ∧ a.perm = some p ∧
     s.seat? a.seat = some x ∧ a.trig.action = 0x29 ∧ a.status = none ∧ (p.partOver = false ∨ ∃ n, n < (s.permEnv a x).parts ∧
     ∀ d ∈ s.ni.permDone, ¬ (d.seat = a.seat ∧ d.turn = p.turn ∧ d.space = p.space ∧ d.kind = 0x29 ∧ d.part = n))) :=
  ⟨⟨.reset, 0, by decide⟩,
   ⟨.reset, 0, by decide⟩,
   ⟨.reset, 0, by decide⟩,
   ⟨.reset, 0, by decide⟩,
   ⟨.reset, 0, by decide⟩,
   ⟨{ live with ni := { inbox := [⟨memberPacket 5 0x12 (collTag 3 0 0) [1, 2], 3, [], 0⟩] } }, 0, _, (rfl),
    (.inl (by decide +kernel))⟩,
   ⟨{ seated spaced with ni := { actions := [(0, actionOf 0x28 0 (exArgs 0xFFFF))] } }, 0, _, _, .descInvalid, (rfl), (rfl),
    (by decide +kernel), (by decide +kernel), (fun kb h r hr => by cases h with | head => exact nomatch hr | tail _ h => cases h)⟩,
   ⟨{ seated spaced with ni := { actions := [(0, actionOf 0x29 0 (fields 32 [(22, 2, 0xFFFF), (25, 1, 1)]))] } }, 0, _, _,
    .descInvalid, (rfl), (rfl), (rfl), (by decide +kernel)⟩,
   ⟨{ returning with ni := { returning.ni with permDone := [⟨1, 0, 0, 0x28, 0, .success, []⟩] } }, 0, _, _, _, (rfl), (rfl), (rfl),
    (.inl rfl), (by decide +kernel), (rfl), (by decide +kernel)⟩,
   ⟨exchanging, 0, _, _, (rfl), (by decide +kernel), (by decide +kernel), (by decide +kernel), (by decide +kernel)⟩,
   ⟨returning, 0, _, _, (rfl), (by decide +kernel), (by decide +kernel), by decide⟩,
   ⟨receiving none [⟨1, 0, 0, 3, 0⟩], 0, 1, _, _, _, (⟨rfl, rfl, rfl, rfl, by decide, by decide⟩), (rfl), _, (rfl)⟩,
   ⟨receiving (some perm1) [], 0, 1, _, _, _, (⟨rfl, rfl, rfl, rfl, by decide, by decide⟩), (rfl), by decide, (.inr (by decide)),
    0, _, _, 0xC00000000000, (rfl), by decide, by decide, by decide, by decide, (by decide +kernel), (by decide +kernel),
    (by decide +kernel)⟩,
   ⟨receiving none [], 0, 1, _, _, _, (⟨rfl, rfl, rfl, rfl, by decide, by decide⟩), (rfl), (rfl), (by decide +kernel),
    (by decide +kernel), (by decide +kernel), by decide⟩,
   ⟨acting { actionOf 40 0 (fields 32 []) with perm := some { perm0 with group := 0xFFFF } }, 0, _, _, _, (rfl), (rfl), (rfl),
    by decide, by decide, by decide⟩,
   ⟨acting { actionOf 40 0 (fields 32 []) with perm := some { perm0 with group := 0xFFFF } }, 0, _, _, _, (rfl), (rfl), (rfl),
    by decide, by decide, (.inl rfl)⟩,
   ⟨acting { actionOf 40 0 (fields 32 []) with perm := some { perm0 with received := true } }, 0, _, _, _, (rfl), (rfl), (rfl), by decide, by decide, by decide, by decide, (by
    intro kb hk r hr
    have hk : kb = (0, { actionOf 0x28 0 (fields 32 []) with perm := some { perm0 with received := true } }) := List.mem_singleton.1 hk
    subst hk
    cases hr
    rfl)⟩,
   ⟨acting { actionOf 41 0 (fields 32 []) with perm := some { perm0 with received := true } }, 0, _, _, _, (rfl), (rfl), (rfl),
    by decide, by decide, by decide, by decide, by decide, by decide⟩,
   ⟨acting { actionOf 0x29 0 (fields 32 [(25, 1, 2)]) with perm := some { perm0 with waiting := true } }, 0, _, _, _, (rfl), (rfl),
    (rfl), (rfl), (rfl), (.inl rfl)⟩,
   ⟨acting { actionOf 0x29 0 (fields 32 []) with perm := some { perm0 with partOver := true } }, 0, _, _, _, (rfl), (rfl), (rfl),
    by decide, by decide, by decide,
    (fun n h => absurd h (by rw [show (State.permEnv _ _ _).parts = 0 by decide +kernel]; exact Nat.not_lt_zero n))⟩,
   ⟨acting { actionOf 0x29 0 (fields 32 [(25, 1, 2)]) with perm := some { perm0 with partOver := false } }, 0, _, _, _, (rfl),
    (rfl), (rfl), (rfl), (rfl), (.inl rfl)⟩⟩

theorem witness_PortsReceiveFlits :
    (∃ (s : State) (p : Nat) (f : Flit), (s.port p).state = .up ∧ f.good = true ∧ f.kind = .idle) ∧
    (∃ (s : State) (p : Nat) (f : Flit), (s.port p).state = .up ∧ (f.good = false ∨ (f.kind ≠ .idle ∧ f.lseq ≠ (s.port p).expected))) ∧
    (∃ (s : State) (p : Nat) (f : Flit), (s.port p).state = .up ∧ f.good = true ∧ f.kind = .control ∧ f.lseq = (s.port p).expected) ∧
    (∃ (s : State) (p : Nat) (f : Flit), (s.port p).state = .up ∧ f.good = true ∧ f.kind = .data ∧ f.lseq = (s.port p).expected ∧
     let stream := f.tc % 4 * 16 + f.vl % 16;
     let ms := (FMap.get [] (s.port p).partials stream).flatMap (·.2) ++ marked f.payload f.bad; ms.length < 16) ∧
    (∃ (s : State) (p : Nat) (f : Flit), (s.port p).state = .up ∧ f.good = true ∧ f.kind = .data ∧ f.lseq = (s.port p).expected ∧
     let stream := f.tc % 4 * 16 + f.vl % 16;
     let ms := (FMap.get [] (s.port p).partials stream).flatMap (·.2) ++ marked f.payload f.bad;
     let k := parsePacket ms; packetSize (ms.map (·.1)) = some ms.length ∧ k.ok = true ∧ k.crc = k.pkt.crc ∧ s.mod.state = .ready ∧
       k.pkt.dst = s.fab.node ∧ settled s k.pkt.rxKey ∧ unnumbered k.pkt.type = true) ∧
    (∃ (s : State) (p : Nat) (f : Flit), (s.port p).state = .up ∧ f.good = true ∧ f.kind = .data ∧ f.lseq = (s.port p).expected ∧
     let stream := f.tc % 4 * 16 + f.vl % 16;
     let ms := (FMap.get [] (s.port p).partials stream).flatMap (·.2) ++ marked f.payload f.bad;
     let k := parsePacket ms; packetSize (ms.map (·.1)) = some ms.length ∧ k.ok = true ∧ k.crc = k.pkt.crc ∧ s.mod.state = .ready ∧
       k.pkt.dst = s.fab.node ∧ settled s k.pkt.rxKey ∧ unnumbered k.pkt.type = false ∧ s.epochCurrent k.pkt.epoch = true ∧
       k.pkt.seq = (s.rxStream k.pkt.rxKey).next ∧ (s.rxStream k.pkt.rxKey).early = []) ∧
    (∃ (s : State) (p : Nat) (f : Flit), (s.port p).state = .up ∧ f.good = true ∧ f.kind = .data ∧ f.lseq = (s.port p).expected ∧
     let stream := f.tc % 4 * 16 + f.vl % 16;
     let ms := (FMap.get [] (s.port p).partials stream).flatMap (·.2) ++ marked f.payload f.bad;
     let k := parsePacket ms; packetSize (ms.map (·.1)) = some ms.length ∧ k.ok = true ∧ k.crc = k.pkt.crc ∧ ∃ r, ∃ d,
       s.mod.state = .ready ∧ k.pkt.dst ≠ s.fab.node ∧
       s.chooseRoute (s.routeEntry p (portHub p) k.pkt.dst) p (portHub p) k.pkt = some (r, d)) ∧
    (∃ (s : State) (p : Nat) (f : Flit), (s.port p).state = .up ∧ f.good = true ∧ f.kind = .data ∧ f.lseq = (s.port p).expected ∧
     let stream := f.tc % 4 * 16 + f.vl % 16;
     let ms := (FMap.get [] (s.port p).partials stream).flatMap (·.2) ++ marked f.payload f.bad;
     let k := parsePacket ms; packetSize (ms.map (·.1)) = some ms.length ∧ k.ok = true ∧ k.crc = k.pkt.crc ∧ s.mod.state = .ready ∧
       k.pkt.dst ≠ s.fab.node ∧ s.chooseRoute (s.routeEntry p (portHub p) k.pkt.dst) p (portHub p) k.pkt = none) ∧
    (∃ (s : State) (p : Nat) (f : Flit), (s.port p).state = .up ∧ f.good = true ∧ f.kind = .data ∧ f.lseq = (s.port p).expected ∧
     let stream := f.tc % 4 * 16 + f.vl % 16;
     let ms := (FMap.get [] (s.port p).partials stream).flatMap (·.2) ++ marked f.payload f.bad;
     let k := parsePacket ms; packetSize (ms.map (·.1)) = some ms.length ∧ k.ok = true ∧ k.crc = k.pkt.crc ∧ s.mod.state ≠ .ready ∧
       (k.pkt.dst = s.fab.node → k.pkt.type ≠ 0x20 ∧ k.pkt.type ≠ 0x21) ∧ (k.pkt.dst ≠ s.fab.node → k.pkt.tc ≠ 0)) ∧
    (∃ (s : State) (p : Nat) (f : Flit), (s.port p).state = .up ∧ f.good = true ∧ f.kind = .data ∧ f.lseq = (s.port p).expected ∧
     let stream := f.tc % 4 * 16 + f.vl % 16;
     let ms := (FMap.get [] (s.port p).partials stream).flatMap (·.2) ++ marked f.payload f.bad;
     let k := parsePacket ms; packetSize (ms.map (·.1)) = some ms.length ∧ (k.ok = false ∨ k.crc ≠ k.pkt.crc)) ∧
    (∃ (s : State) (p : Nat) (f : Flit), (s.port p).state ≠ .up ∧
     ((s.port p).state ≠ .handshake ∨ f.good = false ∨ f.kind ≠ .control)) ∧
    (∃ (s : State) (p : Nat) (f : Flit), (s.port p).state ≠ .up ∧ (s.port p).state = .handshake ∧ f.good = true ∧ f.kind = .control) :=
  ⟨⟨portIs { state := .up }, 2, { flit0 with kind := .idle }, by decide, by decide, by decide⟩,
   ⟨portIs { state := .up }, 2, { flit0 with good := false }, by decide, (.inl rfl)⟩,
   ⟨portIs { state := .up }, 2, { flit0 with kind := .control }, by decide, by decide, by decide, by decide⟩,
   ⟨portIs { state := .up }, 2, flit0, by decide, by decide, by decide, by decide, by decide⟩,
   ⟨{ portIs { state := .up } with fab := { ports := [(2, { state := .up })], node := 0 } }, 2,
    { flit0 with payload := (Packet.encode (mkPacket 0 0x21 0 0 0 0 [1])).map (·.1) }, by decide, by decide, by decide, by decide,
    (by decide +kernel), (by decide +kernel), (by decide +kernel), (rfl), (by decide +kernel), (⟨by decide +kernel,
    by decide +kernel⟩), (by decide +kernel)⟩,
   ⟨{ portIs { state := .up } with fab := { ports := [(2, { state := .up })], node := 0 }, seats := [(1, goodSeat)] }, 2,
    { flit0 with payload := (Packet.encode (mkPacket 0 0x12 1 0 0 0 [1])).map (·.1) }, by decide, by decide, by decide, by decide,
    (by decide +kernel), (by decide +kernel), (by decide +kernel), (rfl), (by decide +kernel), (⟨by decide +kernel,
    by decide +kernel⟩), (by decide +kernel), (by decide +kernel), (by decide +kernel), (by decide +kernel)⟩,
   ⟨{ portIs { state := .up } with fab := { ports := [(2, { state := .up, memberTable := [(0, 0x63)] }), (3, { state := .up })], node := 1 } },
    2, { flit0 with payload := (Packet.encode (mkPacket 0 0x14 0 0 0 0 [1])).map (·.1) }, by decide, by decide, by decide,
    by decide, (by decide +kernel), (by decide +kernel), (by decide +kernel), 3, false, (rfl), (by decide +kernel),
    (by decide +kernel)⟩,
   ⟨{ portIs { state := .up } with fab := { ports := [(2, { state := .up })], node := 1 } }, 2,
    { flit0 with payload := (Packet.encode (mkPacket 0 0x14 0 0 0 0 [1])).map (·.1) }, by decide, by decide, by decide, by decide,
    (by decide +kernel), (by decide +kernel), (by decide +kernel), (rfl), (by decide +kernel), (by decide +kernel)⟩,
   ⟨{ portIs { state := .up } with fab := { ports := [(2, { state := .up })], node := 0 }, mod := {} }, 2,
    { flit0 with payload := (Packet.encode (mkPacket 0 0x14 0 0 0 0 [1])).map (·.1) }, by decide, by decide, by decide, by decide,
    (by decide +kernel), (by decide +kernel), (by decide +kernel), (by decide +kernel), (fun _ => by decide +kernel),
    (fun h => absurd (by decide +kernel) h)⟩,
   ⟨portIs { state := .up }, 2, { flit0 with payload := List.replicate 25 0 }, by decide, by decide, by decide, by decide,
    by decide, (by decide +kernel)⟩,
   ⟨portIs {}, 2, flit0, by decide, (.inl (by decide))⟩,
   ⟨portIs { state := .handshake }, 2, { flit0 with kind := .control }, by decide, by decide, by decide, by decide⟩⟩

theorem witness_PortsSendFlits :
    (∃ (s : State) (p : Nat) (i : Nat) (f : Flit), s.ni.tc0 = [] ∧ (s.port p).state = .up ∧ (s.port p).resend = some i ∧
     (s.port p).replay[i]? = some f) ∧
    (∃ (s : State) (p : Nat), s.ni.tc0 = [] ∧ (s.port p).state = .up ∧ (s.port p).resend = none ∧
     ((s.port p).soaking = true ∨ 1024 ≤ (s.port p).replay.length)) ∧
    (∃ (s : State) (p : Nat), s.ni.tc0 = [] ∧ (s.port p).state = .up ∧ (s.port p).resend = none ∧ (s.port p).soaking = false ∧
     (s.port p).replay.length < 1024 ∧ (s.port p).controlOut ≠ []) ∧
    (∃ (s : State) (p : Nat) (key : Nat) (q : OutPkt), s.ni.tc0 = [] ∧ (s.port p).state = .up ∧ (s.port p).resend = none ∧
     (s.port p).soaking = false ∧ (s.port p).replay.length < 1024 ∧ (s.port p).controlOut = [] ∧ (s.port p).queue = [q] ∧
     (q.pkt.tc = 0 ∨ (q.pkt.tc < 4 ∧ 0 < (s.params (portHub p)).weight q.pkt.tc ∧ 1 ≤ (s.port p).wrrClass ∧
     (s.port p).wrrClass ≤ 3)) ∧ q.pkt.vl < 16 ∧ q.req = 24 ∧ q.sent = 0 ∧ q.pkt.size ≤ 244 ∧ key = q.pkt.tc * 16 + q.pkt.vl ∧
     (0 < FMap.get 0 (s.port p).credits key ∨ (q.pkt.tc ≠ 0 ∧ 0 < (s.port p).shared))) ∧
    (∃ (s : State) (p : Nat) (key : Nat) (q : OutPkt), s.ni.tc0 = [] ∧ (s.port p).state = .up ∧ (s.port p).resend = none ∧
     (s.port p).soaking = false ∧ (s.port p).replay.length < 1024 ∧ (s.port p).controlOut = [] ∧ (s.port p).queue = [q] ∧
     (q.pkt.tc = 0 ∨ (q.pkt.tc < 4 ∧ 0 < (s.params (portHub p)).weight q.pkt.tc ∧ 1 ≤ (s.port p).wrrClass ∧
     (s.port p).wrrClass ≤ 3)) ∧ q.pkt.vl < 16 ∧ q.req = 24 ∧ q.sent = 0 ∧ q.pkt.size ≤ 244 ∧ key = q.pkt.tc * 16 + q.pkt.vl ∧
     FMap.get 0 (s.port p).credits key = 0 ∧ (q.pkt.tc = 0 ∨ (s.port p).shared = 0)) ∧
    (∃ (s : State) (p : Nat), s.ni.tc0 = [] ∧ (s.port p).state = .handshake ∧ (s.port p).controlOut = []) ∧
    (∃ (s : State) (p : Nat), s.ni.tc0 = [] ∧ (s.port p).state = .handshake ∧ (s.port p).controlOut ≠ [] ∧ (s.port p).partner = none) ∧
    (∃ (s : State) (p : Nat), s.ni.tc0 = [] ∧ (s.port p).state ≠ .handshake ∧ (s.port p).state ≠ .up) ∧
    (∃ (s : State) (p : Nat) (code : Nat) (i : Instr), (i, code) ∈ [(Instr.credit p, 1), (.replay p, 2), (.linkInfo p, 3),
     (.notReady p, 4), (.readyRecord p, 5)] ∧ (∀ c ∈ (s.port p).controlIn, c.code ≠ code)) ∧
    (∃ (s : State) (p : Nat) (k : Nat) (c : Control) (rest : List Control), recordIs s p 1 c rest ∧
     k = byteAt c.body 0 % 4 * 16 + byteAt c.body 0 / 4 % 16 ∧ bit (byteAt c.body 0) 6 = true) ∧
    (∃ (s : State) (p : Nat) (k : Nat) (c : Control) (rest : List Control), recordIs s p 1 c rest ∧
     k = byteAt c.body 0 % 4 * 16 + byteAt c.body 0 / 4 % 16 ∧ bit (byteAt c.body 0) 6 = false ∧ (s.port p).state ≠ .handshake) ∧
    (∃ (s : State) (p : Nat) (k : Nat) (c : Control) (rest : List Control), recordIs s p 1 c rest ∧
     k = byteAt c.body 0 % 4 * 16 + byteAt c.body 0 / 4 % 16 ∧ bit (byteAt c.body 0) 6 = false ∧ (s.port p).state = .handshake ∧
     (s.port p).partner = none) ∧
    (∃ (s : State) (p : Nat) (c : Control) (rest : List Control), recordIs s p 2 c rest ∧
     ((s.port p).state ≠ .up ∨ ∀ f ∈ (s.port p).replay, f.lseq ≠ fld c.body 1 2 % 4096)) ∧
    (∃ (s : State) (p : Nat) (c : Control) (rest : List Control), recordIs s p 2 c rest ∧ ∃ i, (s.port p).state = .up ∧
     (s.port p).replay.findIdx? (fun f => f.lseq == fld c.body 1 2 % 4096) = some i) ∧
    (∃ (s : State) (p : Nat), (s.port p).awaiting = true ∧ (s.port p).state = .up) ∧
    (∃ (s : State) (p : Nat), ((s.port p).awaiting = false ∨ (s.port p).state ≠ .up)) ∧
    (∃ (s : State) (p : Nat), (s.port p).state = .up ∧ (s.port p).replay ≠ []) ∧
    (∃ (s : State) (p : Nat), ((s.port p).state ≠ .up ∨ (s.port p).replay = [])) :=
  ⟨⟨portIs { state := .up, resend := some 0, replay := [flit0] }, 2, 0, flit0, by decide, by decide, by decide, by decide⟩,
   ⟨portIs { state := .up, soaking := true }, 2, by decide, by decide, by decide, (.inl rfl)⟩,
   ⟨portIs { state := .up, controlOut := [⟨1, []⟩] }, 2, by decide, by decide, by decide, by decide, by decide, by decide⟩,
   ⟨portIs { state := .up, queue := [⟨24, 0, none, mkPacket 5 0x14 0 0 0 0 [], 0, []⟩], credits := [(0, 1)] }, 2, _, _, by decide,
    by decide, by decide, by decide, by decide, by decide, (rfl), (.inl rfl), (by decide +kernel), (rfl), (rfl),
    (by decide +kernel), (rfl), (.inl (by decide +kernel))⟩,
   ⟨portIs { state := .up, queue := [⟨24, 0, none, mkPacket 5 0x14 0 0 0 0 [], 0, []⟩] }, 2, _, _, by decide, by decide, by decide,
    by decide, by decide, by decide, (rfl), (.inl rfl), (by decide +kernel), (rfl), (rfl), (by decide +kernel), (rfl),
    (by decide +kernel), (.inl rfl)⟩,
   ⟨portIs { state := .handshake }, 2, by decide, by decide, by decide⟩,
   ⟨portIs { state := .handshake, controlOut := [⟨1, []⟩] }, 2, by decide, by decide, by decide, by decide⟩,
   ⟨.reset, 0, by decide, by decide, by decide⟩,
   ⟨portIs { state := .up }, 2, 1, .credit 2, (.head _), (fun _ h => nomatch h)⟩,
   ⟨portIs { state := .up, controlIn := [⟨1, fields 16 [(0, 1, 64)]⟩] }, 2, _, _, _, (⟨[], [], rfl, (fun _ h => nomatch h), rfl,
    rfl⟩), (rfl), (by decide +kernel)⟩,
   ⟨portIs { state := .up, controlIn := [⟨1, fields 16 [(0, 1, 5)]⟩] }, 2, _, _, _, (⟨[], [], rfl, (fun _ h => nomatch h), rfl,
    rfl⟩), (rfl), (by decide +kernel), (by decide +kernel)⟩,
   ⟨portIs { state := .handshake, controlIn := [⟨1, fields 16 [(0, 1, 5)]⟩] }, 2, _, _, _, (⟨[], [], rfl, (fun _ h => nomatch h),
    rfl, rfl⟩), (rfl), (by decide +kernel), (by decide +kernel), (by decide +kernel)⟩,
   ⟨portIs { state := .up, controlIn := [⟨2, fields 16 []⟩] }, 2, _, _, (⟨[], [], rfl, (fun _ h => nomatch h), rfl, rfl⟩),
    (.inr (fun _ h => nomatch h))⟩,
   ⟨portIs { state := .up, controlIn := [⟨2, fields 16 []⟩], replay := [flit0] }, 2, _, _, (⟨[], [], rfl, (fun _ h => nomatch h),
    rfl, rfl⟩), 0, by decide, (by decide +kernel)⟩,
   ⟨portIs { state := .up, awaiting := true }, 2, by decide, by decide⟩,
   ⟨.reset, 0, by decide⟩,
   ⟨portIs { state := .up, replay := [flit0] }, 2, by decide, by decide⟩,
   ⟨.reset, 0, by decide⟩⟩

theorem witness_PortsChangeState :
    (∃ (s : State) (p : Nat), (s.port p).state = .training) ∧
    (∃ (s : State) (p : Nat), (s.port p).state ≠ .training) ∧
    (∃ (s : State) (p : Nat), (s.port p).state = .handshake) ∧
    (∃ (s : State) (p : Nat), (s.port p).state ≠ .handshake) ∧
    (∃ (s : State) (p : Nat) (c : Control) (rest : List Control), recordIs s p 3 c rest ∧ (s.port p).state ≠ .handshake) ∧
    (∃ (s : State) (p : Nat) (c : Control) (rest : List Control), recordIs s p 3 c rest ∧ (s.port p).state = .handshake ∧
     fld c.body 1 2 ≠ s.fab.node ∧ byteAt c.body 4 ≤ s.cpl + 1 ∧ s.cpl ≤ byteAt c.body 4 + 1) ∧
    (∃ (s : State) (p : Nat) (c : Control) (rest : List Control), recordIs s p 3 c rest ∧ ∃ event, (s.port p).state = .handshake ∧
     ((event = 0x0403 ∧ fld c.body 1 2 = s.fab.node) ∨ (event = 0x0404 ∧ fld c.body 1 2 ≠ s.fab.node ∧
     (s.cpl + 1 < byteAt c.body 4 ∨ byteAt c.body 4 + 1 < s.cpl))) ∧
     let what := some (event, fld c.body 1 2, byteAt c.body 4); (s.port p).condition ≠ what) ∧
    (∃ (s : State) (p : Nat) (c : Control) (rest : List Control), recordIs s p 3 c rest ∧ ∃ event, (s.port p).state = .handshake ∧
     ((event = 0x0403 ∧ fld c.body 1 2 = s.fab.node) ∨ (event = 0x0404 ∧ fld c.body 1 2 ≠ s.fab.node ∧
     (s.cpl + 1 < byteAt c.body 4 ∨ byteAt c.body 4 + 1 < s.cpl))) ∧
     let what := some (event, fld c.body 1 2, byteAt c.body 4); (s.port p).condition = what) ∧
    (∃ (s : State) (p : Nat), (s.port p).state = .up) ∧
    (∃ (s : State) (p : Nat), (s.port p).state = .up ∧ (s.port p).queue = []) ∧
    (∃ (s : State) (p : Nat), (s.port p).state = .handshake ∧ (s.port p).queue = []) ∧
    (∃ (s : State) (p : Nat), (s.port p).state ≠ .up ∧ (s.port p).state ≠ .handshake) ∧
    (∃ (s : State) (p : Nat), (s.port p).state = .quarantined) ∧
    (∃ (s : State) (p : Nat), (s.port p).state ≠ .quarantined) ∧
    (∃ (s : State) (p : Nat), (s.port p).state = .up ∧ (s.port p).soaking = true) ∧
    (∃ (s : State) (p : Nat), ((s.port p).soaking = false ∨ (s.port p).state ≠ .up)) ∧
    (∃ (s : State) (p : Nat) (c : Control) (rest : List Control), recordIs s p 4 c rest ∧ fld c.body 1 2 ≠ s.fab.node) ∧
    (∃ (s : State) (p : Nat) (c : Control) (rest : List Control), recordIs s p 4 c rest ∧ fld c.body 1 2 = s.fab.node ∧ ∃ k, ∃ x,
     ∃ u,
     List.find? (fun (kx : Nat × TxStream) => keyNode kx.1 == fld c.body 3 2 && keyTc kx.1 == byteAt c.body 0 % 4 && kx.2.unacked.any (fun t => t.pkt.seq % 65536 == fld c.body 5 2)) s.ni.tx = some (k,
     x) ∧ x.unacked.find? (fun t => t.pkt.seq % 65536 == fld c.body 5 2) = some u) ∧
    (∃ (s : State) (p : Nat) (c : Control) (rest : List Control), recordIs s p 4 c rest ∧ fld c.body 1 2 = s.fab.node ∧
     (∀ kx ∈ s.ni.tx, ¬ (keyNode kx.1 = fld c.body 3 2 ∧ keyTc kx.1 = byteAt c.body 0 % 4 ∧ ∃ u ∈ kx.2.unacked,
     u.pkt.seq % 65536 = fld c.body 5 2)) ∧ ∃ id, ∃ r,
     List.find? (fun (kr : Nat × Request) => kr.2.dst == fld c.body 3 2 && kr.2.tc == byteAt c.body 0 % 4 && kr.2.seq % 65536 == fld c.body 5 2) s.ni.requests = some (id,
     r)) ∧
    (∃ (s : State) (p : Nat) (c : Control) (rest : List Control), recordIs s p 5 c rest ∧ (s.port p).refused = []) ∧
    (∃ (s : State) (p : Nat), (s.port p).held = true ∧ (s.port p).refused = []) ∧
    (∃ (s : State) (p : Nat), (s.port p).held = false) :=
  ⟨⟨portIs { state := .training }, 2, by decide⟩,
   ⟨portIs { state := .up }, 2, by decide⟩,
   ⟨portIs { state := .handshake }, 2, by decide⟩,
   ⟨portIs { state := .up }, 2, by decide⟩,
   ⟨portIs { state := .up, controlIn := [⟨3, fields 16 [(1, 2, 5)]⟩] }, 2, _, _, (⟨[], [], rfl, (fun _ h => nomatch h), rfl, rfl⟩),
    by decide⟩,
   ⟨portIs { state := .handshake, controlIn := [⟨3, fields 16 [(1, 2, 5)]⟩] }, 2, _, _, (⟨[], [], rfl, (fun _ h => nomatch h), rfl,
    rfl⟩), by decide, (by decide +kernel), (by decide +kernel), (by decide +kernel)⟩,
   ⟨portIs { state := .handshake, controlIn := [⟨3, fields 16 [(1, 2, 5), (4, 1, 9)]⟩] }, 2, _, _, (⟨[], [], rfl,
    (fun _ h => nomatch h), rfl, rfl⟩), 0x0404, by decide, (.inr (by decide +kernel)), (by decide +kernel)⟩,
   ⟨portIs { state := .handshake, controlIn := [⟨3, fields 16 [(1, 2, 5), (4, 1, 9)]⟩], condition := some (0x0404, 5, 9) }, 2, _,
    _, (⟨[], [], rfl, (fun _ h => nomatch h), rfl, rfl⟩), 0x0404, by decide, (.inr (by decide +kernel)), (by decide +kernel)⟩,
   ⟨portIs { state := .up }, 2, by decide⟩,
   ⟨portIs { state := .up }, 2, by decide, by decide⟩,
   ⟨portIs { state := .handshake }, 2, by decide, by decide⟩,
   ⟨.reset, 0, by decide, by decide⟩,
   ⟨portIs { state := .quarantined }, 2, by decide⟩,
   ⟨portIs {}, 2, by decide⟩,
   ⟨portIs { state := .up, soaking := true }, 2, by decide, by decide⟩,
   ⟨live, 4096, by decide⟩,
   ⟨portIs { state := .up, controlIn := [⟨4, fields 16 [(1, 2, 5)]⟩] }, 2, _, _, (⟨[], [], rfl, (fun _ h => nomatch h), rfl, rfl⟩),
    (by decide +kernel)⟩,
   ⟨{ portIs { state := .up, controlIn := [⟨4, fields 16 [(1, 2, 0xFFFF), (3, 2, 5)]⟩] } with ni := { tx := [(5 * 2 ^ 38, { unacked := [⟨mkPacket 5 0x14 0 0 0 0 [], [], 0, 1, none⟩] })] } },
    2, _, _, (⟨[], [], rfl, (fun _ h => nomatch h), rfl, rfl⟩), (by decide +kernel), _, _, _, (rfl), (rfl)⟩,
   ⟨{ portIs { state := .up, controlIn := [⟨4, fields 16 [(1, 2, 0xFFFF), (3, 2, 5)]⟩] } with ni := { requests := [(4, ⟨5, 0, 0, 0, 0, 1, 0, .write, .action 0, 0⟩)] } },
    2, _, _, (⟨[], [], rfl, (fun _ h => nomatch h), rfl, rfl⟩), (by decide +kernel), (fun _ h => nomatch h), 4, _, (rfl)⟩,
   ⟨portIs { state := .up, controlIn := [⟨5, fields 16 []⟩] }, 2, _, _, (⟨[], [], rfl, (fun _ h => nomatch h), rfl, rfl⟩),
    by decide⟩,
   ⟨portIs { held := true }, 2, by decide, by decide⟩,
   ⟨portIs {}, 2, by decide⟩⟩

theorem witness_StreamsAcknowledgeAndResend :
    (∃ (s : State) (k : Nat) (i : Inbound), (s.rxStream k).early = [i] ∧ i.pkt.reliable = true) ∧
    (∃ (s : State) (k : Nat) (i : Inbound), (s.rxStream k).early = [i] ∧ i.pkt.reliable = false) ∧
    (∃ (s : State) (k : Nat), (s.rxStream k).early = []) ∧
    (∃ (s : State) (i : Nat) (q : Inbound), s.taken i [0x14] = some q) ∧
    (∃ (s : State) (k : Nat) (p : Nat) (d : Bool), 0 < (s.rxStream k).reliables ∧ keyNode k ≠ s.fab.node ∧
     let hub := streamHub (keyNode k) (keyVl k);
     s.chooseRoute (s.routeEntry 24 hub (keyNode k)) 24 hub (mkPacket (keyNode k) 0x14 (keyTc k) (keyVl k) 0 0 []) = some (p, d)) ∧
    (∃ (s : State) (k : Nat), (s.rxStream k).reliables = 0 ∧ (s.rxStream k).duplicate = false) ∧
    (∃ (s : State) (k : Nat), (s.txStream k).unacked ≠ [] ∧ (s.txStream k).runs < 16) ∧
    (∃ (s : State) (k : Nat), (s.txStream k).unacked = []) ∧
    (∃ (s : State) (k : Nat) (id : Nat) (u : TxPkt) (r : Request), (s.txStream k).unacked = [u] ∧ 16 ≤ (s.txStream k).runs ∧
     List.find? (fun (kr : Nat × Request) => kr.2.dst == keyNode k && kr.2.tc == keyTc k && kr.2.vl == keyVl k && kr.2.epoch == keyEpoch k && kr.2.seq == u.pkt.seq) s.ni.requests = some (id,
     r)) ∧
    (∃ (s : State) (k : Nat) (id : Nat) (u : TxPkt) (a : Action) (p : PermRun), (s.txStream k).unacked = [u] ∧
     16 ≤ (s.txStream k).runs ∧ (∀ kr ∈ s.ni.requests, ¬ (kr.2.dst = keyNode k ∧ kr.2.tc = keyTc k ∧ kr.2.vl = keyVl k ∧
     kr.2.epoch = keyEpoch k ∧ kr.2.seq = u.pkt.seq)) ∧ u.owner = some (.action id) ∧ FMap.find? s.ni.actions id = some a ∧
     a.perm = some p) ∧
    (∃ (s : State) (i : Nat), s.taken i [0x14] = none) :=
  ⟨⟨{ live with ni := { rx := [(0, { early := [⟨{ mkPacket 0 1 2 0 0 0 [] with reliable := true }, 3, [], 0⟩] })] } }, 0, _, (rfl),
    by decide⟩,
   ⟨{ live with ni := { rx := [(0, { early := [⟨{ mkPacket 0 1 2 0 0 0 [] with reliable := false }, 3, [], 0⟩] })] } }, 0, _,
    (rfl), by decide⟩,
   ⟨live, 0, by decide⟩,
   ⟨arrived (mkPacket 0 0x14 1 0 0 0 [0, 0, 0, 0]) 3, 0, _, (rfl)⟩,
   ⟨{ live with ni := { rx := [(streamKey 5 1 0 0, { reliables := 1 })] }, fab := { node := 0, ports := [(3, { state := .up })], niMember := [(5, 0x63), (261, 0x63)] } },
    streamKey 5 1 0 0, 3, false, by decide, by decide, (by decide +kernel)⟩,
   ⟨live, 0, by decide, by decide⟩,
   ⟨{ live with ni := { tx := [(0, { unacked := [⟨mkPacket 0 1 2 0 0 0 [], [], 0, 1, none⟩] })] } }, 0, by decide, by decide⟩,
   ⟨live, 0, by decide⟩,
   ⟨{ live with ni := { tx := [(0, { unacked := [⟨mkPacket 0 1 0 0 0 0 [], [], 0, 1, none⟩], runs := 16 })], requests := [(4, ⟨0, 0, 0, 0, 0, 1, 0, .write, .action 0, 0⟩)] } },
    0, 4, _, _, (rfl), by decide, (rfl)⟩,
   ⟨{ acting { actionOf 0x28 0 [] with perm := some perm0 } with ni := { actions := [(0, { actionOf 0x28 0 [] with perm := some perm0 })], tx := [(0, { unacked := [⟨mkPacket 0 1 0 0 0 0 [], [], 0, 1, some (.action 0)⟩], runs := 16 })] } },
    0, 0, _, _, _, (rfl), by decide, (fun _ h => nomatch h), (rfl), (rfl), (rfl)⟩,
   ⟨.reset, 0, by decide⟩⟩

theorem witness_HomesServeRequests :
    (∃ (s : State) (i : Nat), s.taken i [1] = none) ∧
    (∃ (s : State) (i : Nat), s.taken i [3] = none) ∧
    (∃ (s : State) (i : Nat), s.taken i [5] = none) ∧
    (∃ (s : State) (i : Nat), s.taken i [7] = none) ∧
    (∃ (s : State) (p : Packet), s.windowAt (p.tag % 4096) = none) ∧
    (∃ (s : State) (p : Packet), ∃ w, s.windowAt (p.tag % 4096) = some w ∧ (w.v = false ∨ w.key ≠ p.tag)) ∧
    (∃ (s : State) (p : Packet), ∃ w, s.windowAt (p.tag % 4096) = some w ∧ w.v = true ∧ w.key = p.tag ∧
     (s.epochOf w.seat ≠ p.epoch ∨ s.seat? w.seat = none)) ∧
    (∃ (s : State) (p : Packet), ∃ w, s.windowAt (p.tag % 4096) = some w ∧ w.v = true ∧ w.key = p.tag ∧ s.epochOf w.seat = p.epoch ∧
     (s.seat? w.seat).isSome = true ∧
     let allowed := if p.type = 1 then w.rd else if p.type = 3 then w.wr else if p.type = 5 then w.at_ else w.tx;
     (p.src &&& w.srcMask ≠ w.srcMatch ∨ allowed = false)) ∧
    (∃ (s : State) (p : Packet), ∃ w, s.windowAt (p.tag % 4096) = some w ∧ w.v = true ∧ w.key = p.tag ∧ s.epochOf w.seat = p.epoch ∧
     (s.seat? w.seat).isSome = true ∧
     let allowed := if p.type = 1 then w.rd else if p.type = 3 then w.wr else if p.type = 5 then w.at_ else w.tx;
     let fits := opHeaderOk p.type p.payload && decide (ohOffset p.payload + opBytes p.type p.payload ≤ w.size);
     p.src &&& w.srcMask = w.srcMatch ∧ allowed = true ∧ fits = false) ∧
    (∃ (s : State) (p : Packet), ∃ w, s.windowAt (p.tag % 4096) = some w ∧ w.v = true ∧ w.key = p.tag ∧ s.epochOf w.seat = p.epoch ∧
     (s.seat? w.seat).isSome = true ∧
     let allowed := if p.type = 1 then w.rd else if p.type = 3 then w.wr else if p.type = 5 then w.at_ else w.tx;
     let fits := opHeaderOk p.type p.payload && decide (ohOffset p.payload + opBytes p.type p.payload ≤ w.size);
     p.src &&& w.srcMask = w.srcMatch ∧ allowed = true ∧ fits = true) ∧
    (∃ (s : State) (w : Nat), ∃ h, ∃ old, FMap.find? s.ni.windowsOld w = some (h, old) ∧ h = s.hcNow) ∧
    (∃ (s : State) (w : Nat), (∀ h old, FMap.find? s.ni.windowsOld w = some (h, old) → h ≠ s.hcNow)) ∧
    (∃ (s : State) (u : State) (i : Nat) (code : Nat) (c : Instr) (ty : Nat) (q : Inbound) (st : Status), (c, ty) ∈ [(Instr.read i,
     1), (.write i, 3), (.atomic i, 5)] ∧ s.taken i [ty] = some q ∧ s.windowCheck q.pkt = .error (st, code) ∧
     u = (s.dropTaken i true).count code none (streamHub q.pkt.src q.pkt.vl) 1) ∧
    (∃ (s : State) (i : Nat) (a : Nat) (n : Nat) (q : Inbound) (w : Window), s.taken i [1] = some q ∧ s.windowCheck q.pkt = .ok (w,
     a) ∧ n = ohLen q.pkt.payload ∧ ((∃ o ∈ s.ni.lineOps,
     o.line ∈ linesOf a n) ∨ s.streamIdle (packetFrom q.pkt w.seat true) = false)) ∧
    (∃ (s : State) (i : Nat) (a : Nat) (n : Nat) (q : Inbound) (w : Window), s.taken i [1] = some q ∧ s.windowCheck q.pkt = .ok (w,
     a) ∧ n = ohLen q.pkt.payload ∧ (∀ o ∈ s.ni.lineOps, o.line ∉ linesOf a n) ∧ s.streamIdle (packetFrom q.pkt w.seat true) = true) ∧
    (∃ (s : State) (i : Nat) (a : Nat) (n : Nat) (q : Inbound) (w : Window), s.taken i [3] = some q ∧ s.windowCheck q.pkt = .ok (w,
     a) ∧ n = ohLen q.pkt.payload ∧
     (s.homeFree (packetFrom q.pkt w.seat false) q.pkt.rxKey (homeHub a) = false ∨ s.lineRoom (linesOf a n) = false)) ∧
    (∃ (s : State) (i : Nat) (a : Nat) (n : Nat) (q : Inbound) (w : Window), s.taken i [3] = some q ∧ s.windowCheck q.pkt = .ok (w,
     a) ∧ n = ohLen q.pkt.payload ∧ s.homeFree (packetFrom q.pkt w.seat false) q.pkt.rxKey (homeHub a) = true ∧
     s.lineRoom (linesOf a n) = true) ∧
    (∃ (s : State) (i : Nat) (a : Nat) (q : Inbound) (w : Window), s.taken i [5] = some q ∧ s.windowCheck q.pkt = .ok (w, a) ∧
     q.pkt.bad ≠ []) ∧
    (∃ (s : State) (i : Nat) (a : Nat) (q : Inbound) (w : Window), s.taken i [5] = some q ∧ s.windowCheck q.pkt = .ok (w, a) ∧
     q.pkt.bad = [] ∧ (s.homeFree (packetFrom q.pkt w.seat true) q.pkt.rxKey (homeHub a) = false ∨ s.lineRoom [a / 64 * 64] = false)) ∧
    (∃ (s : State) (i : Nat) (a : Nat) (q : Inbound) (w : Window), s.taken i [5] = some q ∧ s.windowCheck q.pkt = .ok (w, a) ∧
     q.pkt.bad = [] ∧ s.homeFree (packetFrom q.pkt w.seat true) q.pkt.rxKey (homeHub a) = true ∧ s.lineRoom [a / 64 * 64] = true) ∧
    (∃ (s : State) (f : OpFrom) (a : Nat) (aop : Nat) (x : Nat) (fetch : Bool) (m : AddMember),
     m = { from_ := f, offset := a % 64, operand := x, width := aopWidth aop, fetch := fetch, hc := s.time / hcUnits } ∧ aop ≠ 1 ∧
     aop ≠ 2) ∧
    (∃ (s : State) (f : OpFrom) (a : Nat) (aop : Nat) (x : Nat) (fetch : Bool) (m : AddMember),
     m = { from_ := f, offset := a % 64, operand := x, width := aopWidth aop, fetch := fetch, hc := s.time / hcUnits } ∧
     (aop = 1 ∨ aop = 2) ∧ s.openGroup (a / 64 * 64) m = none) ∧
    (∃ (s : State) (f : OpFrom) (a : Nat) (aop : Nat) (x : Nat) (fetch : Bool) (m : AddMember),
     m = { from_ := f, offset := a % 64, operand := x, width := aopWidth aop, fetch := fetch, hc := s.time / hcUnits } ∧
     (aop = 1 ∨ aop = 2) ∧ ∃ j, ∃ o, ∃ ms, s.openGroup (a / 64 * 64) m = some (j, o, ms)) ∧
    (∃ (s : State) (line j : Nat) (m : AddMember) (o : LineOp) (ms : List AddMember), s.openGroup line m = some (j, o, ms)) ∧
    (∃ (s : State) (u : State) (i : Nat) (code : Nat) (q : Inbound) (f : OpFrom) (one : TxnPart) (held : List TxnPart),
     s.taken i [7] = some q ∧
     held = (FMap.get [] s.ni.txnParts q.pkt.rxKey).filter (fun h => (q.pkt.seq + 2 ^ 32 - h.seq) % 2 ^ 32 == ohPart q.pkt.payload - h.part && h.part < ohPart q.pkt.payload) ∧
     ((∃ st, s.windowCheck q.pkt = .error (st, code) ∧ f = packetFrom q.pkt 0 true ∧
     u = (s.dropTaken i true).count code none (streamHub q.pkt.src q.pkt.vl) 1 ∧
     one = { part := ohPart q.pkt.payload, line := 0, data := [], bad := [], seq := q.pkt.seq, status := some st }) ∨ (∃ w a,
     s.windowCheck q.pkt = .ok (w, a) ∧ f = packetFrom q.pkt w.seat true ∧ u = s.dropTaken i true ∧
     one = { part := ohPart q.pkt.payload, line := a, data := (q.pkt.payload.drop 16).take 64, bad := (badFrom q.pkt.bad 16 64).map (fun b => (b, 3)), seq := q.pkt.seq, status := none })) ∧
     let parts := ohParts q.pkt.payload; ohPart q.pkt.payload < parts) ∧
    (∃ (s : State) (u : State) (i : Nat) (code : Nat) (q : Inbound) (f : OpFrom) (one : TxnPart) (held : List TxnPart),
     s.taken i [7] = some q ∧
     held = (FMap.get [] s.ni.txnParts q.pkt.rxKey).filter (fun h => (q.pkt.seq + 2 ^ 32 - h.seq) % 2 ^ 32 == ohPart q.pkt.payload - h.part && h.part < ohPart q.pkt.payload) ∧
     ((∃ st, s.windowCheck q.pkt = .error (st, code) ∧ f = packetFrom q.pkt 0 true ∧
     u = (s.dropTaken i true).count code none (streamHub q.pkt.src q.pkt.vl) 1 ∧
     one = { part := ohPart q.pkt.payload, line := 0, data := [], bad := [], seq := q.pkt.seq, status := some st }) ∨ (∃ w a,
     s.windowCheck q.pkt = .ok (w, a) ∧ f = packetFrom q.pkt w.seat true ∧ u = s.dropTaken i true ∧
     one = { part := ohPart q.pkt.payload, line := a, data := (q.pkt.payload.drop 16).take 64, bad := (badFrom q.pkt.bad 16 64).map (fun b => (b, 3)), seq := q.pkt.seq, status := none })) ∧
     let all := held ++ [one];
     let parts := ohParts q.pkt.payload; parts ≤ ohPart q.pkt.payload ∧ ∃ st, all.findSome? (fun h => h.status) = some st) ∧
    (∃ (s : State) (u : State) (i : Nat) (code : Nat) (q : Inbound) (f : OpFrom) (one : TxnPart) (held : List TxnPart),
     s.taken i [7] = some q ∧
     held = (FMap.get [] s.ni.txnParts q.pkt.rxKey).filter (fun h => (q.pkt.seq + 2 ^ 32 - h.seq) % 2 ^ 32 == ohPart q.pkt.payload - h.part && h.part < ohPart q.pkt.payload) ∧
     ((∃ st, s.windowCheck q.pkt = .error (st, code) ∧ f = packetFrom q.pkt 0 true ∧
     u = (s.dropTaken i true).count code none (streamHub q.pkt.src q.pkt.vl) 1 ∧
     one = { part := ohPart q.pkt.payload, line := 0, data := [], bad := [], seq := q.pkt.seq, status := some st }) ∨ (∃ w a,
     s.windowCheck q.pkt = .ok (w, a) ∧ f = packetFrom q.pkt w.seat true ∧ u = s.dropTaken i true ∧
     one = { part := ohPart q.pkt.payload, line := a, data := (q.pkt.payload.drop 16).take 64, bad := (badFrom q.pkt.bad 16 64).map (fun b => (b, 3)), seq := q.pkt.seq, status := none })) ∧
     let all := held ++ [one];
     let parts := ohParts q.pkt.payload; parts ≤ ohPart q.pkt.payload ∧ (∀ h ∈ all, h.status = none) ∧ all.length ≠ parts + 1) ∧
    (∃ (s : State) (u : State) (i : Nat) (code : Nat) (q : Inbound) (f : OpFrom) (one : TxnPart) (held : List TxnPart),
     s.taken i [7] = some q ∧
     held = (FMap.get [] s.ni.txnParts q.pkt.rxKey).filter (fun h => (q.pkt.seq + 2 ^ 32 - h.seq) % 2 ^ 32 == ohPart q.pkt.payload - h.part && h.part < ohPart q.pkt.payload) ∧
     ((∃ st, s.windowCheck q.pkt = .error (st, code) ∧ f = packetFrom q.pkt 0 true ∧
     u = (s.dropTaken i true).count code none (streamHub q.pkt.src q.pkt.vl) 1 ∧
     one = { part := ohPart q.pkt.payload, line := 0, data := [], bad := [], seq := q.pkt.seq, status := some st }) ∨ (∃ w a,
     s.windowCheck q.pkt = .ok (w, a) ∧ f = packetFrom q.pkt w.seat true ∧ u = s.dropTaken i true ∧
     one = { part := ohPart q.pkt.payload, line := a, data := (q.pkt.payload.drop 16).take 64, bad := (badFrom q.pkt.bad 16 64).map (fun b => (b, 3)), seq := q.pkt.seq, status := none })) ∧
     let all := held ++ [one];
     let parts := ohParts q.pkt.payload; parts ≤ ohPart q.pkt.payload ∧ (∀ h ∈ all, h.status = none) ∧ all.length = parts + 1 ∧
       s.lineRoom (all.map (·.line)) = false) ∧
    (∃ (s : State) (u : State) (i : Nat) (code : Nat) (q : Inbound) (f : OpFrom) (one : TxnPart) (held : List TxnPart),
     s.taken i [7] = some q ∧
     held = (FMap.get [] s.ni.txnParts q.pkt.rxKey).filter (fun h => (q.pkt.seq + 2 ^ 32 - h.seq) % 2 ^ 32 == ohPart q.pkt.payload - h.part && h.part < ohPart q.pkt.payload) ∧
     ((∃ st, s.windowCheck q.pkt = .error (st, code) ∧ f = packetFrom q.pkt 0 true ∧
     u = (s.dropTaken i true).count code none (streamHub q.pkt.src q.pkt.vl) 1 ∧
     one = { part := ohPart q.pkt.payload, line := 0, data := [], bad := [], seq := q.pkt.seq, status := some st }) ∨ (∃ w a,
     s.windowCheck q.pkt = .ok (w, a) ∧ f = packetFrom q.pkt w.seat true ∧ u = s.dropTaken i true ∧
     one = { part := ohPart q.pkt.payload, line := a, data := (q.pkt.payload.drop 16).take 64, bad := (badFrom q.pkt.bad 16 64).map (fun b => (b, 3)), seq := q.pkt.seq, status := none })) ∧
     let all := held ++ [one];
     let parts := ohParts q.pkt.payload; parts ≤ ohPart q.pkt.payload ∧ (∀ h ∈ all, h.status = none) ∧ all.length = parts + 1 ∧
       s.lineRoom (all.map (·.line)) = true) ∧
    (∃ (s : State) (i : Nat), s.ni.lineOps[i]? = none) ∧
    (∃ (s : State) (i : Nat), ∃ o, s.ni.lineOps[i]? = some o ∧ s.opNext i o = false) ∧
    (∃ (s : State) (i : Nat) (o : LineOp), s.opNext i o = true) ∧
    (∃ (s : State) (i : Nat) (o : LineOp) (data : Bytes) (bad : List Nat), s.ni.lineOps[i]? = some o ∧ s.opNext i o = true ∧
     o.work = .write data bad) ∧
    (∃ (s : State) (i : Nat) (o : LineOp) (ms : List AddMember), s.ni.lineOps[i]? = some o ∧ s.opNext i o = true ∧ o.work = .adds ms) ∧
    (∃ (s : State) (i : Nat) (aop : Nat) (off : Nat) (x : Nat) (y : Nat) (fetch : Bool) (o : LineOp), s.ni.lineOps[i]? = some o ∧
     s.opNext i o = true ∧ o.work = .atomic aop off x y fetch) ∧
    (∃ (s : State) (i : Nat) (id : Nat) (o : LineOp), s.ni.lineOps[i]? = some o ∧ s.opNext i o = true ∧ o.work = .txn id ∧
     FMap.find? s.ni.txns id = none) ∧
    (∃ (s : State) (i : Nat) (id : Nat) (o : LineOp), s.ni.lineOps[i]? = some o ∧ s.opNext i o = true ∧ o.work = .txn id ∧ ∃ g,
     FMap.find? s.ni.txns id = some g ∧ (∃ h ∈ g.have_, ∀ p, s.ni.lineOps.find? (fun p => p.line == h.line) = some p →
     p.work ≠ .txn id)) ∧
    (∃ (s : State) (i : Nat) (id : Nat) (o : LineOp), s.ni.lineOps[i]? = some o ∧ s.opNext i o = true ∧ o.work = .txn id ∧ ∃ g,
     FMap.find? s.ni.txns id = some g ∧ (∀ h ∈ g.have_, ∃ p, s.ni.lineOps.find? (fun p => p.line == h.line) = some p ∧
     p.work = .txn id)) ∧
    (∃ (f : OpFrom), f.owner = none ∧ f.last = false) ∧
    (∃ (u : State) (f : OpFrom), f.owner = none ∧
     let k := streamKey f.src f.tc f.vl f.epoch;
     let r := u.rxStream k; f.last = true ∧ r.writes < 15) ∧
    (∃ (u : State) (f : OpFrom), f.owner = none ∧
     let k := streamKey f.src f.tc f.vl f.epoch;
     let r := u.rxStream k; f.last = true ∧ 15 ≤ r.writes) ∧
    (∃ (f : OpFrom) (w : Owner), f.owner = some w) ∧
    (∃ (s : State) (k : Nat), (s.rxStream k).writes = 0) ∧
    (∃ (s : State) (k : Nat), 0 < (s.rxStream k).writes) ∧
    (∃ n, ∃ old, ∃ x, ∃ y, (n ∈ [1, 2, 6, 7, 10, 11] ∨ (n ∈ [4, 5, 12, 13] ∧ old < 2 ^ 32 ∧ x < 2 ^ 32 ∧ y < 2 ^ 32) ∨ (n ∈ [8, 9] ∧
     old < 2 ^ 64 ∧ x < 2 ^ 64 ∧ y < 2 ^ 64))) ∧
    (∃ (b : Bytes), (ohAop b = 0 ∨ ohAop b = 15)) :=
  ⟨⟨.reset, 0, by decide⟩,
   ⟨.reset, 0, by decide⟩,
   ⟨.reset, 0, by decide⟩,
   ⟨.reset, 0, by decide⟩,
   ⟨seated goodSeat, requestPacket 1 (opHeader 0 63 0 false 0 0), by decide⟩,
   ⟨{ seated goodSeat with ni := { windows := [(7, { window7 with key := 8 })] } }, requestPacket 1 (opHeader 0 63 0 false 0 0), _,
    (rfl), (.inr (by decide))⟩,
   ⟨{ seated goodSeat with ni := { windows := [(7, { window7 with seat := 2 })] } }, requestPacket 1 (opHeader 0 63 0 false 0 0),
    _, (rfl), (rfl), (by decide +kernel), (.inr rfl)⟩,
   ⟨{ seated goodSeat with ni := { windows := [(7, { window7 with rd := false })] } }, requestPacket 1 (opHeader 0 63 0 false 0 0),
    _, (rfl), (rfl), (by decide +kernel), (by decide +kernel), (by decide +kernel), (.inr rfl)⟩,
   ⟨{ seated goodSeat with ni := { windows := [(7, window7)] } }, requestPacket 1 (opHeader 0x100000 63 0 false 0 0), _, (rfl),
    (rfl), (by decide +kernel), (by decide +kernel), (by decide +kernel), (by decide +kernel), (by decide +kernel),
    (by decide +kernel)⟩,
   ⟨{ seated goodSeat with ni := { windows := [(7, window7)] } }, requestPacket 1 (opHeader 0 63 0 false 0 0), _, (rfl), (rfl),
    (by decide +kernel), (by decide +kernel), (by decide +kernel), (by decide +kernel), (by decide +kernel), (by decide +kernel)⟩,
   ⟨{ live with ni := { windowsOld := [(7, (0, none))] } }, 7, _, _, (rfl), (rfl)⟩,
   ⟨live, 7, (fun _ _ h => nomatch h)⟩,
   ⟨{ seated goodSeat with ni := { inbox := [⟨requestPacket 1 (opHeader 0 63 0 false 0 0), 3, [], 0⟩] } }, _, 0, _, .read 0, 1, _,
    _, (.head _), (rfl), (rfl), (rfl)⟩,
   ⟨requested (requestPacket 1 (opHeader 0 63 0 false 0 0)) [⟨0x100000, origin5, .atomic 3 8 5 0 true, 0⟩], 0, 0x100000, _, _, _,
    (rfl), (rfl), (rfl), (.inl ⟨_, .head _, by decide +kernel⟩)⟩,
   ⟨requested (requestPacket 1 (opHeader 0 63 0 false 0 0)) [], 0, 0x100000, _, _, _, (rfl), (rfl), (rfl), (fun _ h => nomatch h),
    (by decide +kernel)⟩,
   ⟨requested (requestPacket 3 (opHeader 0 63 0 false 0 0 ++ List.replicate 64 7)) (List.replicate 1024 ⟨0x100000, origin5,
    .atomic 3 8 5 0 true, 0⟩), 0, 0x100000, _, _, _, (rfl), (rfl), (rfl), (.inr (by decide +kernel))⟩,
   ⟨requested (requestPacket 3 (opHeader 0 63 0 false 0 0 ++ List.replicate 64 7)) [], 0, 0x100000, _, _, _, (rfl), (rfl), (rfl),
    (by decide +kernel), (by decide +kernel)⟩,
   ⟨requested { (requestPacket 5 (opHeader 0 0 1 false 0 0 ++ natLe 16 3)) with bad := [20] } [], 0, 0x100000, _, _, (rfl), (rfl),
    (by decide +kernel)⟩,
   ⟨requested (requestPacket 5 (opHeader 0 0 1 false 0 0 ++ natLe 16 3)) (List.replicate 1024 ⟨0x100000, origin5,
    .atomic 3 8 5 0 true, 0⟩), 0, 0x100000, _, _, (rfl), (rfl), (rfl), (.inr (by decide +kernel))⟩,
   ⟨requested (requestPacket 5 (opHeader 0 0 1 false 0 0 ++ natLe 16 3)) [], 0, 0x100000, _, _, (rfl), (rfl), (rfl),
    (by decide +kernel), (by decide +kernel)⟩,
   ⟨seated goodSeat, origin5, 0x100008, 3, 5, true, _, (rfl), by decide, by decide⟩,
   ⟨seated goodSeat, origin5, 0x100008, 1, 5, false, _, (rfl), (.inl rfl), (by decide +kernel)⟩,
   ⟨lining [⟨0x100000, origin5, .adds [⟨origin5, 0, 5, 4, false, 0⟩], 0⟩], { origin5 with seq := 1 }, 0x100008, 1, 5, false, _,
    (rfl), (.inl rfl), 0, _, _, (rfl)⟩,
   ⟨lining [⟨0x100000, origin5, .adds [⟨origin5, 0, 5, 4, false, 0⟩], 0⟩], 0x100000, 0, ⟨{ origin5 with seq := 1 }, 0, 5, 4, false,
    0⟩, _, _, rfl⟩,
   ⟨requested (requestPacket 7 (opHeader 64 63 0 false 0 1 ++ List.replicate 64 7)) [], _, 0, 0, _, _, _, _, (rfl), (rfl),
    (.inr ⟨window7, 0x100040, rfl, rfl, rfl, rfl⟩), (by decide +kernel)⟩,
   ⟨{ seated goodSeat with ni := { inbox := [⟨requestPacket 7 (opHeader 64 63 0 false 0 0 ++ List.replicate 64 7), 3, [], 0⟩] } },
    _, 0, 0x9000, _, _, _, _, (rfl), (rfl), (.inl ⟨.keyDenied, rfl, rfl, rfl, rfl⟩), (by decide +kernel), .keyDenied,
    (by decide +kernel)⟩,
   ⟨requested (requestPacket 7 (opHeader 64 63 0 false 1 1 ++ List.replicate 64 7)) [], _, 0, 0, _, _, _, _, (rfl), (rfl),
    (.inr ⟨window7, 0x100040, rfl, rfl, rfl, rfl⟩), (by decide +kernel), (by decide +kernel), (by decide +kernel)⟩,
   ⟨requested (requestPacket 7 (opHeader 64 63 0 false 0 0 ++ List.replicate 64 7)) (List.replicate 1024 ⟨0x100040, origin5,
    .atomic 3 8 5 0 true, 0⟩), _, 0, 0, _, _, _, _, (rfl), (rfl), (.inr ⟨window7, 0x100040, rfl, rfl, rfl, rfl⟩),
    (by decide +kernel), (by decide +kernel), (by decide +kernel), (by decide +kernel)⟩,
   ⟨requested (requestPacket 7 (opHeader 64 63 0 false 0 0 ++ List.replicate 64 7)) [], _, 0, 0, _, _, _, _, (rfl), (rfl),
    (.inr ⟨window7, 0x100040, rfl, rfl, rfl, rfl⟩), (by decide +kernel), (by decide +kernel), (by decide +kernel),
    (by decide +kernel)⟩,
   ⟨.reset, 0, by decide⟩,
   ⟨lining [⟨0x100000, origin5, .write [] [], 0⟩, ⟨0x100000, { origin5 with seq := 1 }, .write [] [], 0⟩], 1, _, (rfl), by decide⟩,
   ⟨lining [⟨0x100000, origin5, .adds [⟨origin5, 0, 5, 4, false, 0⟩], 0⟩], 0, _, (rfl : _ = State.opNext _ 0 ⟨0x100000, origin5,
    .adds [⟨origin5, 0, 5, 4, false, 0⟩], 0⟩).symm⟩,
   ⟨lining [⟨0x100000, origin5, .write (List.replicate 64 7) [], 0⟩], 0, _, _, _, (rfl), (by decide +kernel), (rfl)⟩,
   ⟨lining [⟨0x100000, origin5, .adds [⟨origin5, 0, 5, 4, false, 0⟩], 0⟩], 0, _, _, (rfl), (by decide +kernel), (rfl)⟩,
   ⟨lining [⟨0x100000, origin5, .atomic 3 8 5 0 true, 0⟩], 0, _, _, _, _, _, _, (rfl), (by decide +kernel), (rfl)⟩,
   ⟨lining [⟨0x100000, origin5, .txn 3, 0⟩], 0, 3, _, (rfl), (by decide +kernel), (rfl), (rfl)⟩,
   ⟨{ lining [⟨0x100000, origin5, .txn 3, 0⟩] with ni := { lineOps := [⟨0x100000, origin5, .txn 3, 0⟩], txns := [(3, ⟨origin5, 1, [⟨0, 0x100040, [], [], 0, none⟩]⟩)] } },
    0, 3, _, (rfl), (by decide +kernel), (rfl), _, (rfl), (⟨_, .head _, fun _ h => nomatch h⟩)⟩,
   ⟨{ lining [⟨0x100000, origin5, .txn 3, 0⟩] with ni := { lineOps := [⟨0x100000, origin5, .txn 3, 0⟩], txns := [(3, ⟨origin5, 1, [⟨0, 0x100000, [], [], 0, none⟩]⟩)] } },
    0, 3, _, (rfl), (by decide +kernel), (rfl), _, (rfl), (fun h hh => by rw [List.mem_singleton.mp hh]; exact ⟨_, rfl, rfl⟩)⟩,
   ⟨{ origin5 with last := false }, (rfl), by decide⟩,
   ⟨live, origin5, (rfl), (rfl), by decide⟩,
   ⟨{ live with ni := { rx := [(streamKey 5 2 0 0, { writes := 15 })] } }, origin5, (rfl), (rfl), by decide⟩,
   ⟨{ origin5 with owner := some (.action 0) }, _, (rfl)⟩,
   ⟨live, 0, by decide⟩,
   ⟨{ live with ni := { rx := [(streamKey 5 2 0 0, { writes := 1 })] } }, streamKey 5 2 0 0, by decide⟩,
   ⟨12, 0, 4294967295, 1, (.inr (.inl (by decide)))⟩,
   ⟨[], by decide⟩⟩

theorem witness_ResponsesEndRequests :
    (∃ (s : State) (i : Nat) (ty : Nat) (c : Instr), (c, ty) ∈ [(Instr.readData i, 2), (.writeAck i, 4), (.atomicData i, 6),
     (.txnDone i, 8), (.status i, 9)] ∧ s.taken i [ty] = none) ∧
    (∃ (s : State) (i : Nat) (ty : Nat) (c : Instr) (q : Inbound), (c, ty) ∈ [(Instr.readData i, 2), (.atomicData i, 6),
     (.txnDone i, 8), (.status i, 9)] ∧ s.taken i [ty] = some q ∧ s.requestOf q.pkt = none) ∧
    (∃ (s : State) (i : Nat) (ty : Nat) (c : Instr) (q : Inbound), (c, ty) ∈ [(Instr.readData i, 2), (.atomicData i, 6),
     (.txnDone i, 8), (.status i, 9)] ∧ s.taken i [ty] = some q ∧ ∃ rid, ∃ r, s.requestOf q.pkt = some (rid, r) ∧
     (s.epochOf r.seat ≠ q.pkt.epoch ∨ s.seat? r.seat = none) ∧ (ty = 2 → s.landHeld r.owner = false)) ∧
    (∃ (s : State) (p : Packet) (rid : Nat) (r : Request), s.requestOf p = some (rid, r)) ∧
    (∃ (s : State) (i : Nat) (rid : Nat) (q : Inbound) (r : Request), s.taken i [2] = some q ∧ s.requestOf q.pkt = some (rid, r) ∧
     FMap.find? s.ni.requests rid = some r ∧ s.landHeld r.owner = true) ∧
    (∃ (s : State) (i : Nat) (rid : Nat) (q : Inbound) (r : Request), s.taken i [2] = some q ∧ s.requestOf q.pkt = some (rid, r) ∧
     FMap.find? s.ni.requests rid = some r ∧ s.landHeld r.owner = false ∧ s.epochOf r.seat = q.pkt.epoch ∧
     (s.seat? r.seat).isSome = true ∧ ∃ land, r.kind = .read land) ∧
    (∃ (s : State) (i : Nat) (rid : Nat) (q : Inbound) (r : Request), s.taken i [2] = some q ∧ s.requestOf q.pkt = some (rid, r) ∧
     FMap.find? s.ni.requests rid = some r ∧ s.landHeld r.owner = false ∧ s.epochOf r.seat = q.pkt.epoch ∧
     (s.seat? r.seat).isSome = true ∧ (∀ land, r.kind ≠ .read land)) ∧
    (∃ (r : Request), (∀ m, r.owner ≠ .mirror m)) ∧
    (∃ (s : State) (i : Nat) (rid : Nat) (q : Inbound) (r : Request), s.taken i [6] = some q ∧ s.requestOf q.pkt = some (rid, r) ∧
     FMap.find? s.ni.requests rid = some r ∧ s.epochOf r.seat = q.pkt.epoch ∧ (s.seat? r.seat).isSome = true) ∧
    (∃ (s : State) (i : Nat) (rid : Nat) (q : Inbound) (r : Request), s.taken i [8] = some q ∧ s.requestOf q.pkt = some (rid, r) ∧
     FMap.find? s.ni.requests rid = some r ∧ s.epochOf r.seat = q.pkt.epoch ∧ (s.seat? r.seat).isSome = true) ∧
    (∃ (s : State) (i : Nat) (rid : Nat) (q : Inbound) (r : Request), s.taken i [9] = some q ∧ s.requestOf q.pkt = some (rid, r) ∧
     FMap.find? s.ni.requests rid = some r ∧ s.epochOf r.seat = q.pkt.epoch ∧ (s.seat? r.seat).isSome = true) ∧
    (∃ (s : State) (u : State) (i : Nat) (q : Inbound) (mine : List (Nat × Request)), s.taken i [4] = some q ∧
     mine = s.ni.requests.filter (fun kr => decide (kr.2.kind = .write) && kr.2.dst == q.pkt.src && kr.2.tc == q.pkt.tc && kr.2.vl == q.pkt.vl && kr.2.epoch == q.pkt.epoch && (kr.2.seq == q.pkt.tag || seqBefore kr.2.seq q.pkt.tag)) ∧
     let k := q.pkt.rxKey;
     let x := (s.dropTaken i true).txStream k;
     let left := x.unacked.filter (fun y => !(y.pkt.type == 3 && (y.pkt.seq == q.pkt.tag || seqBefore y.pkt.seq q.pkt.tag)));
     u = (s.dropTaken i true).setTx k { x with unacked := left, runs := if left.length = x.unacked.length then x.runs else 0 } ∧
     mine = []) ∧
    (∃ (s : State) (u : State) (i : Nat) (q : Inbound) (mine : List (Nat × Request)), s.taken i [4] = some q ∧
     mine = s.ni.requests.filter (fun kr => decide (kr.2.kind = .write) && kr.2.dst == q.pkt.src && kr.2.tc == q.pkt.tc && kr.2.vl == q.pkt.vl && kr.2.epoch == q.pkt.epoch && (kr.2.seq == q.pkt.tag || seqBefore kr.2.seq q.pkt.tag)) ∧
     let k := q.pkt.rxKey;
     let x := (s.dropTaken i true).txStream k;
     let left := x.unacked.filter (fun y => !(y.pkt.type == 3 && (y.pkt.seq == q.pkt.tag || seqBefore y.pkt.seq q.pkt.tag)));
     u = (s.dropTaken i true).setTx k { x with unacked := left, runs := if left.length = x.unacked.length then x.runs else 0 } ∧
     ∃ rid, ∃ r, mine = [(rid, r)] ∧ FMap.find? s.ni.requests rid = some r ∧ s.epochOf r.seat ≠ q.pkt.epoch) ∧
    (∃ (s : State) (u : State) (i : Nat) (q : Inbound) (mine : List (Nat × Request)), s.taken i [4] = some q ∧
     mine = s.ni.requests.filter (fun kr => decide (kr.2.kind = .write) && kr.2.dst == q.pkt.src && kr.2.tc == q.pkt.tc && kr.2.vl == q.pkt.vl && kr.2.epoch == q.pkt.epoch && (kr.2.seq == q.pkt.tag || seqBefore kr.2.seq q.pkt.tag)) ∧
     let k := q.pkt.rxKey;
     let x := (s.dropTaken i true).txStream k;
     let left := x.unacked.filter (fun y => !(y.pkt.type == 3 && (y.pkt.seq == q.pkt.tag || seqBefore y.pkt.seq q.pkt.tag)));
     u = (s.dropTaken i true).setTx k { x with unacked := left, runs := if left.length = x.unacked.length then x.runs else 0 } ∧
     ∃ rid, ∃ r, mine = [(rid, r)] ∧ FMap.find? s.ni.requests rid = some r ∧ s.epochOf r.seat = q.pkt.epoch) ∧
    (∃ (s : State) (u : State) (i : Nat) (q : Inbound) (mine : List (Nat × Request)), s.taken i [4] = some q ∧
     mine = s.ni.requests.filter (fun kr => decide (kr.2.kind = .write) && kr.2.dst == q.pkt.src && kr.2.tc == q.pkt.tc && kr.2.vl == q.pkt.vl && kr.2.epoch == q.pkt.epoch && (kr.2.seq == q.pkt.tag || seqBefore kr.2.seq q.pkt.tag)) ∧
     let k := q.pkt.rxKey;
     let x := (s.dropTaken i true).txStream k;
     let left := x.unacked.filter (fun y => !(y.pkt.type == 3 && (y.pkt.seq == q.pkt.tag || seqBefore y.pkt.seq q.pkt.tag)));
     u = (s.dropTaken i true).setTx k { x with unacked := left, runs := if left.length = x.unacked.length then x.runs else 0 } ∧
     mine ≠ []) ∧
    (∃ (s : State) (rid : Nat), FMap.find? s.ni.requests rid = none) ∧
    (∃ (s : State) (rid : Nat), ∃ r, FMap.find? s.ni.requests rid = some r ∧ r.tc ≠ 2) ∧
    (∃ (s : State) (rid : Nat), ∃ r, FMap.find? s.ni.requests rid = some r ∧ r.tc = 2) ∧
    (∃ (u : State) (k : Nat),
     let r := u.rxStream k; r.reliables < 16 ∧ r.duplicate = false) ∧
    (∃ (u : State) (k : Nat),
     let r := u.rxStream k; (16 ≤ r.reliables ∨ r.duplicate = true) ∧ ∃ p, ∃ d, keyNode k ≠ u.fab.node ∧
     let x : Packet := { mkPacket (keyNode k) 0x14 (keyTc k) (keyVl k) (u.appliedSeq k) (keyEpoch k) (natLe 4 r.reliables ++ List.replicate 12 0) with src := u.fab.node };
     u.chooseRoute (u.routeEntry 24 (streamHub (keyNode k) (keyVl k)) (keyNode k)) 24 (streamHub (keyNode k) (keyVl k)) x = some (p,
     d)) :=
  ⟨⟨live, 0, 2, .readData 0, (.head _), by decide⟩,
   ⟨answered (.read [(0x3000, 2)]) (mkPacket 0 2 2 0 8 0 [1, 2]), 0, 2, .readData 0, _, (.head _), (rfl), (rfl)⟩,
   ⟨{ answered (.read [(0x3000, 2)]) (mkPacket 0 2 2 0 9 0 [1, 2]) with seats := [(1, { goodSeat with epoch := 1 })] }, 0, 2,
    .readData 0, _, (.head _), (rfl), _, _, (rfl), (.inl (by decide +kernel)), (fun _ => rfl)⟩,
   ⟨answered (.read [(0x3000, 2)]) (mkPacket 0 2 2 0 9 0 [1, 2]), { mkPacket 0 2 2 0 9 0 [1, 2] with src := 5 }, 4, _, (rfl)⟩,
   ⟨{ seated goodSeat with ni := { inbox := [⟨{ mkPacket 0 2 2 0 9 0 [1, 2] with src := 5 }, 3, [], 0⟩], requests := [(4, ⟨5, 2, 0, 0, 9, 1, 0, .read [(0x3000, 2)], .ctx 0 0, 0⟩)] }, tiles := [(0, { ctxs := ctxOf { begun (descOf 5 []) with inbound := true, order := 1 } .parked :: ctxOf { begun (descOf 5 []) with inbound := true } .parked :: List.replicate 6 {}, last := 0 })] },
    0, 4, _, _, (rfl), (rfl), (rfl), (by decide +kernel)⟩,
   ⟨answered (.read [(0x3000, 2)]) (mkPacket 0 2 2 0 9 0 [1, 2]), 0, 4, _, _, (rfl), (rfl), (rfl), (rfl), (rfl), (rfl), _, (rfl)⟩,
   ⟨answered .write (mkPacket 0 2 2 0 9 0 [1, 2]), 0, 4, _, _, (rfl), (rfl), (rfl), (rfl), (rfl), (rfl), (fun _ h => nomatch h)⟩,
   ⟨⟨5, 2, 0, 0, 9, 1, 0, .read [(0x3000, 2)], .action 0, 0⟩, (fun _ h => nomatch h)⟩,
   ⟨answered .atomic (mkPacket 0 6 2 0 9 0 (List.replicate 8 1)), 0, 4, _, _, (rfl), (rfl), (rfl), (rfl), (rfl)⟩,
   ⟨answered .txn (mkPacket 0 8 2 0 9 0 (List.replicate 8 1)), 0, 4, _, _, (rfl), (rfl), (rfl), (rfl), (rfl)⟩,
   ⟨answered .write (mkPacket 0 9 2 0 9 0 (natLe 2 (statusCode .keyDenied))), 0, 4, _, _, (rfl), (rfl), (rfl), (rfl), (rfl)⟩,
   ⟨answered .txn (mkPacket 0 4 2 0 9 0 (natLe 4 1)), _, 0, _, _, (rfl), (rfl), (rfl), (rfl)⟩,
   ⟨{ answered .write (mkPacket 0 4 2 0 9 0 (natLe 4 1)) with seats := [(1, { goodSeat with epoch := 1 })] }, _, 0, _, _, (rfl),
    (rfl), (rfl), 4, _, (rfl), (rfl), (by decide +kernel)⟩,
   ⟨answered .write (mkPacket 0 4 2 0 9 0 (natLe 4 1)), _, 0, _, _, (rfl), (rfl), (rfl), 4, _, (rfl), (rfl), (rfl)⟩,
   ⟨answered .write (mkPacket 0 4 2 0 9 0 (natLe 4 1)), _, 0, _, _, (rfl), (rfl), (rfl), (fun h => nomatch h)⟩,
   ⟨live, 4096, by decide⟩,
   ⟨{ answered .write (mkPacket 0 4 2 0 9 0 []) with ni := { requests := [(4, ⟨5, 3, 0, 0, 9, 1, 0, .write, .action 0, 0⟩)] } }, 4,
    _, (rfl), by decide⟩,
   ⟨answered .write (mkPacket 0 4 2 0 9 0 []), 4, _, (rfl), by decide⟩,
   ⟨live, 4096, by decide, by decide⟩,
   ⟨{ live with ni := { rx := [(streamKey 5 2 0 0, { duplicate := true })] }, fab := { node := 0, ports := [(3, { state := .up })], niMember := [(5, 0x63), (261, 0x63)] } },
    streamKey 5 2 0 0, (.inr (by decide +kernel)), 3, false, (by decide +kernel), (by decide +kernel)⟩⟩

theorem witness_MemoryControllersKeepData :
    (∃ (s : State) (st : Nat), (32 ≤ st ∨ (s.stack st).demand = true ∨ (s.stack st).withdrawn = true ∨ s.mod.dawnDone = false)) ∧
    (∃ (s : State) (st : Nat), st < 32 ∧ (s.stack st).demand = false ∧ (s.stack st).withdrawn = false ∧ s.mod.dawnDone = true) ∧
    (∃ (x : Stack) (now : Nat), x.arrivedMc ≠ now / mcUnits) ∧
    (∃ (x : Stack) (now : Nat), x.arrivedMc = now / mcUnits) ∧
    (∃ (c : Nat) (n : Nat) (w : HbmWant), w.need = [(c, n)]) ∧
    (∃ mc, mc < 1024) ∧
    (∃ (a : Nat) (n : Nat), (n = 0 ∨ hbmEnd < a + n ∨ regionOf a ≠ regionOf (a + n - 1))) ∧
    (∃ (a : Nat) (n : Nat), 0 < n ∧ a + n ≤ hbmEnd ∧ regionOf a = regionOf (a + n - 1)) ∧
    (∃ (s : State) (st : Nat), (32 ≤ st ∨ (s.stack st).withdrawn = true ∨ (s.stack st).trained = false)) ∧
    (∃ (s : State) (st : Nat), st < 32 ∧ (s.stack st).withdrawn = false ∧ (s.stack st).trained = true ∧
     (s.stack st).scrubAt < regionBytes / 128) ∧
    (∃ (region : Nat), region < 16) ∧
    (∃ (s : State), FMap.risingFrom s.ctrs.bw 0 = true) ∧
    (∃ (s : State) (n : Nat) (x : Seat) (y : Seat) (b : Bytes), s.seat? n = some x ∧ x.snap.time ≠ 0 ∧ s.tk.held = true ∧
     x.snap.time ≤ s.sysTime ∧ FMap.risingFrom s.seats 0 = true ∧
     y = { x with pmc := x.pmc.latch s.time s.beat x.snap.late, snap := { x.snap with time := 0, late := false } } ∧
     b = (s.setSeat n y).snapBytes y ((s.setSeat n y).sections n y none) y.pmc.snapSeq.toNat false true x.snap.late) ∧
    (∃ (s : State) (n : Nat), (∀ x, s.seat? n = some x → x.snap.time = 0 ∨ s.tk.held = false ∨ s.sysTime < x.snap.time)) :=
  ⟨⟨live, 4096, by decide⟩,
   ⟨live, 31, by decide, by decide, by decide, by decide⟩,
   ⟨{ arrivedMc := 1 }, 0, (by decide +kernel)⟩,
   ⟨{ arrivedMc := 1 }, 18, (by decide +kernel)⟩,
   ⟨0, 1, ⟨0, [(0, 1)], false⟩, (rfl)⟩,
   ⟨0, (by decide +kernel)⟩,
   ⟨0, 0, (.inl rfl)⟩,
   ⟨0, 1, (by decide +kernel), (by decide +kernel), (by decide +kernel)⟩,
   ⟨live, 0, by decide⟩,
   ⟨{ live with units := { hbmStacks := [(31, { trained := true })] } }, 31, by decide, by decide, by decide, by decide⟩,
   ⟨0, by decide⟩,
   ⟨live, by decide⟩,
   ⟨{ seated { goodSeat with snap := { time := 1 } } with tk := { held := true, base := 1 } }, 1, _, _, _, (rfl),
    (by decide +kernel), (rfl), (by decide +kernel), (rfl), (rfl), (rfl)⟩,
   ⟨seated goodSeat, 1, (fun _ h => .inl (by cases h; rfl))⟩⟩

theorem witness_FlashFillsRun :
    (∃ (s : State) (T : Nat) (c : Nat), (T, c) ∉ s.flash.asks) ∧
    (∃ (s : State) (T : Nat) (c : Nat), (T, c) ∈ s.flash.asks ∧ s.inExec T c 6 = none) ∧
    (∃ (s : State) (u : State) (T : Nat) (c : Nat) (v : DescEnv) (e : Exec) (here : FMap Fill), (T, c) ∈ s.flash.asks ∧
     s.inExec T c 6 = some (v, e) ∧ here = s.fillsOf (s.tileHub T) ∧
     u = { s with flash := { s.flash with asks := s.flash.asks.erase (T, c) } } ∧ ∃ st, s.fillCheck v.seat e.desc = some st) ∧
    (∃ (s : State) (u : State) (T : Nat) (c : Nat) (v : DescEnv) (e : Exec) (here : FMap Fill), (T, c) ∈ s.flash.asks ∧
     s.inExec T c 6 = some (v, e) ∧ here = s.fillsOf (s.tileHub T) ∧
     u = { s with flash := { s.flash with asks := s.flash.asks.erase (T, c) } } ∧ s.fillCheck v.seat e.desc = none ∧
     (256 ≤ here.length ∨ 64 ≤ (here.filter (fun (kf : Nat × Fill) => kf.2.seat == v.seatNo)).length)) ∧
    (∃ (s : State) (u : State) (T : Nat) (c : Nat) (v : DescEnv) (e : Exec) (here : FMap Fill), (T, c) ∈ s.flash.asks ∧
     s.inExec T c 6 = some (v, e) ∧ here = s.fillsOf (s.tileHub T) ∧
     u = { s with flash := { s.flash with asks := s.flash.asks.erase (T, c) } } ∧ s.fillCheck v.seat e.desc = none ∧
     here.length < 256 ∧ (here.filter (fun (kf : Nat × Fill) => kf.2.seat == v.seatNo)).length < 64) ∧
    (∃ (s : State), s.flash.available = false) ∧
    (∃ (s : State) (x : Seat), s.flash.available = true ∧ x.ns = none) ∧
    (∃ (s : State) (x : Seat) (d : Bytes), ∃ ns, ∃ rw, s.flash.available = true ∧ x.ns = some (ns, rw) ∧
     (s.nsBytes ns < smSrc d + smLen d ∨ s.fillUnits x (smToSlot d) (smDst d) (smLen d) = none)) ∧
    (∃ (s : State) (x : Seat) (d : Bytes), ∃ ns, ∃ rw, s.flash.available = true ∧ x.ns = some (ns, rw) ∧
     smSrc d + smLen d ≤ s.nsBytes ns ∧ (s.fillUnits x (smToSlot d) (smDst d) (smLen d)).isSome = true) ∧
    (∃ (s : State) (hub : Nat), s.nextFillOf hub = none) ∧
    (∃ (s : State) (hub : Nat) (id : Nat) (x : Fill), s.nextFillOf hub = some (id, x)) ∧
    (∃ (s : State) (hub : Nat) (id : Nat) (n : Nat) (x : Fill), s.nextFillOf hub = some (id, x) ∧
     FMap.find? s.flash.fills id = some x ∧ n = min (x.places.length - x.next) (56 - x.unit x.next % 56) ∧ (∀ i, x.next ≤ i →
     i < x.next + n → landsAt s (x.places.getD i 0)) ∧ (∀ i j, x.next ≤ i → i < j → j < x.next + n →
     x.places.getD i 0 + 4096 ≤ x.places.getD j 0 ∨ x.places.getD j 0 + 4096 ≤ x.places.getD i 0)) ∧
    (∃ (s : State) (k : Nat), FMap.find? s.flash.units k = none) ∧
    (∃ (s : State) (k : Nat) (w : UnitWork), FMap.find? s.flash.units k = some w ∧ FMap.find? s.flash.fills w.fill = none) ∧
    (∃ (s : State) (k : Nat) (w : UnitWork) (x : Fill), FMap.find? s.flash.units k = some w ∧
     FMap.find? s.flash.fills w.fill = some x ∧ 5 ≤ w.step) ∧
    (∃ (s : State) (k : Nat) (w : UnitWork) (x : Fill) (r : Recovery), FMap.find? s.flash.units k = some w ∧
     FMap.find? s.flash.fills w.fill = some x ∧
     let a := x.places.getD w.index 0; w.step < 4 ∧ r.recovered = true ∧ landsAt s a) ∧
    (∃ (s : State) (k : Nat) (w : UnitWork) (x : Fill) (r : Recovery), FMap.find? s.flash.units k = some w ∧
     FMap.find? s.flash.fills w.fill = some x ∧ w.step < 4 ∧ r.recovered = false) ∧
    (∃ (s : State) (k : Nat) (w : UnitWork) (x : Fill) (r : Recovery), FMap.find? s.flash.units k = some w ∧
     FMap.find? s.flash.fills w.fill = some x ∧
     let a := x.places.getD w.index 0;
     let n := x.unit w.index;
     let ch := dataChannel (n % 56 / 4);
     let absent := match FMap.find? s.flash.nand w.place with | some z => z.absent | none => [];
     let missing := (List.range 16).filter (fun c => c == ch || r.bad.contains c || absent.contains c || s.flash.pageGone w.place c);
     w.step = 4 ∧ missing.length ≤ 2 ∧ landsAt s a) ∧
    (∃ (s : State) (k : Nat) (w : UnitWork) (x : Fill) (r : Recovery), FMap.find? s.flash.units k = some w ∧
     FMap.find? s.flash.fills w.fill = some x ∧
     let n := x.unit w.index;
     let ch := dataChannel (n % 56 / 4);
     let absent := match FMap.find? s.flash.nand w.place with | some z => z.absent | none => [];
     let missing := (List.range 16).filter (fun c => c == ch || r.bad.contains c || absent.contains c || s.flash.pageGone w.place c);
     w.step = 4 ∧ 2 < missing.length) ∧
    (∃ (s : State) (k : Nat) (w : UnitWork) (x : Fill), FMap.find? s.flash.units k = some w ∧
     FMap.find? s.flash.fills w.fill = some x ∧ (w.step ≠ 5 ∨ s.owned (.mirror k) = true)) ∧
    (∃ (s : State) (k : Nat) (w : UnitWork) (x : Fill), FMap.find? s.flash.units k = some w ∧
     FMap.find? s.flash.fills w.fill = some x ∧ w.step ≠ 5) ∧
    (∃ (s : State) (k : Nat) (w : UnitWork) (x : Fill), FMap.find? s.flash.units k = some w ∧
     FMap.find? s.flash.fills w.fill = some x ∧
     let a := x.places.getD w.index 0; ∃ b, w.step = 5 ∧ s.owned (.mirror k) = false ∧ FMap.find? s.flash.mirrorFailed k = none ∧
       FMap.get [] s.flash.mirrorBytes k = b ∧ landsAt s a) ∧
    (∃ (s : State) (k : Nat) (w : UnitWork) (x : Fill), FMap.find? s.flash.units k = some w ∧
     FMap.find? s.flash.fills w.fill = some x ∧
     let a := x.places.getD w.index 0; ∃ st, w.step = 5 ∧ s.owned (.mirror k) = false ∧
       FMap.find? s.flash.mirrorFailed k = some st ∧ landsAt s a) ∧
    (∃ (s : State) (k : Nat) (w : UnitWork) (x : Fill), FMap.find? s.flash.units k = some w ∧
     FMap.find? s.flash.fills w.fill = some x ∧
     let a := x.places.getD w.index 0; w.step = 5 ∧ landsAt s a) ∧
    (∃ (s : State) (id : Nat), FMap.find? s.flash.fills id = none) ∧
    (∃ (s : State) (id : Nat), ∃ x, FMap.find? s.flash.fills id = some x ∧ x.done < x.places.length) ∧
    (∃ (s : State) (u : State) (id : Nat) (x : Fill), FMap.find? s.flash.fills id = some x ∧ x.places.length ≤ x.done ∧
     u = (outcomeRuns x.outcomes).foldl (fun v r => v.flashEvent x r) s) ∧
    (∃ (m : FMap (Nat × Nat)) (a b : Nat × Nat × Nat × Nat) (l1 l2 : List (Nat × Nat × Nat × Nat)),
     outcomeRuns m = l1 ++ a :: b :: l2) ∧
    (∃ (s : State) (x : Fill), s.seat? x.seat = none) ∧
    (∃ (s : State) (x : Fill) (r : Nat × Nat × Nat × Nat),
     let ev := [BitVec.ofNat 8 r.2.2.1,
       (0 : Byte)] ++ natLe 2 r.2.2.2 ++ natLe 4 r.2.1 ++ natLe 8 (smSrc x.desc + 4096 * r.1) ++ natLe 8 (smDst x.desc + 4096 * r.1) ++ natLe 8 x.turn;
     ∃ q, s.seat? x.seat = some q ∧ s.ringAppend x.seat q q.areas.event ev = none) ∧
    (∃ (s : State) (x : Fill) (r : Nat × Nat × Nat × Nat),
     let ev := [BitVec.ofNat 8 r.2.2.1,
       (0 : Byte)] ++ natLe 2 r.2.2.2 ++ natLe 4 r.2.1 ++ natLe 8 (smSrc x.desc + 4096 * r.1) ++ natLe 8 (smDst x.desc + 4096 * r.1) ++ natLe 8 x.turn;
     ∃ q, s.seat? x.seat = some q ∧ ∃ v, s.ringAppend x.seat q q.areas.event ev = some v) :=
  ⟨⟨live, 0, 0, by decide⟩,
   ⟨{ live with flash := { asks := [(0, 0)] } }, 0, 0, (.head _), (rfl)⟩,
   ⟨{ executing (descOf 6 []) with flash := { asks := [(0, 0)] } }, _, 0, 0, _, _, _, (.head _), (rfl), (rfl), (rfl), _, (rfl)⟩,
   ⟨streaming [(0, 0)] true, _, 0, 0, _, _, _, (.head _), (rfl), (rfl), (rfl), (rfl), (.inr (by decide +kernel))⟩,
   ⟨streaming [(0, 0)] false, _, 0, 0, _, _, _, (.head _), (rfl), (rfl), (rfl), (rfl), (by decide +kernel), (by decide +kernel)⟩,
   ⟨live, by decide⟩,
   ⟨{ live with flash := { available := true } }, {}, (rfl), (rfl)⟩,
   ⟨{ live with flash := { available := true } }, { ns := some (0, true) }, descOf 6 [(32, 4, 4096)], _, _, (rfl), (rfl),
    (.inl (by decide +kernel))⟩,
   ⟨streaming [] false, { goodSeat with ns := some (0, true) }, descOf 6 [(12, 1, 0), (24, 4, 0), (32, 4, 4096)], _, _, (rfl),
    (rfl), (by decide +kernel), (by decide +kernel)⟩,
   ⟨live, 0, by decide⟩,
   ⟨filling fill1 [] [], 0, 0, fill1, (rfl)⟩,
   ⟨filling fill1 [] [], 0, 0, _, _, (rfl), (rfl), (rfl), (by
  intro i _ h2
  have h3 : i < 1 := h2
  obtain rfl : i = 0 := by omega
  exact ⟨rfl, .inr (by decide +kernel), not_lost _ _ (by decide +kernel)⟩), (by
  intro i j _ h2 h3
  have h3 : j < 1 := h3
  omega)⟩,
   ⟨live, 0, by decide⟩,
   ⟨{ live with flash := { units := [(0, ⟨0, 0, 2, false, 0, []⟩)] } }, 0, _, (rfl), (rfl)⟩,
   ⟨filling { fill1 with next := 1 } [(0, ⟨0, 0, 5, false, 5, []⟩)] [(0, 5)], 0, _, _, (rfl), (rfl), (by decide +kernel)⟩,
   ⟨filling { fill1 with next := 1 } [(0, ⟨0, 0, 2, false, 5, []⟩)] [(0, 5)], 0, _, _, { recovered := true }, (rfl), (rfl),
    (by decide +kernel), (rfl), (⟨rfl, .inr (by decide +kernel), not_lost _ _ (by decide +kernel)⟩)⟩,
   ⟨filling { fill1 with next := 1 } [(0, ⟨0, 0, 2, false, 5, []⟩)] [(0, 5)], 0, _, _, { recovered := false }, (rfl), (rfl),
    (by decide +kernel), (rfl)⟩,
   ⟨filling { fill1 with next := 1 } [(0, ⟨0, 0, 4, false, 5, []⟩)] [(0, 5)], 0, _, _, { recovered := true }, (rfl), (rfl), (rfl),
    (by decide +kernel), (⟨rfl, .inr (by decide +kernel), not_lost _ _ (by decide +kernel)⟩)⟩,
   ⟨filling { fill1 with next := 1 } [(0, ⟨0, 0, 4, false, 5, []⟩)] [(0, 5)], 0, _, _, { recovered := true, bad := [1, 2, 3] },
    (rfl), (rfl), (rfl), (by decide +kernel)⟩,
   ⟨filling { fill1 with next := 1 } [(0, ⟨0, 0, 2, false, 5, []⟩)] [(0, 5)], 0, _, _, (rfl), (rfl), (.inl (by decide))⟩,
   ⟨filling { fill1 with next := 1 } [(0, ⟨0, 0, 2, false, 5, []⟩)] [(0, 5)], 0, _, _, (rfl), (rfl), (by decide +kernel)⟩,
   ⟨filling { fill1 with next := 1 } [(0, ⟨0, 0, 5, false, 5, []⟩)] [(0, 5)], 0, _, _, (rfl), (rfl), _, (rfl), (by decide +kernel),
    (rfl), (rfl), (⟨rfl, .inr (by decide +kernel), not_lost _ _ (by decide +kernel)⟩)⟩,
   ⟨{ filling { fill1 with next := 1 } [(0, ⟨0, 0, 5, false, 5, []⟩)] [(0, 5)] with flash := { (filling { fill1 with next := 1 } [(0, ⟨0, 0, 5, false, 5, []⟩)] [(0, 5)]).flash with mirrorFailed := [(0, .timeout)] } },
    0, _, _, (rfl), (rfl), _, (rfl), (by decide +kernel), (rfl), (⟨rfl, .inr (by decide +kernel),
    not_lost _ _ (by decide +kernel)⟩)⟩,
   ⟨filling { fill1 with next := 1 } [(0, ⟨0, 0, 5, false, 5, []⟩)] [(0, 5)], 0, _, _, (rfl), (rfl), (rfl), (⟨rfl,
    .inr (by decide +kernel), not_lost _ _ (by decide +kernel)⟩)⟩,
   ⟨live, 0, by decide⟩,
   ⟨filling fill1 [] [], 0, _, (rfl), (by decide +kernel)⟩,
   ⟨filling { fill1 with done := 1 } [] [], _, 0, _, (rfl), (by decide +kernel), (rfl)⟩,
   ⟨[(0, (2, 3)), (5, (2, 3))], _, _, [], _, rfl⟩,
   ⟨live, fill1, (rfl)⟩,
   ⟨{ evented with seats := [(1, goodSeat)] }, fill1, (0, 1, 2, 3), _, (rfl), (by decide +kernel)⟩,
   ⟨evented, fill1, (0, 1, 2, 3), _, (rfl), _, ((Option.some_get (by decide +kernel)).symm)⟩⟩

theorem witness_FlashMovesLoseNothing :
    (∃ (s : State) (ch : Nat), (s.flash.available = false ∨ 16 ≤ ch)) ∧
    (∃ (s : State) (ch : Nat) (b : Nat), FMap.get 0 s.flash.live.reads (blockKey ch b) < 8000000 ∧ blockKey ch b ∉ s.flash.moves) ∧
    (∃ (s : State) (ch : Nat) (b : Nat) (sb : Nat) (n : Nat), s.flash.available = true ∧ ch < 16 ∧ placesInOrder s ∧
     sb = s.flash.live.sbOf ch b ∧ (∀ key p, FMap.find? s.flash.live.map key = some p → (FMap.find? s.flash.nand p).isSome = true) ∧
     n = s.shareStripes (s.sbStripes sb)) ∧
    (∃ (s : State) (ch : Nat) (b : Nat) (sb : Nat) (n : Nat), s.flash.available = true ∧ ch < 16 ∧ placesInOrder s ∧
     sb = s.flash.live.sbOf ch b ∧ (∀ key p, FMap.find? s.flash.live.map key = some p → (FMap.find? s.flash.nand p).isSome = true) ∧
     n = s.shareStripes (s.sbStripes sb) ∧ (8000000 ≤ FMap.get 0 s.flash.live.reads (blockKey ch b) ∨ blockKey ch b ∈ s.flash.moves)) ∧
    (∃ (s : State) (ch : Nat) (b : Nat) (sb : Nat) (n : Nat), s.flash.available = true ∧ ch < 16 ∧ placesInOrder s ∧
     sb = s.flash.live.sbOf ch b ∧ (∀ key p, FMap.find? s.flash.live.map key = some p → (FMap.find? s.flash.nand p).isSome = true) ∧
     n = s.shareStripes (s.sbStripes sb)) ∧
    (∃ (s : State) (r : Nat), FMap.find? s.flash.repairs r = none) ∧
    (∃ (s : State) (r : Nat) (p : Repair), FMap.find? s.flash.repairs r = some p ∧
     (s.stripe? (unitKey p.ns p.unit) = none ∨ s.flashReadOnly = true)) ∧
    (∃ (s : State) (r : Nat) (p : Repair), FMap.find? s.flash.repairs r = some p ∧ (s.stripe? (unitKey p.ns p.unit)).isSome = true ∧
     s.flashReadOnly = false) :=
  ⟨⟨.reset, 4096, by decide⟩,
   ⟨.reset, 4096, 4096, by decide, by decide⟩,
   ⟨{ flashy with flash := { flashy.flash with moves := [blockKey 15 5] } }, 15, 5, _, _, (rfl), (by decide +kernel), (⟨rfl,
    (fun _ _ h => by simp [flashy, FMap.find?] at h), (fun _ _ _ h => by simp [flashy, FMap.find?] at h),
    (fun _ h => by rcases h with h | h <;> cases h), (fun _ _ h => by cases h)⟩), (rfl), (fun _ _ h => by cases h), (rfl)⟩,
   ⟨{ flashy with flash := { flashy.flash with moves := [blockKey 15 5] } }, 15, 5, _, _, (rfl), (by decide +kernel), (⟨rfl,
    (fun _ _ h => by simp [flashy, FMap.find?] at h), (fun _ _ _ h => by simp [flashy, FMap.find?] at h),
    (fun _ h => by rcases h with h | h <;> cases h), (fun _ _ h => by cases h)⟩), (rfl), (fun _ _ h => by cases h), (rfl),
    (.inr (by decide +kernel))⟩,
   ⟨{ flashy with flash := { flashy.flash with moves := [blockKey 15 5] } }, 15, 5, _, _, (rfl), (by decide +kernel), (⟨rfl,
    (fun _ _ h => by simp [flashy, FMap.find?] at h), (fun _ _ _ h => by simp [flashy, FMap.find?] at h),
    (fun _ h => by rcases h with h | h <;> cases h), (fun _ _ h => by cases h)⟩), (rfl), (fun _ _ h => by cases h), (rfl)⟩,
   ⟨.reset, 4096, by decide⟩,
   ⟨{ filling fill1 [] [] with flash := { (filling fill1 [] []).flash with repairs := [(0, ⟨0, 0, 0, [1]⟩)] } }, 0, _, (rfl),
    (.inl rfl)⟩,
   ⟨{ filling fill1 [] [(0, 5)] with flash := { (filling fill1 [] [(0, 5)]).flash with repairs := [(0, ⟨0, 0, 0, [1]⟩)] } }, 0, _,
    (rfl), (by decide +kernel), (not_read_only _ rfl)⟩⟩

theorem witness_FlashIsMaintained :
    (∃ (s : State) (ch : Nat), (s.flash.available = false ∨ 16 ≤ ch)) ∧
    (∃ (s : State) (ch : Nat) (b : Nat) (n : Nat) (each : Nat) (free : Bool), s.flash.available = true ∧ ch < 16 ∧
     n = (s.flash.nand.filter (fun (ps : Nat × NandStripe) => ps.1 / 1152 == s.flash.live.sbOf ch b)).length ∧
     each = (if s.flash.pressure.isSome then 3 else 31) ∧ free = (s.flash.fills.isEmpty || ch == 7 || ch == 15) ∧ free = false ∧
     FMap.get 0 s.flash.share ch < each * n) ∧
    (∃ (s : State) (ch : Nat) (b : Nat) (n : Nat) (each : Nat) (free : Bool), s.flash.available = true ∧ ch < 16 ∧
     n = (s.flash.nand.filter (fun (ps : Nat × NandStripe) => ps.1 / 1152 == s.flash.live.sbOf ch b)).length ∧
     each = (if s.flash.pressure.isSome then 3 else 31) ∧ free = (s.flash.fills.isEmpty || ch == 7 || ch == 15) ∧
     (free = true ∨ each * n ≤ FMap.get 0 s.flash.share ch)) ∧
    (∃ (ch : Nat), 16 ≤ ch) ∧
    (∃ (s : State) (ch : Nat) (o : Option Nat), ch < 16 ∧ o = none ∧ ch ∉ s.flash.failedChannels) ∧
    (∃ (s : State) (ch : Nat) (o : Option Nat), ch < 16 ∧ o = none ∧ ch ∈ s.flash.failedChannels) ∧
    (∃ (s : State) (ch : Nat) (o : Option Nat), ∃ p, ch < 16 ∧ o = some p ∧ 2 * ch + p % 2 ∉ s.flash.failedPackages) ∧
    (∃ (s : State) (ch : Nat) (o : Option Nat), ∃ p, ch < 16 ∧ o = some p ∧ 2 * ch + p % 2 ∈ s.flash.failedPackages) ∧
    (∃ (s : State), (s.flash.available = false ∨ s.flash.journal = [])) ∧
    (∃ (s : State), s.flash.available = true ∧ s.flash.journal ≠ []) :=
  ⟨⟨live, 15, (.inl rfl)⟩,
   ⟨{ filling fill1 [] [] with flash := { (filling fill1 [] []).flash with nand := [(1152, ⟨0, 0, 0, [], 0, []⟩)] } }, 2, 1, _, _,
    _, (rfl), (by decide +kernel), (rfl), (rfl), (rfl), (rfl), (by decide +kernel)⟩,
   ⟨flashy, 0, 0, _, _, _, by decide, by decide, rfl, rfl, rfl, by decide⟩,
   ⟨4096, by decide⟩,
   ⟨live, 0, _, by decide, rfl, by decide⟩,
   ⟨{ live with flash := { failedChannels := [15] } }, 15, none, (by decide +kernel), (rfl), (by decide +kernel)⟩,
   ⟨live, 15, _, 1, (by decide +kernel), (rfl), (by decide +kernel)⟩,
   ⟨{ live with flash := { failedPackages := [31] } }, 15, _, 1, (by decide +kernel), (rfl), (by decide +kernel)⟩,
   ⟨live, (.inr rfl)⟩,
   ⟨{ flashy with flash := { flashy.flash with journal := [⟨0, 0, .ns 0 none⟩] } }, (rfl), (by decide +kernel)⟩⟩

theorem witness_RoundingIsAsDefined :
    (∃ (code : Nat) (p : Nat) (m : Nat) (emin : Int), (code, p, emin) ∈ [(0, 53, (-1022 : Int)), (1, 24, -126), (2, 11, -14), (3, 8,
     -126), (4, 4, -6), (5, 3, -14), (6, 3, -2), (7, 4, 0), (8, 2, 0)] ∧ 0 < m) ∧
    (∃ (e : Int) (q : Int), q ≤ e) ∧
    (∃ (m : Nat) (e q : Int), e < q ∧ ¬ 2 ^ (q - e).toNat ∣ m) ∧
    (∃ (code : Nat) (m : Nat) (sat : Bool), (code ≤ 8 ∨ (20 ≤ code ∧ code ≤ 24 ∧ sat = true)) ∧ m = 0) ∧
    (∃ (code : Nat) (m : Nat) (mode : Rounding) (sat : Bool) (e : Int), (code ≤ 8 ∨ (20 ≤ code ∧ code ≤ 24 ∧ sat = true)) ∧
     let k := roundGrid mode m e (gridExp code m e); 0 < m ∧ beyondMax code k (gridExp code m e) = false) ∧
    (∃ (code : Nat) (m : Nat) (mode : Rounding) (sat : Bool) (e : Int), (code ≤ 8 ∨ (20 ≤ code ∧ code ≤ 24 ∧ sat = true)) ∧
     let k := roundGrid mode m e (gridExp code m e); 0 < m ∧ beyondMax code k (gridExp code m e) = true ∧
       (sat = true ∨ mode = .rtz ∨ 6 ≤ code % 16)) ∧
    (∃ (code : Nat) (m : Nat) (mode : Rounding) (sat : Bool) (e : Int), (code ≤ 8 ∨ (20 ≤ code ∧ code ≤ 24 ∧ sat = true)) ∧
     let k := roundGrid mode m e (gridExp code m e); 0 < m ∧ beyondMax code k (gridExp code m e) = true ∧ sat = false ∧
       mode ≠ .rtz ∧ code = 4) ∧
    (∃ (code : Nat) (m : Nat) (mode : Rounding) (sat : Bool) (e : Int), (code ≤ 8 ∨ (20 ≤ code ∧ code ≤ 24 ∧ sat = true)) ∧
     let k := roundGrid mode m e (gridExp code m e); 0 < m ∧ beyondMax code k (gridExp code m e) = true ∧ sat = false ∧
       mode ≠ .rtz ∧ code < 6 ∧ code ≠ 4) ∧
    (∃ (code : Nat) (q : Int), (code, q) ∈ [(9, (0 : Int)), (10, 0), (25, -6)]) :=
  ⟨⟨8, 2, 1, 0, (by decide), by decide⟩,
   ⟨0, 0, by decide⟩,
   ⟨3, 0, 1, by decide, by decide⟩,
   ⟨0, _, false, by decide, rfl⟩,
   ⟨1, 1, .rne, true, 0, (.inl (by decide)), (by decide +kernel), (by decide +kernel)⟩,
   ⟨1, 1, .rne, true, 2000, (.inl (by decide)), (by decide +kernel), (by decide +kernel), (.inl rfl)⟩,
   ⟨4, 1, .rne, false, 2000, (.inl (by decide)), (by decide +kernel), (by decide +kernel), (rfl), (by decide +kernel), (rfl)⟩,
   ⟨1, 1, .rne, false, 2000, (.inl (by decide)), (by decide +kernel), (by decide +kernel), (rfl), (by decide +kernel),
    (by decide +kernel), (by decide +kernel)⟩,
   ⟨9, _, (.head _)⟩⟩

theorem witness_ElementsConvertToThemselves :
    (∃ (code : Nat) (b : Nat), code ≤ 10 ∧ b < 2 ^ fmtBits code ∧ decodeElem code b ≠ .nan) ∧
    (∃ (code : Nat) (b : Nat), code ≤ 10 ∧ b < 2 ^ fmtBits code ∧ decodeElem code b = .nan) :=
  ⟨⟨8, 15, by decide, by decide, (by decide +kernel)⟩,
   ⟨5, 0x7F, by decide, by decide, (by decide +kernel)⟩⟩

theorem witness_StoresMeetPoisonWordByWord :
    (∃ (a : Nat) (b : Bytes), (a + b.length ≤ hbmEnd ∨ hbmEnd ≤ a)) ∧
    (∃ (s : State) (a n c : Nat), (a + n ≤ hbmEnd ∨ hbmEnd ≤ a) ∧ c < 4 ∧ (∃ w, w ∈ wordsOf a n ∧ s.lostByte w = false)) :=
  ⟨⟨0, [1], (.inl (by decide +kernel))⟩,
   ⟨live, 0, 64, 3, .inl (by decide +kernel), by decide, 0, by decide +kernel, by decide +kernel⟩⟩

/-! ### The checks of WellFormed.lean refuse what is out of range -/

def flitOf (tc vl lseq ack n : Nat) (bad : List Nat) : Flit := ⟨.data, tc, vl, lseq, ack, List.replicate n 0, bad, true, 0, 0⟩

theorem wellformed_flit : (flitOf 3 15 4095 4095 244 [243]).wf = true ∧ (flitOf 4 0 0 0 1 []).wf = false ∧ (flitOf 0 16 0 0 1 []).wf = false ∧
    (flitOf 0 0 4096 0 1 []).wf = false ∧ (flitOf 0 0 0 4096 1 []).wf = false ∧ (flitOf 0 0 0 0 245 []).wf = false ∧
    (flitOf 0 0 0 0 1 [1]).wf = false := by decide +kernel

theorem wellformed_sample : (Sample.mk 0x1071 (some 0)).wf = true ∧ (Sample.mk 0x1072 (some 0)).wf = false ∧ (Sample.mk 0x2015 none).wf = false ∧
    (Sample.mk 0x30C8 none).wf = false ∧ (Sample.mk 0 none).wf = false ∧ (Sample.mk 0x1000 (some 65536)).wf = false ∧
    (Sample.mk 0x1000 (some (-32769))).wf = false := by decide

theorem wellformed_mgmt : (Mgmt.i2c 256).wf = false ∧ (Mgmt.vdm 65536 0).wf = false ∧ (Mgmt.vdm 0 256).wf = false ∧
    (Mgmt.fabric 65536 0).wf = false ∧ (Mgmt.fabric 0 25).wf = false ∧ (Mgmt.fabric 0 24).wf = true := by decide

theorem wellformed_unit : (PackageUnit.dieLink 10).wf = false ∧ (PackageUnit.hub 2).wf = false ∧ (PackageUnit.island 200).wf = false ∧
    (PackageUnit.island 199).wf = true := by decide

theorem wellformed_hosts : (Instr.commandAccept 64 0).wf = false ∧ (Instr.dbSqTail 0 4 0).wf = false ∧ (Instr.acctLatch 64 0).wf = false ∧
    (Instr.pmcSelWrite 0 16 0).wf = false ∧ (Instr.registerWrite 0 65536 8 0).wf = false ∧ (Instr.registerWrite 0 0 0 0).wf = false ∧
    (Instr.registerWrite 0 0 9 0).wf = false ∧ (Instr.bar2Read 0 4095 2).wf = false ∧ (Instr.bar2Write 0 0 []).wf = false ∧
    (Instr.msixUnmask 0 129).wf = false ∧ (Instr.pcieConfigRequest 4).wf = false ∧ (Instr.perstN 4 true).wf = false := by decide

theorem wellformed_management : (Instr.mctpSetEndpointId 256 0).wf = false ∧ (Instr.mctpSetEndpointId 0 256).wf = false ∧
    (Instr.mctpVendorCommand (.i2c 0) []).wf = false ∧ (Instr.mctpVendorCommand (.i2c 256) (List.replicate 35 0)).wf = false ∧
    (Instr.spdmGetCertificate 0 8 0 0).wf = false ∧ (Instr.spdmGetCertificate 0 0 65536 0).wf = false ∧
    (Instr.spdmChallenge 0 0 []).wf = false ∧ (Instr.spdmGetMeasurements 0 256 (List.replicate 32 0)).wf = false := by decide +kernel

theorem wellformed_starting : (Instr.boot 4).wf = false ∧ (Instr.hbmTraining [32]).wf = false ∧ (Instr.startupSelfTest [1024] []).wf = false ∧
    (Instr.startupSelfTest [] [128]).wf = false ∧ (Instr.dawnSequence [(200 * 256, 0)]).wf = false ∧ (Instr.dawnSequence [(0, 256)]).wf = false ∧
    (Instr.flashMapLoad [16] [] 0).wf = false ∧ (Instr.flashMapLoad [] [2] 0).wf = false := by decide

theorem wellformed_power : (Instr.inputUndervoltage 59501).wf = false ∧ (Instr.supplyDroop 200 0).wf = false ∧
    (Instr.crossingMarginCheck [200]).wf = false ∧ (Instr.crossingError (200 * 256)).wf = false ∧ (Instr.realignment [(0, 256)]).wf = false ∧
    (Instr.monitorRead [⟨0, none⟩]).wf = false := by decide

theorem wellformed_tiles : (Instr.issueStep 960).wf = false ∧ (Instr.matmul 960 0).wf = false ∧ (Instr.matmul 0 8).wf = false ∧
    (Instr.stealRequest 960).wf = false ∧ (Instr.selftestStart 1024).wf = false ∧ (Instr.kernelBind 64).wf = false ∧
    (Instr.druindEngineFailure 16).wf = false ∧ (Instr.stackWithdrawn 32).wf = false := by decide

theorem wellformed_hubs : (Instr.triggerFire 0 2 0).wf = false ∧ (Instr.callBegin 1024).wf = false ∧ (Instr.flitSend 24).wf = false ∧
    (Instr.flitReceive 0 (flitOf 4 0 0 0 1 [])).wf = false ∧ (Instr.ptpFrame [] 0).wf = false := by decide

theorem wellformed_stores : (Instr.hbmAccess 0 0 .read ⟨0, false⟩ .clean).wf = false ∧ (Instr.hbmAccess 0 1 .read ⟨11, false⟩ .clean).wf = false ∧
    (Instr.hbmAccess (1536 * 2 ^ 30) 1 .read ⟨0, false⟩ .clean).wf = false ∧ (Instr.hbmScrub 32 .clean).wf = false ∧
    (Instr.sramScrub 16 []).wf = false ∧ (Instr.fillStripe 2 []).wf = false ∧ (Instr.fillStripe 0 [56]).wf = false ∧
    (Instr.unitRecovery 0 ⟨true, 0, []⟩).wf = false ∧ (Instr.unitRecovery 0 ⟨true, 8, []⟩).wf = false ∧ (Instr.unitRecovery 0 ⟨true, 1, [16]⟩).wf = false ∧
    (Instr.patrolRead 16 0 false).wf = false ∧ (Instr.channelFailure 16 none).wf = false ∧
    (Instr.channelFailure 0 (some 2)).wf = false := by decide


/-! ### The worked examples of the spec -/

/-- The MATMUL of 04_descriptors.md's example. -/
def exampleMatmul : Bytes :=
  [0x01, 0x02, 0x01, 0x00, 0x3C, 0x0A, 0x00, 0x00, 0x05, 0x00, 0x00, 0x00, 0x00, 0x00, 0x00, 0x00, 0x00, 0x70, 0x03, 0x00, 0x00, 0xC0, 0x08, 0x00,
   0x00, 0x00, 0x00, 0x00, 0x00, 0xC0, 0x03, 0x00, 0x00, 0x00, 0x00, 0x00, 0x58, 0x00, 0x10, 0x00, 0x00, 0x0A, 0x00, 0x00, 0x04, 0x18, 0x03, 0x04,
   0x00, 0x0A, 0x00, 0x05, 0x00, 0x02] ++ List.replicate 10 0

theorem test_matmul_fields : dType exampleMatmul = 1 ∧ dKid exampleMatmul = 0xA3C ∧ mmA exampleMatmul = 0 ∧ mmB exampleMatmul = 0x37000 ∧
    mmC exampleMatmul = 0x8C000 ∧ mmBS exampleMatmul = 0x3C000 ∧ mmM exampleMatmul = 88 ∧ mmN exampleMatmul = 16 ∧ mmK exampleMatmul = 2560 ∧
    mmAF exampleMatmul = 4 ∧ mmBF exampleMatmul = 0x18 ∧ mmCF exampleMatmul = 3 ∧ mmCvt exampleMatmul = 4 ∧ mmALd exampleMatmul = 2560 ∧
    mmBLd exampleMatmul = 1280 ∧ mmCLd exampleMatmul = 512 ∧ checkMatmul true exampleMatmul = none := by decide +kernel

/-- The SYNC of 04_descriptors.md: a wait for 2 on counter 1 of its own tile, without a limit. -/
def exampleSync : Bytes :=
  [0x07, 0x00, 0x00, 0x00, 0x3C, 0x0A, 0x00, 0x00, 0x00, 0x00, 0x00, 0x00, 0x01, 0x00, 0x00, 0x00, 0x01, 0x00, 0x00, 0x00, 0x02, 0x00, 0x00, 0x00]
    ++ List.replicate 40 0

theorem test_sync_fields : dType exampleSync = 7 ∧ syOp exampleSync = 1 ∧ crefTarget goodSeat 0 (syCref exampleSync) = some (.tile 0 1) ∧
    syValue exampleSync = 2 ∧ syLimit exampleSync = 0 := by decide +kernel

/-- 1.0625 in E4M3: a stochastic rounding of 0x6000_0000 goes up, the tie goes to even (02_formats_and_dice.md). -/
theorem test_stochastic_rounding : (convert 4 (.sr 0x60000000) true (.num false 17 (-4))).1 = 0x39 ∧
    (convert 4 .rne true (.num false 17 (-4))).1 = 0x38 := by decide +kernel

/-- 0.3, -0.1 and 0.01 in binary32, divided by the scale 2^-4, in E2M1 (02_formats_and_dice.md). -/
theorem test_mxfp4_elements : (convert 8 .rne true (.num false 10066330 (-21))).1 = 0x6 ∧
    (convert 8 .rne true (.num true 13421773 (-23))).1 = 0xB ∧ (convert 8 .rne true (.num false 10737418 (-26))).1 = 0x0 := by decide +kernel

/-- The overflow results of the table of 02_formats_and_dice.md: E4M3 has 448 as its largest, E5M2 57,344. -/
theorem test_overflow : (convert 4 .rne true (.num false 1000 0)).1 = 0x7E ∧ (convert 4 .rne false (.num false 1000 0)).1 = 0x7F ∧
    decodeElem 4 0x7E = .num false 14 5 ∧ (convert 5 .rtz false (.num false 100000 0)).1 = 0x7B ∧
    (convert 5 .rne false (.num false 100000 0)).1 = 0x7C := by decide +kernel

/-- The 2:4 row of 05_sparsity.md: index bytes 0x8D and 0xC9. -/
theorem test_sparse_indices : (nmRow 1 16 0xC98D).1.map (·.1) = [1, 3, 4, 6, 9, 10, 12, 15] := by decide +kernel

/-- The member-table entry of 09_fabric_links.md. -/
theorem test_route_entry : entryRoutes (BitVec.ofNat 64 (leNat [0x67, 0x00, 0x6A, 0x00, 0x2F, 0x00, 0x00, 0x00])) =
    [(0, 7, true), (1, 10, true), (2, 15, false)] := by decide +kernel

/-- The atomic packet of 10_memory_fabric.md and the count message of 09_fabric_links.md. -/
theorem test_packet_headers :
    Packet.header { dst := 0x0300, src := 0x0305, type := 5, tc := 2, last := true, empty := false, reliable := false, adaptive := true, tree := false,
                    vl := 0, seq := 0x12, tag := 0x5A3C1007, payload := List.replicate 32 0, bad := [], epoch := 0x31 } =
      [0x00, 0x03, 0x05, 0x03, 0x85, 0x09, 0x1F, 0x00, 0x12, 0x00, 0x00, 0x00, 0x07, 0x10, 0x3C, 0x5A] ∧
    Packet.header { dst := 0x0309, src := 0x0300, type := 0x18, tc := 0, last := true, empty := false, reliable := false, adaptive := false,
                    tree := false, vl := 2, seq := 0x1A2B, tag := collTag 17 5 0, payload := List.replicate 256 0, bad := [], epoch := 0x31 } =
      [0x09, 0x03, 0x00, 0x03, 0x18, 0x01, 0xFF, 0x20, 0x2B, 0x1A, 0x00, 0x00, 0x11, 0x14, 0x00, 0x00] ∧
    opHeader 0x1040 0 2 false 0 0 = [0x40, 0x10, 0, 0, 0, 0, 0, 0, 2, 0, 0, 0, 0, 0, 0, 0] := by decide +kernel

/-- The launch packet of 15_command_packets.md. -/
def exampleLaunch : Bytes :=
  [0x01, 0x04, 0x11, 0x01, 0x42, 0x00, 0x00, 0x00, 0x00, 0x00, 0x00, 0x00, 0x00, 0x00, 0x00, 0x00, 0x00, 0x00, 0x00, 0x00, 0x00, 0x00, 0x00, 0x00,
   0x0C, 0x00, 0x02, 0x00, 0x00, 0x00, 0x00, 0x00]

theorem test_launch_packet : chOpcode exampleLaunch = 0x0401 ∧ chSeat exampleLaunch = 17 ∧ chIrq exampleLaunch = true ∧ chTag exampleLaunch = 0x42 ∧
    chArg exampleLaunch = 12 + 2 ^ 17 ∧ chSlots exampleLaunch = 1 ∧
    entryBytes exampleLaunch .success true 0 37 0 [0x05, 0x2A, 0x00, 0x00, 0x01, 0x00, 0x00, 0x00, 0x00, 0x60, 0x12, 0x00, 0x00, 0x00, 0x01, 0x00] =
      [0x42, 0x00, 0x00, 0x00, 0x01, 0x04, 0x91, 0x00, 0x25, 0x00, 0x00, 0x00, 0x00, 0x00, 0x00, 0x00,
       0x05, 0x2A, 0x00, 0x00, 0x01, 0x00, 0x00, 0x00, 0x00, 0x60, 0x12, 0x00, 0x00, 0x00, 0x01, 0x00] := by decide +kernel

end Sys2Proof.Tests
end

section
/-!
SUPPORT. The default map of R26 in closed form, and that a remap and the degraded state leave a package with nothing fenced as
it is; from these, what the self-test builds.
-/

namespace Sys2Proof.FMap

variable {α : Type}

/-- The map that lists a function's values at the keys of a list reads as that function there, and has nothing elsewhere. -/
theorem find?_graph (f : Nat → α) (l : List Nat) (i : Nat) :
    find? (l.map (fun j => (j, f j))) i = if i ∈ l then some (f i) else none := by
  induction l with
  | nil => rfl
  | cons k t ih =>
    by_cases h : k = i
    · simp [find?, h]
    · simp [find?, h, ih, Ne.symm h]

theorem find?_graph_range (f : Nat → α) (n i : Nat) :
    find? ((List.range n).map (fun j => (j, f j))) i = if i < n then some (f i) else none := by
  simp [find?_graph]

end Sys2Proof.FMap

namespace Sys2Proof.Machine

/-! ### Every (k + 1)-th number left out -/

/-- One block of k + 1 numbers loses its last. -/
theorem filter_block_dropLast (k n : Nat) :
    ((List.range (k + 1)).map ((k + 1) * n + ·)).filter (fun i => i % (k + 1) != k) =
      (List.range k).map ((k + 1) * n + ·) := by
  have hkeep : (List.range k).filter (fun x => x % (k + 1) != k) = List.range k := by
    refine List.filter_eq_self.2 fun x hx => ?_
    have hx : x < k := List.mem_range.1 hx
    simp only [Nat.mod_eq_of_lt (show x < k + 1 by omega), bne_iff_ne]
    omega
  have hlast : k % (k + 1) = k := Nat.mod_eq_of_lt (Nat.lt_succ_self k)
  simp [List.filter_map, Function.comp_def, List.range_succ, hkeep, hlast]

/-- What is left, in ascending order: the j-th number has j / k numbers left out before it. -/
theorem filter_range_skip {k : Nat} (hk : 0 < k) (n : Nat) :
    (List.range ((k + 1) * n)).filter (fun i => i % (k + 1) != k) = (List.range (k * n)).map (fun j => j + j / k) := by
  induction n with
  | zero => rfl
  | succ n ih =>
    rw [Nat.mul_succ, Nat.mul_succ, List.range_add (n := (k + 1) * n), List.range_add (n := k * n), List.filter_append, ih,
      filter_block_dropLast, List.map_append, List.map_map]
    refine congrArg _ (List.map_congr_left fun x hx => ?_)
    have hdiv : (k * n + x) / k = n := by
      rw [Nat.mul_add_div hk, Nat.div_eq_of_lt (List.mem_range.1 hx), Nat.add_zero]
    simp only [Function.comp_apply, hdiv, Nat.succ_mul]
    omega

/-! ### The default map (R25, R26) -/

/-- The physical cluster of a logical cluster by R26: one spare is passed after every 7 clusters in grade 896, after every 15
in grade 960. -/
def Ident.defaultCluster (i : Ident) (j : Nat) : Nat := j + j / (if i.ltiles = 896 then 7 else 15)

/-- The physical tile of a logical tile by R26. -/
def Ident.defaultTile (i : Ident) (lt : Nat) : Nat := 8 * i.defaultCluster (lt / 8) + lt % 8

theorem Ident.ltiles_eq_896_or_960 (i : Ident) : i.ltiles = 896 ∨ i.ltiles = 960 := by
  unfold Ident.ltiles
  split
  · exact .inl rfl
  · exact .inr rfl

theorem Ident.ltiles_eq_mul_lclusters (i : Ident) : i.ltiles = 8 * i.lclusters := by
  unfold Ident.lclusters
  rcases i.ltiles_eq_896_or_960 with h | h <;> rw [h]

theorem Ident.defaultTile_eq (i : Ident) (j : Nat) {p : Nat} (hp : p < 8) :
    i.defaultTile (8 * j + p) = 8 * i.defaultCluster j + p := by
  have hdiv : (8 * j + p) / 8 = j := by omega
  have hmod : (8 * j + p) % 8 = p := by omega
  rw [Ident.defaultTile, hdiv, hmod]

/-- In grade 896 the spares are every eighth cluster. -/
theorem Ident.not_spareCluster_of_896 {i : Ident} (h : i.ltiles = 896) (pc : Nat) :
    (!i.spareCluster pc) = (pc % (7 + 1) != 7) := by
  simp [Ident.spareCluster, h, bne]

/-- In grade 960 the spares are every sixteenth cluster: cluster 7 of the odd regions. -/
theorem Ident.not_spareCluster_of_960 {i : Ident} (h : i.ltiles = 960) (pc : Nat) :
    (!i.spareCluster pc) = (pc % (15 + 1) != 15) := by
  have hplace : (pc % 8 = 7 ∧ pc / 8 % 2 = 1) ↔ pc % 16 = 15 := by omega
  refine congrArg not (Bool.eq_iff_iff.2 ?_)
  simpa only [Ident.spareCluster, h, Bool.and_eq_true, Bool.or_eq_true, beq_iff_eq, Nat.reduceEqDiff, false_or] using hplace

/-- The clusters that are no spares, in ascending order, are those of R26. -/
theorem Ident.nonSpareClusters_eq (i : Ident) :
    (List.range 128).filter (fun pc => !i.spareCluster pc) = (List.range i.lclusters).map i.defaultCluster := by
  rcases i.ltiles_eq_896_or_960 with h | h
  · have hplace : i.defaultCluster = fun j => j + j / 7 := by funext j; simp [Ident.defaultCluster, h]
    have hcount : i.lclusters = 7 * 16 := by rw [Ident.lclusters, h]
    simp only [Ident.not_spareCluster_of_896 h, hplace, hcount]
    exact filter_range_skip (by decide) 16
  · have hplace : i.defaultCluster = fun j => j + j / 15 := by funext j; simp [Ident.defaultCluster, h]
    have hcount : i.lclusters = 15 * 8 := by rw [Ident.lclusters, h]
    simp only [Ident.not_spareCluster_of_960 h, hplace, hcount]
    exact filter_range_skip (by decide) 8

theorem State.defaultMap_clusterMap (s : State) :
    s.defaultMap.units.clusterMap = (List.range s.ident.lclusters).map (fun j => (j, s.ident.defaultCluster j)) := by
  simp only [State.defaultMap, Ident.nonSpareClusters_eq, List.length_map, List.length_range]
  rw [List.zip_map_right, List.zip_eq_zipWith, List.zipWith_self, List.map_map]
  rfl

/-- Eight ring positions of n clusters are 8n logical tiles. -/
theorem flatMap_ringPositions (f : Nat → Nat) (n : Nat) :
    ((List.range n).map (fun j => (j, f j))).flatMap (fun jc => (List.range 8).map (fun p => (8 * jc.1 + p, 8 * jc.2 + p))) =
      (List.range (8 * n)).map (fun lt => (lt, 8 * f (lt / 8) + lt % 8)) := by
  induction n with
  | zero => rfl
  | succ n ih =>
    rw [List.range_succ (n := n), List.map_append, List.flatMap_append, ih, Nat.mul_succ, List.range_add, List.map_append,
      List.map_map]
    simp only [List.map_cons, List.map_nil, List.flatMap_cons, List.flatMap_nil, List.append_nil]
    refine congrArg _ (List.map_congr_left fun p hp => ?_)
    have hp : p < 8 := List.mem_range.1 hp
    have hdiv : (8 * n + p) / 8 = n := by omega
    have hmod : (8 * n + p) % 8 = p := by omega
    simp only [Function.comp_apply, hdiv, hmod]

theorem State.defaultMap_tileMap (s : State) :
    s.defaultMap.units.tileMap = (List.range s.ident.ltiles).map (fun lt => (lt, s.ident.defaultTile lt)) := by
  have htiles : s.defaultMap.units.tileMap = s.defaultMap.units.clusterMap.flatMap
      (fun jc => (List.range 8).map (fun p => (8 * jc.1 + p, 8 * jc.2 + p))) := rfl
  rw [htiles, State.defaultMap_clusterMap, flatMap_ringPositions, ← Ident.ltiles_eq_mul_lclusters]
  rfl

theorem State.find?_defaultMap_clusterMap (s : State) (j : Nat) :
    FMap.find? s.defaultMap.units.clusterMap j = if j < s.ident.lclusters then some (s.ident.defaultCluster j) else none := by
  rw [State.defaultMap_clusterMap, FMap.find?_graph_range]

theorem State.find?_defaultMap_tileMap (s : State) (lt : Nat) :
    FMap.find? s.defaultMap.units.tileMap lt = if lt < s.ident.ltiles then some (s.ident.defaultTile lt) else none := by
  rw [State.defaultMap_tileMap, FMap.find?_graph_range]

/-! ### Nothing to remap, nothing short of the grade (R27, R32) -/

variable {s : State}

theorem State.tileHealthy_of_ptiles_nil (h : s.units.ptiles = []) (pt : Nat) : s.tileHealthy pt = true := by
  simp [State.tileHealthy, State.ptile, h, FMap.get, FMap.find?]

/-- Logical tiles that healthy tiles back stay where they are. -/
theorem State.remapTiles_eq_self {lts : List Nat} (owner : Nat)
    (h : ∀ lt ∈ lts, ∃ pt, FMap.find? s.units.tileMap lt = some pt ∧ s.tileHealthy pt = true) :
    s.remapTiles owner lts = s := by
  simp only [State.remapTiles]
  rw [List.filter_eq_nil_iff.2 fun lt hlt => ?_, List.foldl_nil]
  obtain ⟨pt, hpt, hok⟩ := h lt hlt
  simp [hpt, hok]

/-- With no cluster displaced and every logical tile of the grade backed by a healthy tile, place 1 of R33 changes nothing. -/
theorem State.remapUnits_eq_self (owner : Nat) (hdis : s.units.displaced = [])
    (h : ∀ lt < s.ident.ltiles, ∃ pt, FMap.find? s.units.tileMap lt = some pt ∧ s.tileHealthy pt = true) :
    s.remapUnits owner = s := by
  rw [State.remapUnits, hdis, List.foldl_nil]
  exact State.remapTiles_eq_self owner fun lt hlt => h lt (List.mem_range.1 hlt)

/-- A package that is not degraded and has no tile fenced has tiles enough for either grade. -/
theorem State.settleDegraded_eq_self (hdeg : s.mod.degraded = false) (hpt : s.units.ptiles = []) : s.settleDegraded = s := by
  have hall : s.healthyTiles = 1024 := by rw [State.healthyTiles, hpt]; rfl
  have hgrade : ¬ s.healthyTiles < s.ident.ltiles := by
    rcases s.ident.ltiles_eq_896_or_960 with h | h <;> rw [hall, h] <;> decide
  simp [State.settleDegraded, hdeg, hgrade]

/-! ### The self-test (R26, R607) -/

/-- Where nothing is fenced and nothing fails, the self-test leaves the default map as it built it. -/
theorem State.startupTest_nil (hstate : s.mod.state = .init) (hhbm : s.mod.hbmTrained = true) (hmap : s.mod.mapBuilt = false)
    (hdeg : s.mod.degraded = false) (hpt : s.units.ptiles = []) (hdis : s.units.displaced = []) :
    s.startupTest [] [] = { s.defaultMap with mod := { s.mod with mapBuilt := true } } := by
  have hguard : ¬ (s.mod.state ≠ .init || !s.mod.hbmTrained || s.mod.mapBuilt) = true := by simp [hstate, hhbm, hmap]
  have hremap : ({ s.defaultMap with mod := { s.mod with mapBuilt := true } } : State).remapUnits 64 =
      { s.defaultMap with mod := { s.mod with mapBuilt := true } } := by
    refine State.remapUnits_eq_self 64 hdis fun lt hlt => ⟨s.ident.defaultTile lt, ?_, State.tileHealthy_of_ptiles_nil hpt _⟩
    exact (s.find?_defaultMap_tileMap lt).trans (if_pos hlt)
  calc s.startupTest [] []
    _ = (({ s.defaultMap with mod := { s.mod with mapBuilt := true } } : State).remapUnits 64).settleDegraded := if_neg hguard
    _ = _ := by rw [hremap]; exact State.settleDegraded_eq_self hdeg hpt

end Sys2Proof.Machine

namespace Sys2Proof

open Sys2Proof.Machine

/-- Settles O9: with nothing to remap, the self-test's map is the default map, whose closed form is R26's numbering. -/
theorem selfTestBuildsTheDefaultMap : Obligations.SelfTestBuildsTheDefaultMap := by
  unfold Obligations.SelfTestBuildsTheDefaultMap
  intro s hstate hhbm hmap hdeg hpt _ hdis
  refine ⟨_, congrArg Host.Outcome.next (State.startupTest_nil hstate hhbm hmap hdeg hpt hdis), rfl, ?_, ?_, ?_⟩
  · intro j hj
    exact (s.find?_defaultMap_clusterMap j).trans (if_pos hj)
  · intro j hj
    exact (s.find?_defaultMap_clusterMap j).trans (if_neg (Nat.not_lt.2 hj))
  · intro j p hj hp
    have hlt : 8 * j + p < s.ident.ltiles := by rw [Ident.ltiles_eq_mul_lclusters]; omega
    exact ((s.find?_defaultMap_tileMap _).trans (if_pos hlt)).trans (congrArg some (Ident.defaultTile_eq _ j hp))

end Sys2Proof
end

section
/-!
SUPPORT. The grid roundings of R57, and the elements of the floating-point formats of R46 as numbers of smallest subnormals,
in which decoding, encoding and the order of the magnitudes are statements about naturals.
-/

namespace Sys2Proof.Machine

/-! ### The grid of a format (R57) -/

theorem gridExp_eq (code m : Nat) (e : Int) :
    gridExp code m e = max ((Nat.log2 m : Int) + e) (fmtEmin code) - fmtManBits code := rfl

/-- Significand bits and smallest normal exponent of the floating-point formats, as R46 tabulates them. -/
theorem fmtParams_of_mem {code p : Nat} {emin : Int} (h : (code, p, emin) ∈ [(0, 53, (-1022 : Int)), (1, 24, -126), (2, 11, -14),
    (3, 8, -126), (4, 4, -6), (5, 3, -14), (6, 3, -2), (7, 4, 0), (8, 2, 0)]) :
    fmtEmin code = emin ∧ (fmtManBits code : Int) = p - 1 := by
  have hall : ∀ t ∈ [(0, 53, (-1022 : Int)), (1, 24, -126), (2, 11, -14), (3, 8, -126), (4, 4, -6), (5, 3, -14), (6, 3, -2),
      (7, 4, 0), (8, 2, 0)], fmtEmin t.1 = t.2.2 ∧ (fmtManBits t.1 : Int) = (t.2.1 : Nat) - 1 := by decide
  exact hall _ h

/-! ### Rounding to a grid (R57) -/

variable {m : Nat} {e q : Int}

/-- A value whose own exponent is on the grid or above it is a multiple already. -/
theorem roundGrid_of_le (mode : Rounding) (m : Nat) (h : q ≤ e) : roundGrid mode m e q = m * 2 ^ (e - q).toNat := if_pos h

theorem roundGrid_rtz (m : Nat) (h : e < q) : roundGrid .rtz m e q = m / 2 ^ (q - e).toNat := if_neg (Int.not_le.2 h)

theorem roundGrid_rne (m : Nat) (h : e < q) :
    roundGrid .rne m e q =
      if 2 * (m % 2 ^ (q - e).toNat) < 2 ^ (q - e).toNat then m / 2 ^ (q - e).toNat
      else if 2 ^ (q - e).toNat < 2 * (m % 2 ^ (q - e).toNat) then m / 2 ^ (q - e).toNat + 1
      else m / 2 ^ (q - e).toNat + m / 2 ^ (q - e).toNat % 2 := if_neg (Int.not_le.2 h)

theorem roundGrid_sr (r m : Nat) (h : e < q) :
    roundGrid (.sr r) m e q =
      if r < m % 2 ^ (q - e).toNat * 2 ^ 32 / 2 ^ (q - e).toNat then m / 2 ^ (q - e).toNat + 1
      else m / 2 ^ (q - e).toNat := if_neg (Int.not_le.2 h)

/-- An exact value stays, whatever the mode. -/
theorem roundGrid_of_dvd (mode : Rounding) (h : e < q) (hdvd : 2 ^ (q - e).toNat ∣ m) :
    roundGrid mode m e q = m / 2 ^ (q - e).toNat := by
  have hrem : m % 2 ^ (q - e).toNat = 0 := Nat.mod_eq_zero_of_dvd hdvd
  cases mode with
  | rtz => exact roundGrid_rtz m h
  | rne => simp [roundGrid_rne m h, hrem]
  | sr r => simp [roundGrid_sr r m h, hrem]

/-- Every mode answers lo or the multiple after it. -/
theorem roundGrid_le_succ (mode : Rounding) (m : Nat) (h : e < q) : roundGrid mode m e q ≤ m / 2 ^ (q - e).toNat + 1 := by
  cases mode with
  | rtz => rw [roundGrid_rtz m h]; omega
  | rne =>
    rw [roundGrid_rne m h]
    split
    · omega
    · split <;> omega
  | sr r => rw [roundGrid_sr r m h]; split <;> omega

/-- RNE answers a multiple within half a spacing of the value. -/
theorem roundGrid_rne_near (m : Nat) (h : e < q) :
    2 * m ≤ (2 * roundGrid .rne m e q + 1) * 2 ^ (q - e).toNat ∧
      2 * roundGrid .rne m e q * 2 ^ (q - e).toNat ≤ 2 * m + 2 ^ (q - e).toNat := by
  have hm := Nat.div_add_mod m (2 ^ (q - e).toNat)
  have hrem : m % 2 ^ (q - e).toNat < 2 ^ (q - e).toNat := Nat.mod_lt m (Nat.two_pow_pos _)
  have hodd := Nat.mod_two_eq_zero_or_one (m / 2 ^ (q - e).toNat)
  rw [roundGrid_rne m h]
  generalize 2 ^ (q - e).toNat = u at *
  generalize m / u = lo at *
  generalize m % u = rem at *
  split
  · constructor <;> grind
  · split
    · constructor <;> grind
    · rcases hodd with hlo | hlo <;> rw [hlo] <;> constructor <;> grind

/-- On a tie RNE answers an even multiple. -/
theorem roundGrid_rne_tie (h : e < q) (htie : 2 * m = (2 * (m / 2 ^ (q - e).toNat) + 1) * 2 ^ (q - e).toNat) :
    roundGrid .rne m e q % 2 = 0 := by
  have hrem : 2 * (m % 2 ^ (q - e).toNat) = 2 ^ (q - e).toNat := by
    have hm := Nat.div_add_mod m (2 ^ (q - e).toNat)
    grind
  rw [roundGrid_rne m h, if_neg (by omega), if_neg (by omega)]
  omega

/-- A grid that keeps at most p bits after the leading one leaves a multiple of at most p + 1 bits, or the power of two above
them. -/
theorem roundGrid_le_two_pow (mode : Rounding) {p : Nat} (hq : (Nat.log2 m : Int) + e - p ≤ q) :
    roundGrid mode m e q ≤ 2 ^ (p + 1) := by
  have hm : m < 2 ^ (Nat.log2 m + 1) := Nat.lt_log2_self
  by_cases hqe : q ≤ e
  · rw [roundGrid_of_le mode m hqe]
    calc m * 2 ^ (e - q).toNat
      _ ≤ 2 ^ (Nat.log2 m + 1) * 2 ^ (e - q).toNat := Nat.mul_le_mul_right _ (Nat.le_of_lt hm)
      _ = 2 ^ (Nat.log2 m + 1 + (e - q).toNat) := (Nat.pow_add ..).symm
      _ ≤ 2 ^ (p + 1) := Nat.pow_le_pow_right Nat.two_pos (by omega)
  · have hlo : m < 2 ^ (p + 1) * 2 ^ (q - e).toNat :=
      calc m
        _ < 2 ^ (Nat.log2 m + 1) := hm
        _ ≤ 2 ^ (p + 1 + (q - e).toNat) := Nat.pow_le_pow_right Nat.two_pos (by omega)
        _ = _ := Nat.pow_add ..
    exact Nat.le_trans (roundGrid_le_succ mode m (Int.not_le.1 hqe)) (Nat.div_lt_of_lt_mul (by rwa [Nat.mul_comm]))

/-! ### Comparison of magnitudes -/

section
variable {n : Nat} {f a : Int}

/-- A comparison tells the sign of the difference at any exponent that neither magnitude's own goes below. -/
theorem cmp_num_eq_sign (hae : a ≤ e) (haf : a ≤ f) :
    Val.cmp (.num false m e) (.num false n f) = Int.sign ((m * 2 ^ (e - a).toNat : Nat) - (n * 2 ^ (f - a).toNat : Nat)) := by
  have he : (e - a).toNat = (e - min e f).toNat + (min e f - a).toNat := by omega
  have hf : (f - a).toNat = (f - min e f).toNat + (min e f - a).toNat := by omega
  have hscale : ((m * 2 ^ (e - a).toNat : Nat) - (n * 2 ^ (f - a).toNat : Nat) : Int) =
      (Val.scaled false m e (min e f) - Val.scaled false n f (min e f)) * (2 ^ (min e f - a).toNat : Nat) := by
    simp only [Val.scaled, pow2, he, hf, Nat.pow_add]
    grind
  rw [hscale, Int.sign_mul, Int.sign_natCast_of_ne_zero (Nat.ne_of_gt (Nat.two_pow_pos _)), Int.mul_one]
  simp only [Val.cmp]
  split
  next hneg => exact (Int.sign_eq_neg_one_of_neg hneg).symm
  next hneg =>
    split
    next hzero => rw [hzero, Int.sign_zero]
    next hzero => exact (Int.sign_eq_one_of_pos (by omega)).symm

theorem cmp_num_pos_iff (hae : a ≤ e) (haf : a ≤ f) :
    0 < Val.cmp (.num false m e) (.num false n f) ↔ n * 2 ^ (f - a).toNat < m * 2 ^ (e - a).toNat := by
  rw [cmp_num_eq_sign hae haf, Int.sign_pos_iff]
  omega

theorem cmp_num_eq_zero_iff (hae : a ≤ e) (haf : a ≤ f) :
    Val.cmp (.num false m e) (.num false n f) = 0 ↔ m * 2 ^ (e - a).toNat = n * 2 ^ (f - a).toNat := by
  rw [cmp_num_eq_sign hae haf, Int.sign_eq_zero_iff_zero]
  omega

end

/-! ### What the floating-point formats of R46 have in common -/

section
variable {code : Nat}

/-- A format code is read in its bits [3:0]: bit [4] leaves the elements of a floating-point format as they are (R46, R50). -/
theorem fmtCode_mod (code : Nat) :
    fmtBits (code % 16) = fmtBits code ∧ fmtExpBits (code % 16) = fmtExpBits code ∧ fmtManBits (code % 16) = fmtManBits code ∧
      fmtBias (code % 16) = fmtBias code ∧ fmtMaxBits (code % 16) = fmtMaxBits code ∧ fmtInt (code % 16) = fmtInt code ∧
      fmtHasInf (code % 16) = fmtHasInf code := by
  simp [fmtBits, fmtExpBits, fmtManBits, fmtBias, fmtMaxBits, fmtInt, fmtHasInf]

/-- A floating-point element is a sign, an exponent field and a mantissa field; its largest finite magnitude fits below the
sign, and below the exponent field of the infinities where the format has them. -/
theorem fmtFloat_spec (h : code % 16 ≤ 8) :
    fmtInt code = false ∧ fmtBits code = fmtExpBits code + fmtManBits code + 1 ∧
      fmtMaxBits code < 2 ^ (fmtExpBits code + fmtManBits code) ∧
      (fmtHasInf code = true → fmtMaxBits code < (2 ^ fmtExpBits code - 1) * 2 ^ fmtManBits code) := by
  have hall : ∀ c ≤ 8, fmtInt c = false ∧ fmtBits c = fmtExpBits c + fmtManBits c + 1 ∧
      fmtMaxBits c < 2 ^ (fmtExpBits c + fmtManBits c) ∧
      (fmtHasInf c = true → fmtMaxBits c < (2 ^ fmtExpBits c - 1) * 2 ^ fmtManBits c) := by decide
  obtain ⟨hbits, hexp, hman, -, hmax, hint, hinf⟩ := fmtCode_mod code
  simpa only [hbits, hexp, hman, hmax, hint, hinf] using hall (code % 16) h

theorem fmtE4M3_spec (h : code % 16 = 4) : fmtExpBits code = 4 ∧ fmtManBits code = 3 ∧ fmtMaxBits code = 0x7E := by
  simp [fmtExpBits, fmtManBits, fmtMaxBits, h]

/-! ### The elements of a floating-point format -/

/-- The exponent of the smallest subnormal, of which every finite element is a multiple. -/
def subnormalExp (code : Nat) : Int := fmtEmin code - fmtManBits code

theorem subnormalExp_le_gridExp (code m : Nat) (e : Int) : subnormalExp code ≤ gridExp code m e := by
  rw [gridExp_eq, subnormalExp]
  omega

theorem gridExp_ge (code m : Nat) (e : Int) : (Nat.log2 m : Int) + e - fmtManBits code ≤ gridExp code m e := by
  rw [gridExp_eq]
  omega

/-- The exponent that a finite element's exponent field gives its significand: 0 and 1 give the same (R46). -/
def fieldExp (code b : Nat) : Int := subnormalExp code + (b / 2 ^ fmtManBits code - 1 : Nat)

theorem subnormalExp_le_fieldExp (code b : Nat) : subnormalExp code ≤ fieldExp code b := by
  rw [fieldExp]
  omega

theorem toNat_fieldExp_sub (code b : Nat) : (fieldExp code b - subnormalExp code).toNat = b / 2 ^ fmtManBits code - 1 := by
  rw [fieldExp]
  omega

/-- The significand of a finite element, with the leading bit that its exponent field says it has. -/
def significand (code b : Nat) : Nat :=
  if b / 2 ^ fmtManBits code = 0 then b % 2 ^ fmtManBits code else 2 ^ fmtManBits code + b % 2 ^ fmtManBits code

/-- A sign above b: the fields that decoding takes out of the element. -/
theorem fields_signBit_add (h : code % 16 ≤ 8) (neg : Bool) {b : Nat} (hb : b < 2 ^ (fmtExpBits code + fmtManBits code)) :
    (signBit code neg + b) % 2 ^ fmtBits code = signBit code neg + b ∧
      ((signBit code neg + b) / 2 ^ (fmtBits code - 1) == 1) = neg ∧
      (signBit code neg + b) / 2 ^ fmtManBits code % 2 ^ fmtExpBits code = b / 2 ^ fmtManBits code ∧
      (signBit code neg + b) % 2 ^ fmtManBits code = b % 2 ^ fmtManBits code := by
  obtain ⟨-, hbits, -, -⟩ := fmtFloat_spec h
  have hsign : signBit code neg = 2 ^ fmtManBits code * (2 ^ fmtExpBits code * neg.toNat) := by
    cases neg <;> simp [signBit, hbits, Nat.pow_add, Nat.mul_comm]
  have hex : b / 2 ^ fmtManBits code < 2 ^ fmtExpBits code := Nat.div_lt_of_lt_mul (by rwa [Nat.mul_comm, ← Nat.pow_add])
  refine ⟨Nat.mod_eq_of_lt ?_, ?_, ?_, ?_⟩
  · rw [hbits, Nat.pow_succ]
    cases neg <;> simp [signBit, hbits] <;> omega
  · rw [hbits, Nat.add_sub_cancel]
    cases neg
    · simp [signBit, Nat.div_eq_of_lt hb]
    · simp [signBit, hbits, Nat.add_div_left _ (Nat.two_pow_pos _), Nat.div_eq_of_lt hb]
  · rw [hsign, Nat.mul_add_div (Nat.two_pow_pos _), Nat.mul_add_mod, Nat.mod_eq_of_lt hex]
  · rw [hsign, Nat.mul_add_mod]

/-- A magnitude up to the largest finite one decodes as its significand at its exponent, under either sign. -/
theorem decodeElem_signBit_add (h : code % 16 ≤ 8) (neg : Bool) {b : Nat} (hb : b ≤ fmtMaxBits code) :
    decodeElem code (signBit code neg + b) = .num neg (significand code b) (fieldExp code b) := by
  obtain ⟨hint, -, hmax, hinf⟩ := fmtFloat_spec h
  obtain ⟨hx, hneg, hex, hman⟩ := fields_signBit_add h neg (Nat.lt_of_le_of_lt hb hmax)
  have hnotInf : (fmtHasInf code && b / 2 ^ fmtManBits code == 2 ^ fmtExpBits code - 1) = false := by
    cases hc : fmtHasInf code with
    | false => rfl
    | true =>
      have hbelow := Nat.div_lt_of_lt_mul (Nat.mul_comm .. ▸ Nat.lt_of_le_of_lt hb (hinf hc))
      simpa using Nat.ne_of_lt hbelow
  have hnotNan : (code % 16 == 4 && b / 2 ^ fmtManBits code == 2 ^ fmtExpBits code - 1 && b % 2 ^ fmtManBits code == 7) = false := by
    by_cases hc : code % 16 = 4
    · obtain ⟨heb, hmb, hmaxBits⟩ := fmtE4M3_spec hc
      rw [hmaxBits] at hb
      simp [hc, heb, hmb]
      omega
    · simp [hc]
  simp only [decodeElem, hint, hx, hneg, hex, hman, hnotInf, hnotNan, Bool.false_eq_true, if_false, beq_iff_eq]
  by_cases hz : b / 2 ^ fmtManBits code = 0
  · simp [hz, significand, fieldExp, subnormalExp]
  · simp only [hz, if_false, significand, fieldExp, subnormalExp, fmtEmin, Val.num.injEq, true_and]
    omega

/-- A finite element's magnitude, counted in smallest subnormals. -/
def elemUnits (code b : Nat) : Nat := significand code b * 2 ^ (b / 2 ^ fmtManBits code - 1)

theorem cmp_elem_pos_iff {k b : Nat} {q : Int} (hq : subnormalExp code ≤ q) :
    0 < Val.cmp (.num false k q) (.num false (significand code b) (fieldExp code b)) ↔
      elemUnits code b < k * 2 ^ (q - subnormalExp code).toNat := by
  rw [cmp_num_pos_iff hq (subnormalExp_le_fieldExp code b), toNat_fieldExp_sub, elemUnits]

theorem cmp_elem_eq_zero_iff {k b : Nat} {q : Int} (hq : subnormalExp code ≤ q) :
    Val.cmp (.num false (significand code b) (fieldExp code b)) (.num false k q) = 0 ↔
      elemUnits code b = k * 2 ^ (q - subnormalExp code).toNat := by
  rw [cmp_num_eq_zero_iff (subnormalExp_le_fieldExp code b) hq, toNat_fieldExp_sub, elemUnits]

/-- Below the smallest normal the bits count the units themselves. -/
theorem elemUnits_of_lt {b : Nat} (hb : b < 2 ^ fmtManBits code) : elemUnits code b = b := by
  simp [elemUnits, significand, Nat.div_eq_of_lt hb, Nat.mod_eq_of_lt hb]

/-- From the smallest normal up the exponent field shifts the significand. -/
theorem elemUnits_succ_mul_add (n : Nat) {man : Nat} (hman : man < 2 ^ fmtManBits code) :
    elemUnits code ((n + 1) * 2 ^ fmtManBits code + man) = (2 ^ fmtManBits code + man) * 2 ^ n := by
  have hdiv : ((n + 1) * 2 ^ fmtManBits code + man) / 2 ^ fmtManBits code = n + 1 := by
    rw [Nat.mul_comm, Nat.mul_add_div (Nat.two_pow_pos _), Nat.div_eq_of_lt hman, Nat.add_zero]
  have hmod : ((n + 1) * 2 ^ fmtManBits code + man) % 2 ^ fmtManBits code = man := by
    rw [Nat.mul_comm, Nat.mul_add_mod, Nat.mod_eq_of_lt hman]
  simp [elemUnits, significand, hdiv, hmod]

theorem elemUnits_lt (code b : Nat) : elemUnits code b < 2 ^ fmtManBits code * 2 ^ (b / 2 ^ fmtManBits code) := by
  have hman : b % 2 ^ fmtManBits code < 2 ^ fmtManBits code := Nat.mod_lt b (Nat.two_pow_pos _)
  simp only [elemUnits, significand]
  cases b / 2 ^ fmtManBits code with
  | zero => simpa using hman
  | succ n =>
    rw [if_neg n.succ_ne_zero, Nat.pow_succ', ← Nat.mul_assoc]
    exact Nat.mul_lt_mul_of_pos_right (by omega) (Nat.two_pow_pos n)

theorem le_elemUnits {b n : Nat} (hn : n < b / 2 ^ fmtManBits code) : 2 ^ fmtManBits code * 2 ^ n ≤ elemUnits code b := by
  rw [elemUnits, significand, if_neg (by omega)]
  exact Nat.mul_le_mul (Nat.le_add_right ..) (Nat.pow_le_pow_right Nat.two_pos (by omega))

/-- The bits of the magnitudes rise with their values: a larger exponent field outweighs every mantissa field. -/
theorem elemUnits_lt_elemUnits {b c : Nat} (hbc : b < c) : elemUnits code b < elemUnits code c := by
  rcases Nat.lt_or_eq_of_le (Nat.div_le_div_right (c := 2 ^ fmtManBits code) (Nat.le_of_lt hbc)) with hex | hex
  · exact Nat.lt_of_lt_of_le (elemUnits_lt code b) (le_elemUnits hex)
  · have hman : b % 2 ^ fmtManBits code < c % 2 ^ fmtManBits code := by
      have hb := Nat.div_add_mod b (2 ^ fmtManBits code)
      have hc := Nat.div_add_mod c (2 ^ fmtManBits code)
      rw [hex] at hb
      omega
    simp only [elemUnits, significand, hex]
    split <;> exact Nat.mul_lt_mul_of_pos_right (by omega) (Nat.two_pow_pos _)

/-! ### Encoding (R46) -/

/-- What lies beyond the largest finite value has more units than it. -/
theorem beyondMax_eq_false_iff (h : code % 16 ≤ 8) {k : Nat} {q : Int} (hq : subnormalExp code ≤ q) :
    beyondMax code k q = false ↔ k * 2 ^ (q - subnormalExp code).toNat ≤ elemUnits code (fmtMaxBits code) := by
  have hmax : decodeElem (code % 16) (fmtMaxBits code) =
      .num false (significand code (fmtMaxBits code)) (fieldExp code (fmtMaxBits code)) := by
    obtain ⟨-, -, hman, hbias, hmaxBits, -, -⟩ := fmtCode_mod code
    have hdec := decodeElem_signBit_add (code := code % 16) (by omega) false (b := fmtMaxBits code) (Nat.le_of_eq hmaxBits.symm)
    simpa [signBit, significand, fieldExp, subnormalExp, fmtEmin, hman, hbias] using hdec
  rw [beyondMax, hmax, decide_eq_false_iff_not, gt_iff_lt, cmp_elem_pos_iff hq, Nat.not_lt]

section
variable {k d : Nat}

/-- Below the smallest normal the bits are the number of units. -/
theorem encodeMag_of_subnormal (hk : 0 < k) (h : Nat.log2 k + d < fmtManBits code) :
    encodeMag code k (subnormalExp code + d) = k * 2 ^ d := by
  have htop : (Nat.log2 k : Int) + (subnormalExp code + d) < fmtEmin code := by simp only [subnormalExp]; omega
  rw [encodeMag, if_neg (Nat.ne_of_gt hk), if_pos htop, Int.max_eq_right (Int.le_of_lt htop), ← subnormalExp,
    if_pos (by omega), pow2]
  congr 2
  omega

/-- k brought to the width of a significand with p bits after the leading one. -/
def normalize (p k : Nat) : Nat := if Nat.log2 k ≤ p then k * 2 ^ (p - Nat.log2 k) else k / 2 ^ (Nat.log2 k - p)

/-- From the smallest normal up the exponent field says how far the significand, brought to its width, is shifted. -/
theorem encodeMag_of_normal (hk : 0 < k) {n : Nat} (h : Nat.log2 k + d = fmtManBits code + n) :
    encodeMag code k (subnormalExp code + d) =
      (n + 1) * 2 ^ fmtManBits code + (normalize (fmtManBits code) k - 2 ^ fmtManBits code) := by
  have htop : (Nat.log2 k : Int) + (subnormalExp code + d) = fmtEmin code + n := by simp only [subnormalExp]; omega
  have hfield : (fmtEmin code + n + fmtBias code).toNat = n + 1 := by simp only [fmtEmin]; omega
  have hup : (subnormalExp code + d - (fmtEmin code + n - fmtManBits code)).toNat = fmtManBits code - Nat.log2 k := by
    simp only [subnormalExp]; omega
  have hdown : (fmtEmin code + n - fmtManBits code - (subnormalExp code + d)).toNat = Nat.log2 k - fmtManBits code := by
    simp only [subnormalExp]; omega
  have hle : fmtEmin code + n - fmtManBits code ≤ subnormalExp code + d ↔ Nat.log2 k ≤ fmtManBits code := by
    simp only [subnormalExp]; omega
  simp only [encodeMag, if_neg (Nat.ne_of_gt hk), htop, Int.max_eq_left (show fmtEmin code ≤ fmtEmin code + n by omega),
    pow2, hup, hdown, hle, hfield, normalize, if_neg (show ¬ fmtEmin code + (n : Int) < fmtEmin code by omega)]

/-- Nothing is lost where k has at most one bit too many, and that one only as the power of two. -/
theorem normalize_eq_add (hk : 0 < k) {p n : Nat} (hmax : k ≤ 2 ^ (p + 1)) (h : Nat.log2 k + d = p + n) :
    ∃ man < 2 ^ p, normalize p k = 2 ^ p + man ∧ (2 ^ p + man) * 2 ^ n = k * 2 ^ d := by
  have hlo : 2 ^ Nat.log2 k ≤ k := Nat.log2_self_le (Nat.ne_of_gt hk)
  have hhi : k < 2 ^ (Nat.log2 k + 1) := Nat.lt_log2_self
  by_cases hL : Nat.log2 k ≤ p
  · rw [normalize, if_pos hL]
    have hpow : 2 ^ Nat.log2 k * 2 ^ (p - Nat.log2 k) = 2 ^ p := by rw [← Nat.pow_add, Nat.add_sub_cancel' hL]
    have hge : 2 ^ p ≤ k * 2 ^ (p - Nat.log2 k) := hpow ▸ Nat.mul_le_mul_right _ hlo
    have hlt : k * 2 ^ (p - Nat.log2 k) < 2 * 2 ^ p := by
      rw [← hpow, ← Nat.mul_assoc, ← Nat.pow_succ']
      exact Nat.mul_lt_mul_of_pos_right hhi (Nat.two_pow_pos _)
    refine ⟨k * 2 ^ (p - Nat.log2 k) - 2 ^ p, by omega, (Nat.add_sub_cancel' hge).symm, ?_⟩
    rw [Nat.add_sub_cancel' hge, Nat.mul_assoc, ← Nat.pow_add, show p - Nat.log2 k + n = d by omega]
  · have hlog : Nat.log2 k = p + 1 :=
      Nat.le_antisymm ((Nat.pow_le_pow_iff_right Nat.one_lt_two).1 (Nat.le_trans hlo hmax)) (by omega)
    have hk2 : k = 2 ^ (p + 1) := Nat.le_antisymm hmax (hlog ▸ hlo)
    rw [normalize, if_neg hL]
    refine ⟨0, Nat.two_pow_pos _, ?_, ?_⟩
    · rw [hlog, Nat.add_sub_cancel_left, hk2, Nat.pow_succ]
      simp
    · rw [hk2, Nat.add_zero, ← Nat.pow_add, ← Nat.pow_add, show p + n = p + 1 + d by omega]

/-- Encoding keeps the value: the bits have as many units as the magnitude. -/
theorem elemUnits_encodeMag (hmax : k ≤ 2 ^ (fmtManBits code + 1)) (d : Nat) :
    elemUnits code (encodeMag code k (subnormalExp code + d)) = k * 2 ^ d := by
  rcases Nat.eq_zero_or_pos k with rfl | hk
  · rw [encodeMag, if_pos rfl, elemUnits_of_lt (Nat.two_pow_pos _), Nat.zero_mul]
  rcases Nat.lt_or_ge (Nat.log2 k + d) (fmtManBits code) with hsub | hnormal
  · have hlt : k * 2 ^ d < 2 ^ fmtManBits code :=
      calc k * 2 ^ d
        _ < 2 ^ (Nat.log2 k + 1) * 2 ^ d := Nat.mul_lt_mul_of_pos_right Nat.lt_log2_self (Nat.two_pow_pos d)
        _ = 2 ^ (Nat.log2 k + 1 + d) := (Nat.pow_add ..).symm
        _ ≤ _ := Nat.pow_le_pow_right Nat.two_pos (by omega)
    rw [encodeMag_of_subnormal hk hsub, elemUnits_of_lt hlt]
  · obtain ⟨n, hn⟩ := Nat.exists_eq_add_of_le hnormal
    obtain ⟨man, hman, hsig, hval⟩ := normalize_eq_add hk hmax hn
    rw [encodeMag_of_normal hk hn, hsig, Nat.add_sub_cancel_left, elemUnits_succ_mul_add n hman, hval]

/-- What lies on the grid and within the range decodes, from the bits that encode it, as itself. -/
theorem decodeElem_encodeMag (h : code % 16 ≤ 8) (neg : Bool) {q : Int} (hq : subnormalExp code ≤ q)
    (hmax : k ≤ 2 ^ (fmtManBits code + 1)) (hin : beyondMax code k q = false) :
    ∃ k' e', decodeElem code (signBit code neg + encodeMag code k q) = .num neg k' e' ∧
      Val.cmp (.num false k' e') (.num false k q) = 0 := by
  have hunits : elemUnits code (encodeMag code k q) = k * 2 ^ (q - subnormalExp code).toNat := by
    have henc := elemUnits_encodeMag hmax (q - subnormalExp code).toNat
    rwa [show subnormalExp code + ((q - subnormalExp code).toNat : Int) = q by omega] at henc
  have hbits : encodeMag code k q ≤ fmtMaxBits code := by
    refine Nat.not_lt.1 fun hlt => ?_
    have hle := (beyondMax_eq_false_iff h hq).1 hin
    rw [← hunits] at hle
    exact Nat.not_lt.2 hle (elemUnits_lt_elemUnits hlt)
  exact ⟨_, _, decodeElem_signBit_add h neg hbits, (cmp_elem_eq_zero_iff hq).2 hunits⟩

end

/-! ### Conversion to a floating-point format (R64) -/

section
variable {mode : Rounding} {sat neg : Bool}

theorem convert_num_zero (h : fmtInt code = false) : (convert code mode sat (.num neg 0 e)).1 = signBit code neg := by
  simp [convert, h]

theorem convert_num_of_inRange (h : fmtInt code = false) (hm : 0 < m)
    (hin : beyondMax code (roundGrid mode m e (gridExp code m e)) (gridExp code m e) = false) :
    (convert code mode sat (.num neg m e)).1 =
      signBit code neg + encodeMag code (roundGrid mode m e (gridExp code m e)) (gridExp code m e) := by
  simp [convert, h, Nat.ne_of_gt hm, hin]

/-- A finite overflow by the table of R64. -/
theorem convert_num_of_beyond (h : fmtInt code = false) (hm : 0 < m)
    (hover : beyondMax code (roundGrid mode m e (gridExp code m e)) (gridExp code m e) = true) :
    (convert code mode sat (.num neg m e)).1 =
      if sat = true ∨ mode = .rtz ∨ 6 ≤ code % 16 then signBit code neg + fmtMaxBits code
      else if code % 16 = 4 then fmtNan code else signBit code neg + fmtInf code := by
  have hkeep : (sat || mode == .rtz || !fmtHasNan code) = decide (sat = true ∨ mode = .rtz ∨ 6 ≤ code % 16) := by
    rw [Bool.eq_iff_iff]
    simp [fmtHasNan, Nat.succ_le_iff, or_assoc]
  simp only [convert, h, Nat.ne_of_gt hm, hover, hkeep, Bool.false_eq_true, if_false, if_true, decide_eq_true_eq, beq_iff_eq]
  by_cases hkept : sat = true ∨ mode = .rtz ∨ 6 ≤ code % 16
  · rw [if_pos hkept, if_pos hkept]
  · rw [if_neg hkept, if_neg hkept]
    split <;> rfl

theorem decodeElem_signBit_add_fmtInf (hcode : code < 6) (h4 : code ≠ 4) (neg : Bool) :
    decodeElem code (signBit code neg + fmtInf code) = .inf neg := by
  have hall : ∀ c < 6, c ≠ 4 → ∀ n, decodeElem c (signBit c n + fmtInf c) = .inf n := by decide
  exact hall code hcode h4 neg

end
end

/-! ### Conversion to an integer format (R57, R64) -/

/-- Width and grid of the integer formats, and the ends of their ranges as naturals. -/
theorem fmtInteger_of_mem {code : Nat} {q : Int} (h : (code, q) ∈ [(9, (0 : Int)), (10, 0), (25, -6)]) :
    fmtInt code = true ∧ 0 < fmtBits code ∧ (if fmtMx code then -6 else 0) = q ∧
      ∀ neg : Bool, (2 ^ (fmtBits code - 1) - (if neg then 0 else 1) : Int) =
        (2 ^ (fmtBits code - 1) - (if neg then 0 else 1) : Nat) := by
  have hall : ∀ t ∈ [(9, (0 : Int)), (10, 0), (25, -6)],
      fmtInt t.1 = true ∧ 0 < fmtBits t.1 ∧ (if fmtMx t.1 then -6 else 0) = t.2 ∧
        ∀ neg : Bool, (2 ^ (fmtBits t.1 - 1) - (if neg then 0 else 1) : Int) =
          (2 ^ (fmtBits t.1 - 1) - (if neg then 0 else 1) : Nat) := by
    decide
  exact hall _ h

theorem signedOf_of_lt {w t : Nat} (ht : t < 2 ^ (w - 1)) : signedOf w t = t := by
  have hmod : t % 2 ^ w = t := Nat.mod_eq_of_lt (Nat.lt_of_lt_of_le ht (Nat.pow_le_pow_right Nat.two_pos (Nat.sub_le w 1)))
  rw [signedOf, hmod, if_pos ht]

theorem signedOf_two_pow_sub {w t : Nat} (hw : 0 < w) (ht : t ≤ 2 ^ (w - 1)) : signedOf w ((2 ^ w - t) % 2 ^ w) = -t := by
  have htwice : 2 ^ (w - 1) * 2 = 2 ^ w := Nat.two_pow_pred_mul_two hw
  rcases Nat.eq_zero_or_pos t with rfl | hpos
  · simp [signedOf]
  · rw [signedOf, Nat.mod_mod, Nat.mod_eq_of_lt (by omega), if_neg (by omega)]
    omega

section
variable {code : Nat} {mode : Rounding} {sat neg : Bool}

theorem decodeElem_int (h : fmtInt code = true) (x : Nat) :
    decodeElem code x = Val.ofInt (signedOf (fmtBits code) x) (if fmtMx code then -6 else 0) := by
  simp [decodeElem, h, signedOf]

/-- A rounded value beyond the range becomes the end of the range. -/
theorem convert_num_int (h : fmtInt code = true) (hw : 0 < fmtBits code) (hq : (if fmtMx code then -6 else 0) = q) :
    (convert code mode sat (.num neg m e)).1 =
      if neg then (2 ^ fmtBits code - min (roundGrid mode m e q) (2 ^ (fmtBits code - 1))) % 2 ^ fmtBits code
      else min (roundGrid mode m e q) (2 ^ (fmtBits code - 1) - 1) := by
  have htwice : 2 ^ (fmtBits code - 1) * 2 = 2 ^ fmtBits code := Nat.two_pow_pred_mul_two hw
  have hpos : 0 < 2 ^ (fmtBits code - 1) := Nat.two_pow_pos _
  simp only [convert, h, if_true, convertInt, hq]
  cases neg
  · simp only [Bool.false_eq_true, if_false]
    split
    next hover => exact (Nat.min_eq_right (Nat.le_of_lt hover)).symm
    next hover => exact (Nat.min_eq_left (Nat.not_lt.1 hover)).symm
  · simp only [if_true]
    split
    next hover =>
      rw [Nat.min_eq_right (Nat.le_of_lt hover), Nat.mod_eq_of_lt (by omega)]
      omega
    next hover => rw [Nat.min_eq_left (Nat.not_lt.1 hover)]

theorem decodeElem_convert_num_int (h : fmtInt code = true) (hw : 0 < fmtBits code) (hq : (if fmtMx code then -6 else 0) = q) :
    decodeElem code (convert code mode sat (.num neg m e)).1 =
      Val.ofInt (if neg then -(min (roundGrid mode m e q) (2 ^ (fmtBits code - 1)) : Nat)
        else (min (roundGrid mode m e q) (2 ^ (fmtBits code - 1) - 1) : Nat)) q := by
  rw [decodeElem_int h, hq, convert_num_int h hw hq]
  have hpos : 0 < 2 ^ (fmtBits code - 1) := Nat.two_pow_pos _
  cases neg
  · simp only [Bool.false_eq_true, if_false]
    rw [signedOf_of_lt (by omega)]
  · simp only [if_true]
    rw [signedOf_two_pow_sub hw (Nat.min_le_right ..)]

end
end Sys2Proof.Machine

namespace Sys2Proof

open Sys2Proof.Machine

/-- Settles O58: the rounding modes by their closed forms on a grid; a conversion by the order of the elements' bits, which
leaves a value within the range a finite element that decodes as itself. -/
theorem roundingIsAsDefined : Obligations.RoundingIsAsDefined := by
  unfold Obligations.RoundingIsAsDefined
  refine ⟨?_, ?_, ?_, ?_, ?_⟩
  · intro code p m emin e hmem _
    obtain ⟨hemin, hman⟩ := fmtParams_of_mem hmem
    rw [gridExp_eq, hemin, hman]
    omega
  · intro mode m e q h
    exact roundGrid_of_le mode m h
  · intro m e q h u lo
    have hrem : m - lo * u = m % u := Nat.mod_eq_sub_div_mul.symm
    refine ⟨roundGrid_rtz m h, fun hdvd mode => ?_, (roundGrid_rne_near m h).1, (roundGrid_rne_near m h).2, roundGrid_rne_tie h,
      fun r _ _ => ?_⟩
    · rw [roundGrid_of_dvd mode h hdvd, Nat.div_mul_cancel hdvd]
    · rw [hrem]
      exact roundGrid_sr r m h
  · intro code m mode sat neg e hcode k sign x
    have hfloat : code % 16 ≤ 8 := by omega
    have hint : fmtInt code = false := (fmtFloat_spec hfloat).1
    refine ⟨?_, fun hm hin => ?_, fun hm hover => ⟨fun hkeep => ?_, fun hsat hmode h4 => ?_, fun hsat hmode h6 h4 => ?_⟩⟩
    · rintro rfl
      exact convert_num_zero hint
    · rw [show x = _ from convert_num_of_inRange hint hm hin]
      exact decodeElem_encodeMag hfloat neg (subnormalExp_le_gridExp code m e) (roundGrid_le_two_pow mode (gridExp_ge code m e)) hin
    · exact (convert_num_of_beyond hint hm hover).trans (if_pos hkeep)
    · have hlost : ¬ (sat = true ∨ mode = .rtz ∨ 6 ≤ code % 16) :=
        not_or.2 ⟨by simp [hsat], not_or.2 ⟨hmode, by omega⟩⟩
      rw [show x = _ from convert_num_of_beyond hint hm hover, if_neg hlost, if_pos (by omega), h4]
      rfl
    · have hlost : ¬ (sat = true ∨ mode = .rtz ∨ 6 ≤ code % 16) :=
        not_or.2 ⟨by simp [hsat], not_or.2 ⟨hmode, by omega⟩⟩
      rw [show x = _ from convert_num_of_beyond hint hm hover, if_neg hlost, if_neg (by omega)]
      exact decodeElem_signBit_add_fmtInf h6 h4 neg
  · intro code m mode sat neg e q hmem k most
    obtain ⟨hint, hw, hq, hmost⟩ := fmtInteger_of_mem hmem
    rw [decodeElem_convert_num_int hint hw hq, show most = _ from hmost neg]
    have hpos : 0 < 2 ^ (fmtBits code - 1) := Nat.two_pow_pos _
    refine congrArg (Val.ofInt · q) ?_
    cases neg
    · simp only [k, Bool.false_eq_true, if_false]
      omega
    · simp only [k, if_true]
      omega

end Sys2Proof
end
